-- ==== Sys2Proof/Word.lean ====
section
/-! DEFINITION. The words of the block. -/
namespace Sys2Proof

/-- One byte. -/
abbrev Byte := BitVec 8

/-- A byte string, lowest offset first (00 R8). -/
abbrev Bytes := List Byte

/-- A sparse table keyed by number: a missing entry holds the default that its reader names. -/
abbrev Tab (α : Type) := List (Nat × α)

end Sys2Proof
end

