-- ==== Sys2Proof/Syntax.lean ====
section
/-! DEFINITION. The commands of the block: one constructor of `Instr` per row of spec/opcode_table.json, and the
types of their operands. -/
namespace Sys2Proof

/-- One symbol in error on the media in a host read (11 R346): of a T1 line, symbol number 0-34 and the 16-bit pattern added to it;
of a block, the number of the 16-bit unit of its stored bytes and the pattern. -/
structure Flip where
  sym : Nat
  pat : Nat
  deriving DecidableEq, Repr

/-- A command interface (13 R419): the mailbox of PF0 of link `2p + h`, of PF1 of a port, or the MCTP endpoint. -/
inductive Iface where
  | pf0 (link : Nat)
  | pf1 (port : Nat)
  | mctp
  deriving DecidableEq, Repr

/-- A function of a link (12 R393): PF0 of link `2p + h`, PF1 of port `p`, or the VF of a tenant context. -/
inductive Func where
  | pf0 (link : Nat)
  | pf1 (port : Nat)
  | vf (tenant : Nat)
  deriving DecidableEq, Repr

/-- What has a home: a pool page (by DPA / 4,096), a tile copy (by model handle and tile-directory position), a KV block (by
model handle, sequence number, layer, KV head and block index), or an ACTIVATION block (by sequence number, slice, scratch buffer
and block of it) (06 R171); and, for a read of them, a line of the map region (area 0) or the program region (area 1) of a slice
(11 R349, R358). -/
inductive Item where
  | page (n : Nat)
  | tile (handle idx : Nat)
  | kv (handle seq layer head blk : Nat)
  | act (seq slice buf blk : Nat)
  | mapLine (slice area line : Nat)
  deriving DecidableEq, Repr

/-- One bit in error on the media in the block of an item that an op reads (11 R349, R351). -/
structure MediaErr where
  item : Item
  bit : Nat
  deriving DecidableEq, Repr

/-- A step whose op reads blocks, and the bits in error on the media that its reads meet (11 R349, R353). -/
structure EngRead where
  step : Nat
  errs : List MediaErr
  deriving DecidableEq, Repr

/-- A register offset in a BAR, or in configuration space as BAR 7. -/
structure RegAt where
  bar : Nat
  off : Nat
  deriving DecidableEq, Repr

/-- A DRAM controller (10 R307): slice, tier 1 or 2, physical unit. -/
structure Ctl where
  slice : Nat
  tier : Nat
  unit : Nat
  deriving DecidableEq, Repr

/-- What training measured on one byte lane (10 R331, R332). -/
structure Lane where
  rdDelay : Nat
  rdEye : Nat
  wrDelay : Nat
  wrEye : Nat
  vref : Nat
  vrefWin : Nat
  repaired : Bool
  deriving DecidableEq, Repr

/-- The codes that pass in the sweeps of one training of a lane (10 R331), as masks with bit k for code k: the read-strobe and the
write delay at the default reference voltage, the reference voltage, and both delays again at the one chosen. -/
structure Sweeps where
  rd1 : Nat
  wr1 : Nat
  vref : Nat
  rd2 : Nat
  wr2 : Nat
  deriving DecidableEq, Repr

/-- The training of a lane: its sweeps, and those after a repair of the lane where the stack has the resources for one (10 R332). -/
structure LaneRun where
  first : Sweeps
  again : Option Sweeps
  deriving DecidableEq, Repr

/-- A Periscope message: the 16 B header of 08 R251 and its data sectors. -/
structure Msg where
  opcode : Nat
  vc : Nat
  len : Nat
  src : Nat
  dst : Nat
  tag : Nat
  hops : Nat
  gen : Nat
  ca : Nat
  cls : Nat
  status : Nat
  data : Bytes
  deriving DecidableEq, Repr

/-- One entry of a membership table (08): module number, serial, state (0 JOINING, 1 MEMBER, 2 LEAVING, 3 LOST),
interface level and the epoch of its last change. -/
structure Member where
  module : Nat
  serial : Bytes
  state : Nat
  level : Nat
  epoch : Nat
  deriving DecidableEq, Repr

/-- What a link's partner offers when it trains (12 R383, R386): the highest CXL generation (0 PCIe only, 1 CXL 1.1,
2 CXL 2.0, 3 CXL 3.1), the rate code of GEN_PORT_STAT SPEED, the lanes that train, whether the reference is present
and whether the host sets Viral_Enable. -/
structure LinkOffer where
  gen : Nat
  speed : Nat
  lanes : Nat
  refclk : Bool
  viral : Bool
  deriving DecidableEq, Repr

/-- One unit that a self-test suite found bad (18 R578): cause code, unit and detail. -/
structure BistFail where
  cause : Nat
  unit : Nat
  detail : Nat
  deriving DecidableEq, Repr

/-- What the boot sequence meets outside the module's memory (15 R504, R505; 16 R532; 08 R272): slices that fail
steps 5 to 7, references present, trays found with their capacity in GiB, the lanes of the controllers as they train, the
units that fail start-up checks, whether the boot loader verifies, and whether the reset keeps 48 V. -/
structure BootEnv where
  failedSlices : Nat
  hpRef : Nat
  tpRef : Bool
  ppRef : Nat
  trays : List Nat
  train : List (Ctl × List LaneRun)
  badClusters : List Nat
  badBanks : List Nat
  loaderOk : Bool
  bootMs : Nat
  deriving DecidableEq, Repr

/-- The clock domains of 16 R531 that can stop. -/
inductive ClkDomain where
  | eng | noc | hbm | lp | hpp | ppp | mgmt
  deriving DecidableEq, Repr

/-- The side of a crossing that failed to acknowledge (16 R546). -/
inductive XSide where
  | engine
  | endpoint
  | hostLink (link : Nat)
  | peerLink (port : Nat)
  | controller (ctl : Ctl)
  deriving DecidableEq, Repr

/-- The SPDM 1.3 requests of 14 R502. -/
inductive SpdmReq where
  | getVersion
  | getCapabilities
  | negotiateAlgorithms
  | getDigests
  | getCertificate (slot offset : Nat)
  | challenge (nonce : Bytes)
  | getMeasurements (index : Nat)
  | other (code : Nat)
  deriving DecidableEq, Repr

/-- The commands of the block. -/
inductive Instr where
  /-- `HOST_READ` (R23): A CXL.mem read of a pool line is decoded to its owning slice and served from the home or a Loupe copy, or refused as unassigned or out of extent. -/
  | hostRead (link : Nat) (pbr : Option Nat) (dpa : Nat) (flips : List Flip)
  /-- `HOST_WRITE` (R317): A CXL.mem write to a pool line enters a bank queue and completes to its host, or is discarded when unassigned or out of extent. -/
  | hostWrite (link : Nat) (pbr : Option Nat) (dpa : Nat) (data : Bytes) (be : Nat) (poison : Bool)
  /-- `LOUPE_FILL` (R196): On a Loupe miss the Prism decodes the block, returns the requested line and installs the whole page as a clean copy. -/
  | loupeFill (page : Nat) (cls : Nat)
  /-- `CONDENSER_CODE_BLOCK` (R150): A Condenser computes CHECK, chooses ZERO, ZRUN, TANS or RAW, verifies its own output and stores the block. -/
  | condenserCodeBlock (page : Nat)
  /-- `BLOCK_DECODE` (R163): A decoder decodes a stored block and compares its CHECK, failing with BLOCK_LENGTH or BLOCK_CHECK where the block is bad. -/
  | blockDecode (item : Item) (source : Nat) (unit : Nat) (flips : List Nat)
  /-- `HELD_WRITE_REEXAMINE` (R202): Held writes are re-examined oldest first when sectors are freed and at least every 100 µs, and stored where their excess can now be drawn. -/
  | heldWriteReexamine (slice : Nat)
  /-- `HOLD_LIMIT_EXPIRY` (R203): A held write that reaches HOLD_LIMIT completes normally, its data is discarded and its line is recorded as poison. -/
  | holdLimitExpiry (slice : Nat)
  /-- `OVERRUN_RELIEF_PROMOTION` (R202): While writes are held the owning slice promotes pages of the overrunning extent to T1 in descending heat to free T2 sectors. -/
  | overrunReliefPromotion (base : Nat)
  /-- `EPOCH_ADVANCE` (R186): Once per DECAY_MS each slice advances its 4-bit heat epoch. -/
  | epochAdvance (slice : Nat)
  /-- `MIGRATION_SCAN` (R188): The migration scanner visits heat entries and decides promotions and demotions under placement, thresholds and T1 high and low marks. -/
  | migrationScan (item : Item)
  /-- `MOVE_SWITCH` (R22): A move whose new home is written switches the map entry, applies held writes at the new home and frees the old home. -/
  | moveSwitch (item : Item)
  /-- `MOVE_CANCEL` (R194): A move not switched within 4 µs of its first held write is cancelled, its held writes applied at the old home and its new home freed. -/
  | moveCancel (item : Item)
  /-- `RETIRE_LIST_SAVE` (R367): Feovar saves a changed retire list to the settings area at most once per 60 s, under the flash-write rules. -/
  | retireListSave
  /-- `RD_S` (R215): A read asking for a shared copy of a SHARED_COHERENT line is served by the directory, with a BISnpData recall where another host owns it. -/
  | rdS (link : Nat) (pbr : Option Nat) (dpa : Nat)
  /-- `RD_E` (R215): A read asking for an exclusive copy is served by the directory after invalidating snoops to other holders. -/
  | rdE (link : Nat) (pbr : Option Nat) (dpa : Nat)
  /-- `RD_I` (R215): A read asking for no copy is served from the home, with a BISnpCur to an owner where one exists. -/
  | rdI (link : Nat) (pbr : Option Nat) (dpa : Nat)
  /-- `WB` (R215): A write-back from the owner stores the line and leaves it shared or invalid, or serves as a recall's data. -/
  | wb (link : Nat) (pbr : Option Nat) (dpa : Nat) (data : Bytes) (keep : Bool)
  /-- `EVICT` (R215): A clean eviction notice removes the host from the directory entry. -/
  | evict (link : Nat) (pbr : Option Nat) (dpa : Nat)
  /-- `BIRSP` (R216): A host's BIRsp answers a recall, and the waiting request is served once all targets have answered; a late BIRsp is discarded. -/
  | birsp (host : Nat) (dpa : Nat) (invalid : Bool)
  /-- `RECALL_TIMEOUT` (R220): A recall unanswered within RECALL_MS poisons an owned line into ORPHAN or drops a sharer, writes a record and serves the waiting request. -/
  | recallTimeout (dpa : Nat)
  /-- `DIR_PUB_DB` (R232): A doorbell write on the host's own port starts a publish of the named region by fencing its earlier writes on every slice. -/
  | dirPubDb (link : Nat) (slot : Nat) (region : Nat)
  /-- `DIR_PUB_QUERY` (R238): A doorbell write with QUERY returns the region's current version in DIR_PUB_VER without publishing. -/
  | dirPubQuery (link : Nat) (slot : Nat) (region : Nat)
  /-- `PUBLISH_FENCE_DONE` (R232): When the fences complete the region version and publish count rise, pending conflicts are reported and the result is posted. -/
  | publishFenceDone (region : Nat) (host : Nat)
  /-- `PUBLISH` (R239): The PUBLISH mailbox command publishes a region for a host ID with the same results as the doorbell. -/
  | publish (via : Iface) (inp : Bytes)
  /-- `PUBLISH_QUERY` (R239): PUBLISH with QUERY returns the region's current version without publishing. -/
  | publishQuery (via : Iface) (inp : Bytes)
  /-- `HOST_LOST_LOST` (R225): HOST_LOST with action LOST fences the host ID, ends its recalls and pending publishes and starts the directory sweep. -/
  | hostLostLost (via : Iface) (inp : Bytes)
  /-- `HOST_LOST_DONE` (R225): When every slice has swept, HOST_LOST_DONE is written and the background operation completes. -/
  | hostLostDone
  /-- `HOST_LOST_REINSTATE` (R227): HOST_LOST with action REINSTATE lifts the fence of a host ID. -/
  | hostLostReinstate (via : Iface) (inp : Bytes)
  /-- `CURSOR_WRITE` (R105): A write reaching a cursor line's bytes 0–31 is stamped and evaluated as ignored, restart, update, phase advance or layer advance. -/
  | cursorWrite (cu : Nat) (stamp : Nat)
  /-- `LAYER_ADVANCE_RECEIVED` (R107): A slice's Rangefinder receives an advance with stamp and estimates and issues staging fetches for its own items. -/
  | layerAdvanceReceived (slice : Nat) (cu : Nat)
  /-- `DOORBELL` (R90): A submission doorbell value is checked, ignored with DB_INVALID when out of range, or taken as the new tail to consume up to. -/
  | doorbell (cu : Nat) (q : Nat)
  /-- `STEP_CONSUME` (R92): The device consumes a step descriptor, checks it in code order and either refuses it with FORMAT_INVALID or queues it for its sequences. -/
  | stepConsume (cu : Nat) (q : Nat)
  /-- `STEP_START` (R92): A waiting step whose sequences are free starts its first layer, opening slots or ending with MODEL_DEGRADED. -/
  | stepStart (step : Nat)
  /-- `READINESS_CHECK` (R125): At the first op of each phase, or at a ROUTED MATMUL, the engine checks that every needed tile and KV block is resident. -/
  | readinessCheck (step : Nat)
  /-- `DEMAND_FETCH_DONE` (R126): When the last missing item is resident the step resumes, STALL_US grows and a LATE_TILE record may be written. -/
  | demandFetchDone (step : Nat)
  /-- `LATE_ABORT` (R128): A stall that reaches LATE_LIMIT ends the step with LATE_ABORT and completes the waiting steps of its sequences likewise. -/
  | lateAbort (step : Nat)
  /-- `MATMUL` (R84): The MATMUL op multiplies an activation by a weight tensor, routed through selected experts where ROUTED is set. -/
  | matmul (step : EngRead)
  /-- `ATTEND` (R84): The ATTEND op appends the new token's K and V to the KV cache and attends over all cached tokens. -/
  | attend (step : EngRead)
  /-- `NORM` (R84): The NORM op applies RMS or layer normalisation with a gain vector. -/
  | norm (step : Nat)
  /-- `ACT` (R84): The ACT op applies the activation function named by its sub-code. -/
  | act (step : Nat)
  /-- `ROTATE` (R610): The ROTATE op applies rotary position to each head in place. -/
  | rotate (step : Nat)
  /-- `ROUTE` (R84): The ROUTE op selects top-k experts from logits into a routing table. -/
  | route (step : Nat)
  /-- `GATHER_CONCAT` (R84): GATHER CONCAT joins COLUMN or HEAD partial vectors from all slices onto the host slice. -/
  | gatherConcat (step : Nat)
  /-- `GATHER_SUM` (R84): GATHER SUM adds ROW or COMBINE partial sums from all slices in FP32. -/
  | gatherSum (step : Nat)
  /-- `GATHER_INPUT` (R84): GATHER INPUT converts the step input record into FP32. -/
  | gatherInput (step : Nat)
  /-- `SCATTER_BROADCAST` (R84): SCATTER BROADCAST copies a buffer from the host slice to every slice. -/
  | scatterBroadcast (step : Nat)
  /-- `SCATTER_SPLIT` (R84): SCATTER SPLIT sends each slice its COLUMN range. -/
  | scatterSplit (step : Nat)
  /-- `ADD` (R84): The ADD op adds a scaled second operand to the first. -/
  | add (step : Nat)
  /-- `QUANT` (R65): The QUANT op converts values to an output format, choosing group scales and optionally rounding stochastically. -/
  | quant (step : Nat)
  /-- `COPY_OUT` (R84): The COPY_OUT op writes a buffer into the step output record in the output format. -/
  | copyOut (step : Nat)
  /-- `STEP_END` (R608): A step finishes its last layer, releases its resources and frees old tile homes whose last reader it was. -/
  | stepEnd (step : Nat)
  /-- `STEP_COMPLETE` (R93): A step's completion entry is written in queue order when the ring has room, with slot closing and the completion vector. -/
  | stepComplete (cu : Nat) (q : Nat)
  /-- `COMPLETION_RING_ROOM` (R95): When the host advances the completion head of a full ring, the held completion is written and consumption resumes. -/
  | completionRingRoom (cu : Nat) (q : Nat)
  /-- `STAGING_FETCH_ISSUE` (R123): The Prism issues a staging fetch, promotion or paired demotion in deadline order within its class share. -/
  | stagingFetchIssue (slice : Nat)
  /-- `STAGING_FETCH_DONE` (R118): A staging fetch lands as a T0 copy or a promotion of the item's home into T1. -/
  | stagingFetchDone (fetch : Nat)
  /-- `DEADLINE_MISS` (R115): An ordinal's staging not complete at its deadline counts in DEADLINE_MISSES. -/
  | deadlineMiss (cu : Nat) (ordinal : Nat)
  /-- `ENGINE_PARK` (R527): The engine side of a slice idle for PARK_IDLE_US parks with T0 content kept. -/
  | enginePark (slice : Nat)
  /-- `ENGINE_WAKE` (R527): A step that needs a parked slice wakes it within 200 µs. -/
  | engineWake (slice : Nat)
  /-- `CURSOR_BIND` (R109): CURSOR_BIND checks and binds a cursor to a model, reading its line as the start and setting queue heads. -/
  | cursorBind (via : Iface) (inp : Bytes)
  /-- `CURSOR_UNBIND` (R112): CURSOR_UNBIND drops unissued fetches and stops consuming the cursor's queues. -/
  | cursorUnbind (via : Iface) (inp : Bytes)
  /-- `CURSOR_UNBIND_DONE` (R112): When every consumed step of the cursor has completed, the unbind completes. -/
  | cursorUnbindDone (cu : Nat)
  /-- `MODEL_LOAD` (R100): MODEL_LOAD checks an image structurally and for fit, then stores tiles, binds tables and returns a handle and fit report. -/
  | modelLoad (via : Iface) (inp : Bytes)
  /-- `MODEL_LOAD_DONE` (R80): A MODEL_LOAD background operation completes with a handle or refusal and leaves nothing behind on failure. -/
  | modelLoadDone (tenant : Nat)
  /-- `MODEL_UNLOAD` (R98): MODEL_UNLOAD lets admitted steps end, refuses unadmitted ones, unbinds cursors and removes the model. -/
  | modelUnload (via : Iface) (inp : Bytes)
  /-- `TILE_WRITE` (R97): TILE_WRITE verifies a replacement tile, writes it at a new home and commits it in one map switch. -/
  | tileWrite (via : Iface) (inp : Bytes)
  /-- `MODEL_QUERY` (R436): MODEL_QUERY returns a model's summary, a load outcome or its poisoned tiles. -/
  | modelQuery (via : Iface) (inp : Bytes)
  /-- `TABLE_LOAD` (R158): TABLE_LOAD checks a table and loads it into a slot on each slice of the mask, or fails with TABLE_SLOT_BUSY. -/
  | tableLoad (via : Iface) (inp : Bytes)
  /-- `TABLE_BUILT` (R157): A loading slot's table is built and verified and the slot becomes ACTIVE, taking its encode selection. -/
  | tableBuilt (slice : Nat) (slot : Nat)
  /-- `TABLE_RETIRE` (R160): TABLE_RETIRE clears an encode selection and empties or retires the slot on every slice of the mask, optionally re-coding its blocks. -/
  | tableRetire (via : Iface) (inp : Bytes)
  /-- `SLOT_RELEASE` (R157): A slot whose reference count reaches zero while retiring or after its model's unload becomes EMPTY. -/
  | slotRelease (slice : Nat) (slot : Nat)
  /-- `RECODE_BLOCK` (R160): A Condenser decodes a block that names a retiring slot and codes it afresh at a new home. -/
  | recodeBlock (item : Item)
  /-- `DC_ADD` (R176): A Dynamic Capacity add for one or more host IDs is checked against quotas and map room and added with the default policy. -/
  | dcAdd (via : Iface) (hosts : List Nat) (base : Nat) (len : Nat) (tag : Nat)
  /-- `ADD_DYNAMIC_CAPACITY_RESPONSE` (R430): The host accepts offered Dynamic Capacity extents. -/
  | addDynamicCapacityResponse (link : Nat) (host : Nat) (bases : List Nat)
  /-- `DC_RELEASE` (R177): Release of an extent completes its held writes, unbinds cursors, invalidates copies, frees homes and returns charges. -/
  | dcRelease (via : Iface) (base : Nat)
  /-- `EXTENT_POLICY_SET_EXTENT` (R180): EXTENT_POLICY_SET of the EXTENT form changes an extent's placement, sharing, assured ratio or strength and recomputes charges. -/
  | extentPolicySetExtent (via : Iface) (inp : Bytes)
  /-- `SHARING_CHANGE_DONE` (R229): A change out of SHARED_COHERENT completes once every tracked line has been recalled and freed. -/
  | sharingChangeDone (base : Nat)
  /-- `EXTENT_POLICY_SET_TENANT` (R184): EXTENT_POLICY_SET of the TENANT form sets a tenant's quota record, demoting T1 content where a quota is lowered. -/
  | extentPolicySetTenant (via : Iface) (inp : Bytes)
  /-- `QOS_SET_CLASS_HOST` (R281): QOS_SET_CLASS of the HOST form writes or removes a host record. -/
  | qosSetClassHost (via : Iface) (inp : Bytes)
  /-- `QOS_SET_CLASS_TENANT` (R290): QOS_SET_CLASS of the TENANT form sets a tenant's class and T0 share. -/
  | qosSetClassTenant (via : Iface) (inp : Bytes)
  /-- `QOS_SET_CLASS_CLASS` (R284): QOS_SET_CLASS of the CLASS form sets a class's ceilings, weight and maximum slots and ways. -/
  | qosSetClassClass (via : Iface) (inp : Bytes)
  /-- `QOS_ADMIT` (R295): QOS_ADMIT checks a guarantee set against deliverable figures and admits or refuses it whole, returning the admission report. -/
  | qosAdmit (via : Iface) (inp : Bytes)
  /-- `QOS_QUERY` (R441): QOS_QUERY returns a host record, class record or tenant record with charges. -/
  | qosQuery (via : Iface) (inp : Bytes)
  /-- `BANK_IDLE_PRECHARGE` (R321): A bank with no queued request precharges after IDLE_CYCLES without access. -/
  | bankIdlePrecharge (ctl : Ctl) (bank : Nat)
  /-- `REQUEST_URGENT` (R318): A queued request that has waited more than AGE_CAP × 256 cycles becomes urgent. -/
  | requestUrgent (ctl : Ctl) (bank : Nat)
  /-- `REFRESH` (R322): A controller issues a due bank refresh, postponing it only within the standard's limit. -/
  | refresh (ctl : Ctl) (bank : Nat)
  /-- `RFM_MARK` (R326): An activate whose random draw hits marks the bank for a refresh-management command. -/
  | rfmMark (ctl : Ctl) (bank : Nat) (draw : Nat)
  /-- `RFM_DUE` (R326): A marked bank receives its refresh-management command before its fourth activate or within 2 µs. -/
  | rfmDue (ctl : Ctl) (bank : Nat)
  /-- `TEMP_POLL` (R323): Every TEMP_POLL_MS the slice reads stack temperatures and MR4 and doubles or restores refresh. -/
  | tempPoll (slice : Nat) (temps : List Nat) (mr4 : List Nat)
  /-- `DRIFT_TRACKING` (R333): Every 100 ms a controller tracks drift, and freezes with TRACKING when a lane is out of limits. -/
  | driftTracking (ctl : Ctl) (bad : Bool)
  /-- `CONTROLLER_TRAINED` (R332): A controller's training ends and it enters service, is spared, retired, or stays frozen. -/
  | controllerTrained (ctl : Ctl) (lanes : List LaneRun)
  /-- `CONTROLLER_FREEZE` (R336): An interface error freezes a controller, which stops issuing, snapshots its state and writes DRC_FROZEN. -/
  | controllerFreeze (ctl : Ctl) (cause : Nat) (addr : Option Nat)
  /-- `FREEZE_POISON_TIMEOUT` (R336): 100 µs after a freeze, queued and later requests of the frozen controller complete with poison or are discarded. -/
  | freezePoisonTimeout (ctl : Ctl)
  /-- `AUTO_RETIRE` (R342): A controller still frozen after FREEZE_LIMIT is retired as DRC_RETIRE_CHANNEL would retire it. -/
  | autoRetire (ctl : Ctl)
  /-- `DRC_FREEZE_DUMP` (R339): DRC_FREEZE_DUMP returns the snapshot of a frozen controller. -/
  | drcFreezeDump (via : Iface) (inp : Bytes)
  /-- `DRC_THAW` (R340): DRC_THAW rewrites the mirrored map copy and retrains a frozen controller to return it to service. -/
  | drcThaw (via : Iface) (inp : Bytes)
  /-- `DRC_RETIRE_CHANNEL` (R341): DRC_RETIRE_CHANNEL removes a controller, remapping to a spare, substituting a hot spare, retiring the unit or failing the stack. -/
  | drcRetireChannel (via : Iface) (inp : Bytes)
  /-- `APPLY_MASK` (R329): A DRC_PASR_CMD write with APPLY_MASK masks or unmasks partial-array segments, or is refused with a result code. -/
  | applyMask (fn : Func) (slice : Nat) (val : Nat)
  /-- `APPLY_EVAC` (R330): A DRC_PASR_CMD write with APPLY_EVAC stops allocation in the named segments and moves their homes out. -/
  | applyEvac (fn : Func) (slice : Nat) (val : Nat)
  /-- `SELF_REFRESH_ENTRY` (R572): An LPDDR5X controller idle for SR_IDLE_US places its channel in self-refresh. -/
  | selfRefreshEntry (ctl : Ctl)
  /-- `STACK_FAILURE` (R377): A failed stack leaves service, degraded reads start and rebuild onto parity rows begins. -/
  | stackFailure (slice : Nat) (stack : Nat)
  /-- `REBUILD_DONE` (R377): The last stripe or unit is rebuilt, REBUILD_DONE is written and the group runs without parity. -/
  | rebuildDone (slice : Nat)
  /-- `SCRUB_RANGE` (R369): SCRUB_RANGE queues a scrub of a scope and returns its number. -/
  | scrubRange (via : Iface) (inp : Bytes)
  /-- `SCRUB_CANCEL` (R371): SCRUB_RANGE with CANCEL stops the named scrub at its next home. -/
  | scrubCancel (via : Iface) (inp : Bytes)
  /-- `SCRUB_HOME_READ` (R370): The scrubber reads one home in scope, corrects T1 lines in place and applies tallies and uncorrectable consequences. -/
  | scrubHomeRead (scrub : Nat) (item : Item) (flips : List Nat)
  /-- `SCRUB_STATUS` (R371): SCRUB_STATUS returns the state and counters of a scrub. -/
  | scrubStatus (via : Iface) (inp : Bytes)
  /-- `RETIRE_LIST_GET` (R452): RETIRE_LIST_GET returns entries of a slice's retire list. -/
  | retireListGet (via : Iface) (inp : Bytes)
  /-- `PEER_LINK_TRAIN` (R243): A peer port trains all eight lanes or falls back to a half-width group. -/
  | peerLinkTrain (port : Nat) (lanes : Nat)
  /-- `FLIT_RECEIVE` (R249): A received flit is FEC-corrected and CRC-checked, delivering messages, acknowledgements and credits or being discarded. -/
  | flitReceive (port : Nat) (flit : Bytes)
  /-- `RETRY_REQ` (R249): A received RETRY_REQ makes the sender replay DATA flits from the requested SEQ. -/
  | retryReq (port : Nat) (seq : Nat)
  /-- `RETRY_REQ_REPEAT` (R249): A receiver with no progress repeats RETRY_REQ every 2 µs. -/
  | retryReqRepeat (port : Nat)
  /-- `ACK_TIMER` (R249): The receiver acknowledges at least once every 64 flits or 100 ns. -/
  | ackTimer (port : Nat)
  /-- `PEER_LINK_DOWN` (R250): A link goes down on 16 replays, 50 µs without progress or 10 µs without a valid flit, and retrains. -/
  | peerLinkDown (port : Nat)
  /-- `PEER_LINK_RETRAINED` (R250): A retrained link replays its unacknowledged flits. -/
  | peerLinkRetrained (port : Nat) (lanes : Nat)
  /-- `PORT_DOWN` (R250): A link not retrained within 10 ms becomes DOWN, its replay buffer is discarded and the management vector is signalled. -/
  | portDown (port : Nat)
  /-- `RD` (R267): A lender checks a Periscope RD against its lend window and serves it or answers NACK RANGE or STALE. -/
  | rd (msg : Msg)
  /-- `WR` (R267): A lender checks a Periscope WR against its lend window and stores it or answers NACK. -/
  | wr (msg : Msg)
  /-- `RD_DATA` (R253): A read response completes an outstanding fabric read, or is discarded as late. -/
  | rdData (msg : Msg)
  /-- `WR_ACK` (R253): A write acknowledgement completes an outstanding fabric write, or is discarded as late. -/
  | wrAck (msg : Msg)
  /-- `NACK` (R268): On NACK STALE the borrower holds, refreshes its window generation and reissues; on RANGE the request ends at once. -/
  | nack (msg : Msg)
  /-- `REQ_TIMEOUT_EXPIRY` (R253): A fabric request without response within REQ_TIMEOUT ends as an uncorrectable block or a poisoned write. -/
  | reqTimeoutExpiry (tag : Nat)
  /-- `HELLO` (R256): A HELLO exchanged at link-up names the neighbour's constellation, module, master and epoch. -/
  | hello (port : Nat) (cid : Nat) (module : Nat) (master : Nat) (epoch : Nat)
  /-- `HEARTBEAT` (R258): A HEARTBEAT is received from the master or a member and refreshes its liveness. -/
  | heartbeat (src : Nat)
  /-- `HEARTBEAT_TIMER` (R251): Every 10 ms the master broadcasts and each member sends a heartbeat. -/
  | heartbeatTimer
  /-- `MEMBER_LOST` (R258): The master declares a member LOST after 1 s without its heartbeat, raises the epoch and broadcasts new routes. -/
  | memberLost (module : Nat)
  /-- `MASTER_LOST` (R260): A member without a master heartbeat for 1 s sets MASTER_LOST and refuses membership commands. -/
  | masterLost
  /-- `JOIN_REQ` (R256): The master receives a JOIN_REQ, verifies it and admits or refuses the joiner. -/
  | joinReq (port : Nat) (serial : Bytes) (report : Bytes) (level : Nat)
  /-- `JOIN_ACK` (R256): A joiner receives JOIN_ACK and becomes MEMBER with its module number and routes. -/
  | joinAck (src : Nat) (module : Nat) (epoch : Nat) (routes : List Nat)
  /-- `JOIN_TIMEOUT` (R445): A join without an answer within 500 ms ends with LAST_JOIN_RESULT 7. -/
  | joinTimeout
  /-- `MEMBERSHIP` (R259): A member accepts a MEMBERSHIP of a new epoch, updates tables and answers MEMBERSHIP_ACK, or ignores an older one. -/
  | membership (src : Nat) (epoch : Nat) (table : List Member) (routes : List Nat)
  /-- `MEMBERSHIP_ACK` (R256): The master collects a member's acknowledgement of a new epoch. -/
  | membershipAck (src : Nat) (epoch : Nat)
  /-- `POLL` (R261): A member answers a new master's POLL with its state. -/
  | poll (src : Nat)
  /-- `POLL_ANSWER` (R261): A new master receives a member's answer to POLL and rebuilds its membership table from it. -/
  | pollAnswer (src : Nat) (epoch : Nat) (serial : Bytes) (level : Nat)
  /-- `WINDOW_NOTICE` (R266): A borrower receives WINDOW_NOTICE and updates the Periscope window's REMOTE_GEN and SIZE. -/
  | windowNotice (src : Nat) (lw : Nat) (size : Nat) (borrower : Nat) (gen : Nat)
  /-- `WINDOW_INFO` (R268): A lender answers a borrower's WINDOW_INFO with WINDOW_NOTICE. -/
  | windowInfo (src : Nat) (lw : Nat)
  /-- `OCCUPANCY` (R265): A borrower answers a lender's OCCUPANCY request with the highest occupied granule of the window. -/
  | occupancy (src : Nat) (lw : Nat)
  /-- `OCCUPANCY_ANSWER` (R265): A lender receives the borrower's OCCUPANCY answer giving the highest occupied granule of a window. -/
  | occupancyAnswer (src : Nat) (lw : Nat) (highest : Nat)
  /-- `PERISCOPE_WINDOW_STAGE` (R264): PERISCOPE_WINDOW_STAGE stages a copy of one lend or Periscope window. -/
  | periscopeWindowStage (via : Iface) (inp : Bytes)
  /-- `PERISCOPE_COMMIT` (R265): PERISCOPE_COMMIT applies or discards every staged window in one step, raising lend window generations. -/
  | periscopeCommit (via : Iface) (inp : Bytes)
  /-- `CONSTELLATION_JOIN_ADMIT` (R255): CONSTELLATION_JOIN ADMIT adds a serial to the master's admission list. -/
  | constellationJoinAdmit (via : Iface) (inp : Bytes)
  /-- `CONSTELLATION_JOIN_JOIN` (R256): CONSTELLATION_JOIN JOIN starts a join of the named constellation as a background operation. -/
  | constellationJoinJoin (via : Iface) (inp : Bytes)
  /-- `CONSTELLATION_JOIN_LEAVE` (R257): CONSTELLATION_JOIN LEAVE removes the module from membership when no window is valid. -/
  | constellationJoinLeave (via : Iface) (inp : Bytes)
  /-- `CONSTELLATION_STATUS` (R445): CONSTELLATION_STATUS returns the last accepted membership table. -/
  | constellationStatus (via : Iface) (inp : Bytes)
  /-- `CONSTELLATION_MASTER_SET` (R261): CONSTELLATION_MASTER_SET with presence forms a constellation or takes the master role by polling and broadcasting a new epoch. -/
  | constellationMasterSet (via : Iface) (inp : Bytes)
  /-- `TRAY_COMPLETION` (R414): A tray read completion is matched by tag and incarnation, or discarded as late. -/
  | trayCompletion (tag : Nat) (poison : Bool)
  /-- `TRAY_READ_TIMEOUT` (R413): A tray read without completion within CPL_TIMEOUT is treated as an uncorrectable block. -/
  | trayReadTimeout (entry : Nat)
  /-- `TAG_REUSE` (R414): A timed-out tray tag returns to use at 2 × CPL_TIMEOUT with its incarnation advanced. -/
  | tagReuse (entry : Nat)
  /-- `TP0_LINK_ERROR` (R417): An uncorrectable TP0 link error, or a switch port error, makes the trays behind it LOST. -/
  | tp0LinkError (trays : Nat)
  /-- `TRAY_DRAIN` (R274): Setting DRAIN in PSC_TRAY_CTL moves a tray's homes out, and READY sets once it holds none. -/
  | trayDrain (fn : Func) (tray : Nat) (drain : Bool)
  /-- `LINK_UP` (R386): A host-port link trains and negotiates its CXL generation and features. -/
  | linkUp (link : Nat) (offer : LinkOffer)
  /-- `LINK_DOWN` (R410): A host link leaving L0 or failing to retrain is down; requests in the device complete and responses are discarded. -/
  | linkDown (link : Nat)
  /-- `PERST` (R512): Assertion of HPn_PERST_N or a hot reset resets the port domain of the link. -/
  | perst (port : Nat)
  /-- `FLR_VF` (R397): A function-level reset of a VF resets its tenant context. -/
  | flrVf (tenant : Nat)
  /-- `FLR_PF1` (R397): A function-level reset of PF1 clears VF Enable and resets every tenant context of the port. -/
  | flrPf1 (port : Nat)
  /-- `FLR_PF0` (R397): A function-level reset of PF0 returns its mailbox, MSI-X and AER state to reset values. -/
  | flrPf0 (link : Nat)
  /-- `VF_ENABLE` (R396): A write of VF Enable and NumVFs in PF1's SR-IOV capability enables or disables the virtual functions. -/
  | vfEnable (port : Nat) (numVfs : Nat) (enable : Bool)
  /-- `BI_ENABLE_WRITE` (R390): A write of BI Enable enables Back-Invalidate, and a clear is ignored while a carried host is in a SHARED_COHERENT group. -/
  | biEnableWrite (link : Nat) (enable : Bool)
  /-- `POWER_STATE_WRITE` (R398): A function enters or leaves D3hot, holding or releasing its MSI-X messages. -/
  | powerStateWrite (fn : Func) (d3hot : Bool)
  /-- `MSIX_RELEASE` (R402): When nothing holds a vector any longer, one message is sent for a set pending bit. -/
  | msixRelease (fn : Func) (vector : Nat)
  /-- `PORT_FREEZE` (R405): An uncorrectable link or message error, poison storm or viral freezes the link and writes PORT_FROZEN. -/
  | portFreeze (link : Nat) (cause : Nat)
  /-- `POISON_COUNT_RESTART` (R404): The link's poison count restarts at each millisecond boundary of TBC. -/
  | poisonCountRestart (link : Nat)
  /-- `PORT_RELEASE` (R407): PORT_RELEASE lifts a frozen link's freeze and releases its held vectors. -/
  | portRelease (via : Iface) (inp : Bytes)
  /-- `PORT_RELEASE_LINK_RESET` (R407): PORT_RELEASE with LINK_RESET retrains the frozen link before lifting the freeze. -/
  | portReleaseLinkReset (via : Iface) (inp : Bytes)
  /-- `UNEXPECTED_COMPLETION` (R412): A completion arriving on a host port is discarded and logged as an advisory error. -/
  | unexpectedCompletion (link : Nat)
  /-- `GLOBAL_PERSISTENT_FLUSH` (R392): GPF phases complete at once with no effect. -/
  | globalPersistentFlush (link : Nat) (phase : Nat)
  /-- `IDENTIFY` (R430): Identify returns the device identity and serial. -/
  | identify (via : Iface)
  /-- `BACKGROUND_OPERATION_STATUS` (R430): Background Operation Status reports the running background operation. -/
  | backgroundOperationStatus (via : Iface)
  /-- `REQUEST_ABORT_BACKGROUND_OPERATION` (R430): Request Abort Background Operation aborts BIST_RUN, chain distribution or an early MODEL_LOAD. -/
  | requestAbortBackgroundOperation (via : Iface)
  /-- `IDENTIFY_MEMORY_DEVICE` (R430): Identify Memory Device returns capacities and poison limits. -/
  | identifyMemoryDevice (via : Iface)
  /-- `GET_HEALTH_INFO` (R430): Get Health Info returns device temperature and health. -/
  | getHealthInfo (via : Iface)
  /-- `GET_EVENT_RECORDS` (R401): Get Event Records returns records of an event log. -/
  | getEventRecords (via : Iface) (log : Nat)
  /-- `CLEAR_EVENT_RECORDS` (R429): Clear Event Records clears records of a log for all interfaces, with its overflow count. -/
  | clearEventRecords (via : Iface) (log : Nat) (all : Bool) (handles : List Nat)
  /-- `GET_EVENT_INTERRUPT_POLICY` (R401): Get Event Interrupt Policy reports the message numbers of the logs. -/
  | getEventInterruptPolicy (via : Iface)
  /-- `SET_EVENT_INTERRUPT_POLICY` (R401): Set Event Interrupt Policy selects MSI-X signalling of each log on this PF0. -/
  | setEventInterruptPolicy (via : Iface) (modes : List Nat)
  /-- `GET_SUPPORTED_LOGS` (R430): Get Supported Logs lists the Command Effects Log. -/
  | getSupportedLogs (via : Iface)
  /-- `GET_LOG` (R430): Get Log returns the Command Effects Log. -/
  | getLog (via : Iface)
  /-- `GET_TIMESTAMP` (R430): Get Timestamp returns the Set Timestamp time. -/
  | getTimestamp (via : Iface)
  /-- `SET_TIMESTAMP` (R430): Set Timestamp sets the time used in record timestamps. -/
  | setTimestamp (via : Iface) (ns : Nat)
  /-- `GET_FW_INFO` (R430): Get FW Info reports the main and fall-back slots. -/
  | getFwInfo (via : Iface)
  /-- `GET_POISON_LIST` (R430): Get Poison List returns lines set in poison masks. -/
  | getPoisonList (via : Iface) (start : Nat) (len : Nat)
  /-- `INJECT_POISON` (R430): Inject Poison records a pool line of the link's extents as poison. -/
  | injectPoison (via : Iface) (dpa : Nat)
  /-- `CLEAR_POISON` (R430): Clear Poison stores the supplied line as a full-line write, clearing its poison. -/
  | clearPoison (via : Iface) (dpa : Nat) (data : Bytes)
  /-- `GET_DYNAMIC_CAPACITY_CONFIGURATION` (R430): Get Dynamic Capacity Configuration returns the link's regions. -/
  | getDynamicCapacityConfiguration (via : Iface) (start : Nat)
  /-- `GET_DYNAMIC_CAPACITY_EXTENT_LIST` (R430): Get Dynamic Capacity Extent List returns the extents of the host. -/
  | getDynamicCapacityExtentList (via : Iface) (host : Nat) (start : Nat)
  /-- `RELEASE_DYNAMIC_CAPACITY` (R430): A host's Release Dynamic Capacity gives up extents. -/
  | releaseDynamicCapacity (link : Nat) (host : Nat) (bases : List Nat)
  /-- `UNSUPPORTED_COMMAND` (R425): A command not accepted on its interface, or not listed, returns Unsupported. -/
  | unsupportedCommand (via : Iface) (opcode : Nat)
  /-- `GET_DEVICE_PROFILE` (R431): GET_DEVICE_PROFILE returns fitted and available figures and identity. -/
  | getDeviceProfile (via : Iface) (inp : Bytes)
  /-- `GET_SLICE_STATUS` (R432): GET_SLICE_STATUS returns a slice's units, temperatures and figures. -/
  | getSliceStatus (via : Iface) (inp : Bytes)
  /-- `FW_CHAIN_OFFER_BEGIN` (R447): FW_CHAIN_OFFER BEGIN discards any partial image and starts a new one. -/
  | fwChainOfferBegin (via : Iface) (inp : Bytes)
  /-- `FW_CHAIN_OFFER_SEGMENT` (R447): FW_CHAIN_OFFER SEGMENT appends a contiguous segment of image. -/
  | fwChainOfferSegment (via : Iface) (inp : Bytes)
  /-- `FW_CHAIN_OFFER_OFFER` (R480): FW_CHAIN_OFFER OFFER verifies the received image and starts writing it, and the chain with SCOPE 1. -/
  | fwChainOfferOffer (via : Iface) (inp : Bytes)
  /-- `FW_CHAIN_OFFER_ABORT` (R485): FW_CHAIN_OFFER ABORT stops an image write after its current step. -/
  | fwChainOfferAbort (via : Iface) (inp : Bytes)
  /-- `OFFER_VERIFIED` (R480): Verification of an offered image or configuration block ends, writing a config at once or starting the image write. -/
  | offerVerified
  /-- `FLASH_WRITE_STEP` (R485): One 4 KiB flash erase or program step completes after its pre-write check, and the next starts. -/
  | flashWriteStep
  /-- `FLASH_WRITE_RETRY` (R485): A paused flash write retries its pre-write check every 1 s, ending with HOLDUP_LOW after 60 s. -/
  | flashWriteRetry
  /-- `IMAGE_WRITE_DONE` (R484): The main slot is written and read back, and the state becomes STAGED or the write ends with FLASH_VERIFY. -/
  | imageWriteDone (readback : Bool) (offset : Nat)
  /-- `ANNOUNCE` (R482): A module receives a chain ANNOUNCE and answers READY or a refusal. -/
  | announce (src : Nat) (chain : Nat) (bytes : Nat) (crc : Nat) (version : Bytes) (kind : Nat) (order : List Nat)
  /-- `READY` (R482): A holder receives READY and sends the image in SEGMENTs. -/
  | ready (src : Nat) (result : Nat)
  /-- `SEGMENT` (R481): A receiver stores a chain SEGMENT of image bytes. -/
  | segment (src : Nat) (offset : Nat) (data : Bytes)
  /-- `RESEND` (R481): A holder resends the image from the requested offset. -/
  | resend (src : Nat) (offset : Nat)
  /-- `DONE` (R482): A receiver gets DONE, checks the transit CRC and answers RECEIVED. -/
  | done (src : Nat)
  /-- `RECEIVED` (R482): A holder gets RECEIVED, resending on mismatch or moving on. -/
  | received (src : Nat) (mismatch : Bool)
  /-- `RESULT` (R483): The master receives a chain RESULT and writes an FW_STATE record for that module. -/
  | result (module : Nat) (result : Nat) (fwState : Nat)
  /-- `CHAIN_HOP_TIMEOUT` (R483): A hop without READY in 500 ms or with a receiver silent for 2 s is skipped with CHAIN_SKIPPED. -/
  | chainHopTimeout
  /-- `ACTIVATE` (R491): A module receives ACTIVATE from the master and activates its staged image. -/
  | activate (src : Nat)
  /-- `ACTIVATED` (R491): The master receives ACTIVATED and activates the next module or stops on failure. -/
  | activated (module : Nat) (result : Nat) (fwState : Nat)
  /-- `ACTIVATE_TIMEOUT` (R491): Constellation activation stops when 10 s pass without an answer. -/
  | activateTimeout
  /-- `FW_ACTIVATE` (R486): FW_ACTIVATE with SCOPE 0 checks levels and formats and starts the handover of FEOVAR. -/
  | fwActivate (via : Iface) (inp : Bytes)
  /-- `FW_ACTIVATE_CONSTELLATION` (R491): FW_ACTIVATE with SCOPE 1 at the master activates each staged module of the latest chain in order. -/
  | fwActivateConstellation (via : Iface) (inp : Bytes)
  /-- `HANDOVER_PAUSE` (R487): When no foreground command runs, a handover unit pauses, exports its state and switches code banks. -/
  | handoverPause
  /-- `HANDOVER_BARRIER` (R488): On a PM8, MG0 releases all eight cores to switch once all have exported. -/
  | handoverBarrier
  /-- `HANDOVER_IMPORT_DONE` (R487): New firmware imports the state record and held commands resume. -/
  | handoverImportDone (accepted : Bool)
  /-- `HANDOVER_TIMEOUT` (R487): A handover whose import has not completed 90 ms after the pause switches back. -/
  | handoverTimeout
  /-- `BARRIER_ABORT` (R488): A PM8 export missing 40 ms after the pause makes every core resume its old firmware. -/
  | barrierAbort
  /-- `HANDOVER_NEXT_UNIT` (R488): After 50 ms of service a PM2 or PM4 hands over its next slice. -/
  | handoverNextUnit
  /-- `HANDOVER_COMPLETE` (R490): After the last unit switches, settings are converted and the state becomes PENDING with the confirm deadline started. -/
  | handoverComplete
  /-- `FW_CONFIRM` (R493): FW_CONFIRM confirms a pending image or clears a rejected one, returning the state to IDLE. -/
  | fwConfirm (via : Iface) (inp : Bytes)
  /-- `CONFIRM_EXPIRED` (R494): The confirm deadline passes in PENDING and MAIN_STATE EXPIRED is written. -/
  | confirmExpired
  /-- `FW_STATUS` (R448): FW_STATUS returns the firmware state and slot information. -/
  | fwStatus (via : Iface) (inp : Bytes)
  /-- `FW_RECOVERY_ENTER` (R454): FW_RECOVERY_ENTER with presence resets the module into ROM recovery mode. -/
  | fwRecoveryEnter (via : Iface) (inp : Bytes)
  /-- `PRESENCE_STATUS` (R459): PRESENCE_STATUS returns presence state and history. -/
  | presenceStatus (via : Iface) (inp : Bytes)
  /-- `ATTEST_DUAL` (R500): ATTEST_DUAL creates or continues reading a dual-signed attestation report. -/
  | attestDual (via : Iface) (inp : Bytes)
  /-- `IDENTITY_ROTATE` (R472): IDENTITY_ROTATE generates a new identity pair, certifies and wraps it and zeroes the old keys. -/
  | identityRotate (via : Iface) (inp : Bytes)
  /-- `SANITIZE_ALL` (R453): SANITIZE_ALL zeroes and verifies every reachable DRAM location and clears caches, directories and map regions. -/
  | sanitizeAll (via : Iface) (inp : Bytes)
  /-- `DEBUG_UNLOCK` (R454): DEBUG_UNLOCK with presence and a recorded seal break opens debug access and records DEBUG_UNLOCKED. -/
  | debugUnlock (via : Iface) (inp : Bytes)
  /-- `FREQ_SET` (R552): FREQ_SET requests an engine clock step on each slice of its mask and completes when all have applied or cancelled. -/
  | freqSet (via : Iface) (inp : Bytes)
  /-- `HOLDUP_STATUS` (R450): HOLDUP_STATUS returns hold-up bank and input figures. -/
  | holdupStatus (via : Iface) (inp : Bytes)
  /-- `BIST_RUN` (R575): BIST_RUN checks drain conditions and starts the selected suites on the slices of its mask. -/
  | bistRun (via : Iface) (inp : Bytes)
  /-- `BIST_SUITE_DONE` (R577): A suite ends on a slice, failures are applied and the next suite or the run's completion follows. -/
  | bistSuiteDone (slice : Nat) (fails : List BistFail)
  /-- `BIST_SUITE_TIMEOUT` (R578): A suite not finished within twice its maximum time ends with TIMEOUT and its unit counts as failed. -/
  | bistSuiteTimeout (slice : Nat) (unit : Nat)
  /-- `BIST_RESULT` (R578): BIST_RESULT returns a run's state and per-slice outcomes. -/
  | bistResult (via : Iface) (inp : Bytes)
  /-- `PRESENCE_BUTTON` (R455): A button held 2 s opens or restarts the 120 s button window. -/
  | presenceButton
  /-- `BUTTON_WINDOW_EXPIRY` (R455): The button window ends 120 s after it opened. -/
  | buttonWindowExpiry
  /-- `SEAL_OPEN` (R457): An open seal loop asserts presence and SEAL_BROKEN is recorded in flash. -/
  | sealOpen
  /-- `SEAL_RECORD_RETRY` (R457): An unwritten SEAL_BROKEN record is retried every 1 s until it succeeds. -/
  | sealRecordRetry
  /-- `MODULE_RESET` (R504): A module reset runs the boot, verification, training and readiness sequence from an empty state. -/
  | moduleReset (cause : Nat) (boot : BootEnv)
  /-- `WATCHDOG_EXPIRY` (R512): A management core's watchdog expires, resetting the module for the package master or the slice's engine side otherwise. -/
  | watchdogExpiry (slice : Nat) (boot : BootEnv)
  /-- `SLICE_RESET` (R520): A reset of a slice's engine side fences and drains it, ends its steps with SLICE_RESET and restarts Feovar. -/
  | sliceReset (slice : Nat) (cause : Nat)
  /-- `DRAIN_CUT` (R515): When a drain ends or DRAIN_US passes, the requests still inside the unit end as R516 states. -/
  | drainCut (slice : Nat)
  /-- `SLICE_RETURN` (R520): A reset slice returns to service with the units that pass start-up checks and its fence lifts. -/
  | sliceReturn (slice : Nat) (badClusters : Nat) (badBanks : Nat)
  /-- `SLICE_RETURN_TIMEOUT` (R521): A slice not back in service within 1 s, or reset three times in 10 s, is lost. -/
  | sliceReturnTimeout (slice : Nat)
  /-- `SLICE_LOST` (R522): A lost slice is taken out of service and the package re-forms without it. -/
  | sliceLost (slice : Nat) (cause : Nat)
  /-- `TENANT_RESET` (R526): A tenant reset ends its steps, unbinds cursors, closes slots and abandons its running load. -/
  | tenantReset (tenant : Nat)
  /-- `REF_LOST` (R533): Loss of the core reference puts the core PLLs in holdover and takes down that reference's ports. -/
  | refLost
  /-- `REF_SWITCH` (R533): After up to 1 ms of holdover the core PLLs lock to the next present reference. -/
  | refSwitch
  /-- `CLOCK_FAULT` (R544): A clock stopped for 1 ms without cause resets the engine side, takes a link down or loses the slice. -/
  | clockFault (slice : Nat) (domain : ClkDomain) (inst : Nat)
  /-- `CROSSING_FLUSH` (R545): A one-sided reset flushes a crossing in both directions and reopens it once both halves are out of reset. -/
  | crossingFlush (slice : Nat) (group : Nat)
  /-- `CROSSING_ESCALATION` (R546): A flush not acknowledged within 1 µs resets both sides, escalating on the side that failed. -/
  | crossingEscalation (slice : Nat) (group : Nat) (side : XSide)
  /-- `ENG_FREQ_CHANGE` (R549): A released change of the engine step stops the ENG clock and relocks its PLL. -/
  | engFreqChange (slice : Nat)
  /-- `ENG_FREQ_CHANGE_DONE` (R549): The ENG PLL locks at the new frequency and work resumes at the same cycle. -/
  | engFreqChangeDone (slice : Nat)
  /-- `FREQ_CHANGE_DEFER_END` (R550): A deferred change is released or cancelled when training ends or the slice returns or is lost. -/
  | freqChangeDeferEnd (slice : Nat)
  /-- `JUNCTION_POLL` (R568): Every 100 µs a slice reads its junction and moves its throttle step. -/
  | junctionPoll (slice : Nat) (celsius : Nat)
  /-- `INPUT_SAMPLE` (R558): Every 10 µs the input monitor samples the 48 V input against its thresholds. -/
  | inputSample (mv : Nat)
  /-- `BROWNOUT_GUARD_ENTER` (R559): An input below WARN_MV for 10 ms enters BROWNOUT_GUARD, halving engine issue and holding flash writes. -/
  | brownoutGuardEnter
  /-- `BROWNOUT_GUARD_EXIT` (R560): An input above WARN_MV + 1,000 mV for 10 ms ends the guard and releases waiting flash writes. -/
  | brownoutGuardExit
  /-- `INPUT_LOSS` (R562): Input below the reset level or overvoltage sheds the converters, loses all content and holds the management domain on the bank. -/
  | inputLoss
  /-- `BANK_EXHAUSTED` (R562): The hold-up bank falls to 30 V and the management rail turns off. -/
  | bankExhausted
  /-- `POWER_ENABLE` (R554): PWR_EN_N tied to VRTN for 10 ms lets the module soft-start from the 48 V input. -/
  | powerEnable (jumper : Bool)
  /-- `HOLDUP_TEST` (R563): Hourly the hold-up bank is discharged and recharged to measure ESR, capacitance and usable energy. -/
  | holdupTest (esr : Nat) (rechargeUs : Nat)
  /-- `SB_SHORT` (R566): A sideband or LED output at its 25 mA limit for 1 ms is current-limited and SB_SHORT is set. -/
  | sbShort
  /-- `SMBUS_TIMEOUT` (R566): SB_SCL or SB_SDA held low for 35 ms makes the MCTP endpoint release the bus and reset its interface. -/
  | smbusTimeout
  /-- `CUR_SEL` (R133): A write to CUR_SEL selects a cursor and latches a snapshot of its state for this function. -/
  | curSel (fn : Func) (cursor : Nat)
  /-- `LOUPE_FLUSH` (R197): Setting FLUSH in LPE_CTL invalidates every Loupe copy of the slice. -/
  | loupeFlush (fn : Func) (slice : Nat) (val : Nat)
  /-- `LOUPE_DISABLE` (R196): Clearing ENABLE in LPE_CTL disables lookups and fills and invalidates every copy. -/
  | loupeDisable (fn : Func) (slice : Nat) (val : Nat)
  /-- `LOCK` (R597): A write setting LOCK in DRC_MAP_CFG applies its RWL fields and locks them until module reset. -/
  | lock (fn : Func) (slice : Nat) (val : Nat)
  /-- `MIN_CLR` (R573): A write of MIN_CLR in PWR_CTL sets MIN_MV to 0xFFFF. -/
  | minClr (fn : Func) (val : Nat)
  /-- `REGISTER_LOW_HALF_READ` (R594): A 4-byte read of the low half of a 64-bit register latches its high half for the reading function. -/
  | registerLowHalfRead (fn : Func) (off : RegAt)
  /-- `REGISTER_WRITE` (R600): A write to a register that has no row of its own updates its fields under their access types, or is ignored. -/
  | registerWrite (fn : Func) (bar : Nat) (off : Nat) (size : Nat) (val : Nat)
  /-- `BANK_COMMAND_ISSUE` (R318): On each controller cycle the controller picks a bank and issues the chosen request's command, entering or leaving write drain and in-order mode. -/
  | bankCommandIssue (ctl : Ctl)
  /-- `HOST_BUCKET_REFILL` (R291): A host's token bucket refills at LIMIT_MBPS and releases the requests it held. -/
  | hostBucketRefill (host : Nat)
  /-- `REQUEST_TAG_REUSE` (R253): A timed-out Periscope request tag returns to use at the later of its late response and twice REQ_TIMEOUT. -/
  | requestTagReuse (tag : Nat)
  /-- `UCIE_EDGE_DOWN` (R522): A UCIe edge of a slice goes down, traffic is rerouted over the other edges, and the slice is lost when all four are down. -/
  | ucieEdgeDown (slice : Nat) (edge : Nat)
  /-- `UCIE_LANE_REPAIR` (R381): A failing UCIe lane is repaired onto a spare lane and LANE_REPAIRS counts it. -/
  | ucieLaneRepair (slice : Nat)
  /-- `STRIPE_REBUILT` (R377): A stripe of a failed stack is rebuilt onto its parity row, ending degraded reads there and releasing writes that waited on it. -/
  | stripeRebuilt (slice : Nat)
  /-- `SANITIZE_ALL_DONE` (R453): SANITIZE_ALL finishes writing and reading back every location and completes with BYTES_WRITTEN and VERIFY_FAILS. -/
  | sanitizeAllDone (fails : Nat)
  /-- `SERVICE_JUMPER_REMOVED` (R456): Removal of J-SVC ends its assertion of presence. -/
  | serviceJumperRemoved
  /-- `SEAL_LOOP_CLOSED` (R457): The seal loop closes again after debounce, clearing SEAL_OPEN. -/
  | sealLoopClosed
  /-- `BUTTON_PRESSED` (R455): The presence button is pressed after 20 ms debounce, setting BUTTON_DOWN and starting the 2 s hold. -/
  | buttonPressed
  /-- `BUTTON_RELEASED` (R455): The presence button is released, clearing BUTTON_DOWN and rearming the hold qualification. -/
  | buttonReleased
  /-- `PERST_DEASSERT` (R508): Deassertion of HPn_PERST_N lets the host port begin link training. -/
  | perstDeassert (port : Nat)
  /-- `SPDM_REQUEST` (R502): An SPDM 1.3 request over DOE is answered, including CHALLENGE signatures and measurements. -/
  | spdmRequest (link : Nat) (req : SpdmReq)
  /-- `MCTP_SET_ENDPOINT_ID` (R460): The MCTP bus owner assigns the endpoint ID reported in MCTP_EID. -/
  | mctpSetEndpointId (eid : Nat)
  deriving DecidableEq, Repr

end Sys2Proof
end

