-- ==== Sys2Proof/Decode.lean ====
section
/-! DEFINITION. The rows of spec/opcode_table.json carry no bits, so no word spells a command. -/
namespace Sys2Proof

/-- The command that a table word spells: none, because no row of the table gives its command bits. -/
def decodeTableWord (_nbits _w : Nat) : Option Instr := none

end Sys2Proof
end

