-- ==== Sys2Proof/Config.lean ====
section
/-! DEFINITION. What an implementation fixes and the values the spec leaves open: constants without a body, so that
nothing can be proved of the value they take (logs 2, 8, 10, 11, 12). -/
namespace Sys2Proof

/-- A free value, by the number of the draw. -/
opaque Config.freeValue : Nat → Nat

/-- A byte whose value the spec leaves open: draw and position. -/
opaque Config.freeByte : Nat → Nat → Byte

/-- The error of a vector-unit result within its bound (02 R60), by operation and operands. -/
opaque Config.vecError : Nat → Nat → Nat → Nat

/-- Keys by which the order of a sum is chosen (02 R58): draw and position. -/
opaque Config.sumKey : Nat → Nat → Nat

/-- What training finds for a byte lane (10 R331): slice, tier and unit as one number, lane, and which of its results. -/
opaque Config.trainedLane : Nat → Nat → Nat → Nat

/-- The hash that selects a Loupe set from a page (06 R195). -/
opaque Config.loupeSet : Nat → Nat

/-- The hash that selects a directory set from a line (07 R212). -/
opaque Config.dirSet : Nat → Nat

/-- Signature checks (14 R461): RSA-3072 and SLH-DSA, by public key, digest and signature. -/
opaque Config.rsaOk : Bytes → Bytes → Bytes → Bool
opaque Config.slhOk : Bytes → Bytes → Bytes → Bool

/-- The digests of the two root public keys in mask ROM: 0 RSA_N, 1 SLH_PK (14 R467). -/
opaque Config.romDigest : Nat → Bytes

/-- Key records (14 R464, 512 B): 0 root, 1 MFG, 2 + g the IDENTITY pair after g rotations. -/
opaque Config.keyRecord : Nat → Bytes

/-- SHA-384 (14 R461). -/
opaque Config.sha384 : Bytes → Bytes

/-- Signatures made with the module's identity keys: key material and message. -/
opaque Config.signRsa : Bytes → Bytes → Bytes
opaque Config.signSlh : Bytes → Bytes → Bytes

/-- Dual certificates of the module's chain (14 R500): 0 MFG, 1 base identity, 2 + g rotation g. -/
opaque Config.dualCert : Nat → Bytes

/-- The X.509 DER chain of SPDM slot 0, by rotations (14 R502). -/
opaque Config.certChain : Nat → Bytes

/-- The vendor ID that GET_DEVICE_PROFILE reports (12 R393). -/
opaque Config.vendorId : Nat

/-- Refresh interval in ns of a bank and the postponement limit, by tier and rate (10 R308, R322). -/
opaque Config.refreshNs : Nat → Nat → Nat
opaque Config.postponeLimit : Nat → Nat

/-- Activates after which the standard requires refresh management, by tier (10 R327). -/
opaque Config.rfmThreshold : Nat → Nat

/-- How a constellation is cabled (08 R252): constellation ID, module and peer port give the module at the other end, 256 and
above none. -/
opaque Config.cabled : Nat → Nat → Nat → Nat

/-- What a memory reports in its error registers (10 R336): controller key and draw. -/
opaque Config.memErrors : Nat → Nat → Bytes

/-- The payload of a standard CXL command whose layout the standard gives: opcode and the facts it reports. -/
opaque Config.cxlPayload : String → List Nat → Bytes

end Sys2Proof
end

