-- ==== Sys2Proof/Machine/State.lean ====
section
/-! DEFINITION. The state of the block as plain data: everything the spec gives the module (INVENTORY.md, State),
`State.reset`, and the reasons a step can stop. -/
namespace Sys2Proof.Machine
open Sys2Proof

/-- Reasons a step can stop with a fault. The spec gives every command an effect, so no meaning raises one; the
constructor stands so that the type is not empty. Safe: a fault only stops the model. -/
inductive Fault where
  | none
  deriving DecidableEq, Repr

/-- Reasons a command is refused. `notModelled` is raised by `exec` for a command without a meaning. Safe. -/
inductive Refusal where
  | notModelled (mnemonic : String)
  deriving DecidableEq, Repr

/-! ## Return codes, records, what leaves the module -/

/-- Return codes of mailbox commands (13 R426). -/
inductive Ret where
  | success | backgroundStarted | invalidInput | unsupported | internalError | busy | aborted | invalidPayloadLength
  | refusedFit | tableSlotBusy | holdupLow | presenceRequired | sealIntact | recoveryMode
  | invalidHandle | injectPoisonLimit
  deriving DecidableEq, Repr

/-- What has left the module, in the order it left (newest first in `State.out`). -/
inductive Out where
  /-- A CXL.mem read response to a host on a link (07 R215, 09 R292). `mv`: MetaValue 0 none, 1 S, 2 E, 3 I. -/
  | readData (link : Nat) (pbr : Option Nat) (dpa : Nat) (data : Bytes) (poison : Bool) (mv : Nat)
      (devLoad : Option Nat)
  /-- A CXL.mem completion without data. -/
  | completion (link : Nat) (pbr : Option Nat) (dpa : Nat) (devLoad : Option Nat)
  /-- A back-invalidate snoop (07 R215): 0 BISnpInv, 1 BISnpData, 2 BISnpCur. -/
  | snoop (link host dpa kind : Nat)
  /-- One MSI-X message of a function's vector. -/
  | msix (fn : Func) (vector : Nat)
  /-- The response of a command interface. -/
  | response (via : Iface) (opcode : Nat) (ret : Ret) (payload : Bytes)
  /-- The link signals viral (12 R411). -/
  | viral (link : Nat)
  /-- A 256 B flit with its 16 B trailer on a peer port (08 R244). -/
  | flit (port : Nat) (bytes : Bytes)
  /-- A fabric message sent towards a module (08 R251). -/
  | msg (dst : Nat) (m : Msg)
  /-- A management message of VC2 (08, 14): opcode, destination (or a port when it has no module number), fields. -/
  | mgmt (opcode dst : Nat) (fields : List Nat) (data : Bytes)
  /-- A read or write of a tray through TP0 (12 R414), at an address under the tray's HDM decoder (08 R272). -/
  | trayRead (tag addr : Nat)
  | trayWrite (addr : Nat) (data : Bytes)
  /-- The completion of a read of a register (19 R594): function, offset, value. -/
  | regData (fn : Func) (off val : Nat)
  /-- The response to a phase of global persistent flush (12 R392). -/
  | gpf (link phase : Nat)
  /-- A DOE response (14 R502): object code and bytes; code 0x7F is ERROR. -/
  | spdm (link code : Nat) (data : Bytes)
  deriving DecidableEq, Repr

/-- One event record (13 R428): handle, code, payload bytes 8 to 79 and timestamp. -/
structure Rec where
  handle : Nat
  code : Nat
  payload : Bytes
  time : Nat
  deriving DecidableEq, Repr

/-- One event log (13 R429). -/
structure Log where
  recs : List Rec := []
  overflow : Nat := 0
  firstOverflow : Nat := 0
  lastOverflow : Nat := 0
  next : Nat := 1
  deriving DecidableEq, Repr

/-! ## Host ports and functions (12, 19) -/

/-- One HDM decoder of a link (12 R391), as CXL lays it out (PRESUMED, log 9): base and size of the host's range, DPA skip, and the
control word with granularity [3:0], ways [7:4], Lock On Commit [8], Commit [9], Committed [10] and Error [11]. -/
structure HdmDec where
  base : Nat := 0
  size : Nat := 0
  skip : Nat := 0
  ctl : Nat := 0
  deriving DecidableEq, Repr

/-- One link: port `p`, half `h`, number `2p + h` (12 R384, R404, R418). `link` is LINK: 0 DISABLED, 1 TRAINING,
2 UP, 3 DOWN. -/
structure Port where
  link : Nat := 0
  cxlGen : Nat := 0
  speed : Nat := 0
  width : Nat := 0
  noRefclk : Bool := false
  biEnabled : Bool := false
  frozen : Bool := false
  freezeCause : Nat := 0
  viralEnable : Bool := false
  /-- POISON_STORM as written, and the value in force this millisecond (R418). -/
  storm : Nat := 0x3E8
  stormNow : Nat := 0x3E8
  poisonCount : Nat := 0
  countMs : Nat := 0
  poisonSent : BitVec 16 := 0
  poisonRecv : BitVec 16 := 0
  discarded : BitVec 16 := 0
  freezes : BitVec 8 := 0
  linkDowns : BitVec 8 := 0
  /-- Requests discarded since the freeze (R408). -/
  frozenDiscarded : Nat := 0
  /-- Fundamental reset asserted (PERST_N of the port). -/
  perst : Bool := false
  /-- A PORT_RELEASE with LINK_RESET that waits for the retrain (R407). -/
  releasing : Option Iface := none
  /-- The link signals memory active (15 R509), and the static range offered (R389): base and length. -/
  memActive : Bool := false
  static : Option (Nat × Nat) := none
  hdm : Tab HdmDec := []
  /-- AER Uncorrectable Error Status of PF0 and the advisory non-fatal bit (R412). -/
  aerUncor : Nat := 0
  aerAdvisory : Bool := false
  /-- The port failed self-test and stays DISABLED until module reset (18 R580). -/
  failed : Bool := false
  deriving DecidableEq, Repr

/-- One MSI-X table entry (12 R399, 19 R591). -/
structure Vec where
  masked : Bool := true
  addr : Nat := 0
  data : Nat := 0
  pending : Bool := false
  deriving DecidableEq, Repr

/-- Snapshot of a cursor latched by CUR_SEL (04 R133): POS, STEP, EST, ENTRY, CNT register values. -/
structure CurSnap where
  pos : Nat := 0
  step : Nat := 0
  est : Nat := 0
  entry : Nat := 0
  cnt : Nat := 0
  deriving DecidableEq, Repr

/-- One function: PF0 of a link, PF1 of a port or the VF of a tenant (12 R393). -/
structure Fn where
  vecs : Tab Vec := []
  msixEnable : Bool := false
  fmask : Bool := false
  d3hot : Bool := false
  /-- PF1: NumVFs and VF Enable. -/
  numVfs : Nat := 0
  vfEnable : Bool := false
  /-- PF0: interrupt policy of the four logs, true for MSI-X (13 R401). -/
  policy : List Bool := [false, false, false, false]
  /-- Selector copies (19 R598): per slice for the slice selectors. -/
  curSel : Nat := 0
  curSnap : Option CurSnap := none
  classSel : Nat := 0
  slotSel : Tab Nat := []
  drcSel : Tab Nat := []
  trainSel : Tab Nat := []
  /-- The half latch (19 R594): offset of the latched part and its bytes. -/
  latch : Option (Nat × Bytes) := none
  /-- ENG_ARITH_STICKY (02 R71). -/
  sticky : BitVec 32 := 0
  deriving DecidableEq, Repr

/-! ## Command interfaces and presence (13) -/

/-- A background operation of an interface: opcode and what it names. -/
structure Bg where
  opcode : Nat
  args : List Nat := []
  deriving DecidableEq, Repr

/-- One command interface: PF0 of links 0-7, PF1 of ports 8-11, MCTP 12 (13 R419). -/
structure IfaceSt where
  ret : Ret := .success
  opcode : Nat := 0
  payload : Bytes := []
  bg : Option Bg := none
  /-- The last background operation that ended: opcode and return code. -/
  lastBg : Option (Nat × Ret) := none
  /-- The attestation report kept (R449): nonce and report. -/
  report : Option (Bytes × Bytes) := none
  deriving DecidableEq, Repr

/-- A presence event (13 R459): event, source, opcode and TBC. -/
structure PresEvent where
  event : Nat
  source : Nat
  opcode : Nat
  tbc : Nat
  deriving DecidableEq, Repr

/-- Mailboxes, event logs and physical presence. -/
structure Mbx where
  iface : Tab IfaceSt := []
  /-- Commands held while a handover pauses them, or while the package master changes (R423), oldest first. -/
  held : List Instr := []
  logs : Tab Log := []
  /-- Last time of each limited record and the records withheld since (00 R603). -/
  limits : Tab (Nat × Nat) := []
  /-- Set Timestamp: the time set and the TBC at which it was set. -/
  timestamp : Option (Nat × Nat) := none
  /-- Set Timestamp has run since the module last started (R429). -/
  stampSet : Bool := false
  /-- Lines that Inject Poison has recorded (R430). -/
  injected : List Nat := []
  eid : Nat := 0
  /-- Button: TBC at which it was pressed, whether the hold has qualified, and the end of the button window. -/
  buttonDown : Option Nat := none
  holdDone : Bool := false
  windowEnd : Option Nat := none
  jumper : Bool := false
  /-- J-SVC was fitted when 48 V was applied (R500 FLAGS). -/
  jumperSample : Bool := false
  sealOpen : Bool := false
  history : List PresEvent := []
  authorised : BitVec 16 := 0
  debugOpen : Nat := 0
  deriving DecidableEq, Repr

/-! ## Part and configuration block (00, 01, 14 R470) -/

/-- The part and its configuration block, fixed between module resets. -/
structure Cfg where
  /-- Fitted slices: 2, 4 or 8 (00 R4). -/
  slices : Nat := 8
  /-- Half T2 population (00 R5). -/
  half : Bool := false
  vfBase : List Nat := [0, 256, 512, 768]
  vfCount : List Nat := [256, 256, 256, 256]
  /-- Split host ports, one bit a port; FM_LINKS; MCTP_SMBUS and MCTP_I3C. -/
  portSplit : Nat := 0
  fmLinks : Nat := 0x55
  mctp : Nat := 1
  sliceGrain : Nat := 30
  t1Grain : Nat := 8
  t2Grain : Nat := 8
  /-- Bits 0 T1_CH_HASH, 1 T2_CH_HASH, 2 T1_BANK_XOR, 3 T2_BANK_XOR. -/
  mapFlags : Nat := 15
  /-- Spare pseudo-channel of each stack (10 R311). -/
  sparePc : List Nat := List.replicate 24 31
  /-- Map-region size in 4 B words a slice, and program region in MiB (06 R174, 03 R79). -/
  mapWords : Nat := 2 ^ 26
  programMib : Nat := 64
  /-- Device reserve and floor in basis points of available T2, and RESERVE_TENANT_PCT (06 R199). -/
  reserveBp : Nat := 200
  floorBp : Nat := 50
  reserveTenantPct : Nat := 50
  /-- Sizes of the Dynamic Capacity regions of each link, in MiB (12 R391). -/
  dcRegionMib : List Nat := []
  /-- Settings for identity: serial number. -/
  serial : Bytes := List.replicate 16 0x30
  deriving DecidableEq, Repr

/-! ## Blocks, homes, pages, extents (05, 06, 11) -/

/-- A stored block: its header fields and payload (05 R135, R136). The parity is computed from them. -/
structure Block where
  coder : Nat
  strength : Nat
  fmt : Nat := 0
  typed : Bool := false
  kind : Nat
  slot : Nat := 0
  gen : Nat := 0
  sectors : Nat
  logical : Nat
  payload : Bytes
  check : Nat
  deriving DecidableEq, Repr

/-- The home of a datum (01 R22): tier 1-4, media address (or address in the window or tray `unit`), the logical units
skipped when it was placed (10 R314, R338), and its block, none for an uncompressed T1 page. -/
structure Home where
  tier : Nat
  ma : Nat
  unit : Nat := 0
  skips : List Nat := []
  blk : Option Block := none
  deriving DecidableEq, Repr

/-- Page-map and heat entry of a page or item (06 R174, 11 R362). `movedAt` is the decay period of its last move. -/
structure Ent where
  home : Option Home := none
  heat : Nat := 0
  epoch : Nat := 0
  heavy : Nat := 0
  any : Nat := 0
  poisoned : Bool := false
  movedAt : Option Nat := none
  /-- The home has been read uncorrectable and has not been replaced since (11 R365). -/
  bad : Bool := false
  deriving DecidableEq, Repr

/-- A pool page of an added extent: its entry, poison mask (11 R354) and publish record (07 R230). -/
structure Page where
  ent : Ent := {}
  poison : BitVec 64 := 0
  pubWriter : Nat := 0
  pubValid : Bool := false
  pubCount : Nat := 0
  deriving DecidableEq, Repr

/-- An extent policy (06 R178). -/
structure Policy where
  placement : Nat := 2
  remoteOk : Bool := false
  sharing : Nat := 0
  assured : Nat := 0
  strength : Nat := 2
  deriving DecidableEq, Repr

/-- A pool extent (06 R175). `t2Part`, `t3Part`, `t4Part` are the parts of its reservation (R181) in bytes; `drawn` the
overrun sectors drawn for it on each slice (R200). -/
structure Extent where
  len : Nat
  hosts : List Nat
  tag : Nat
  owner : Nat
  policy : Policy := {}
  accepted : List Nat := []
  region : Option Nat := none
  t2Part : Nat := 0
  t3Part : Nat := 0
  t4Part : Nat := 0
  drawn : Tab Nat := []
  deriving DecidableEq, Repr

/-- A write on its way to a home. `be` is the byte-enable mask, all ones for a full-line write; `link` is none for a
write of the module itself. -/
structure WReq where
  link : Option Nat
  pbr : Option Nat
  host : Nat
  line : Nat
  data : Bytes
  be : Nat
  poison : Bool
  arrival : Nat
  cls : Nat
  /-- True when the write has already completed to its host. -/
  done : Bool := false
  deriving DecidableEq, Repr

/-- A read that waits behind a held write, a move, a recall or a freeze. -/
structure RReq where
  link : Nat
  pbr : Option Nat
  host : Nat
  dpa : Nat
  /-- MetaValue granted in the response: 0 none, 1 S, 2 E, 3 I. -/
  grant : Nat := 0
  arrival : Nat
  /-- The class label with which it arrived (09 R281, R282). -/
  cls : Nat := 0
  deriving DecidableEq, Repr

/-- A move under way (01 R22, 06 R188-R194). `kind`: 0 promotion by heat, 1 demotion by heat, 2 tripped home, 3 segment
evacuation, 4 re-code, 5 rebuild, 6 staging promotion, 7 paired demotion, 8 overrun relief, 9 window or tray drain,
10 quota victim. -/
structure Move where
  item : Item
  dest : Home
  kind : Nat
  began : Nat
  firstHeld : Option Nat := none
  held : List WReq := []
  cursor : Option Nat := none
  /-- The item whose promotion a paired demotion makes room for (04 R119, R126). -/
  pair : Option Item := none
  deriving DecidableEq, Repr

/-- A Loupe cache copy (06 R195, 09 R289): set and way are given by the page and the order of use. -/
structure Copy where
  page : Nat
  cls : Nat
  used : Nat
  deriving DecidableEq, Repr

/-- The quota record of a tenant, in MiB and ms (06 Quotas). -/
structure Quota where
  t1 : Nat := 0
  t2 : Nat := 0
  t3 : Nat := 0
  t4 : Nat := 0
  overflow : Nat := 0
  holdLimit : Nat := 50
  policy : Policy := {}
  deriving DecidableEq, Repr

/-- What a tenant draws on a slice, in sectors, and the stages recorded (06 R200, R206). -/
structure Draw where
  overflow : Nat := 0
  reserve : Nat := 0
  stageReserve : Bool := false
  poisoned : Nat := 0
  lastExtent : Nat := 0
  deriving DecidableEq, Repr

/-- Per-slice migration state and its registers (06). -/
structure MigSlice where
  sampleK : Nat := 8
  decayMs : Nat := 100
  sampleKNext : Nat := 8
  decayMsNext : Nat := 100
  /-- Decay periods elapsed; EPOCH is its low 4 bits. -/
  periods : Nat := 0
  lastEpoch : Nat := 0
  promoteHeat : Nat := 8
  demoteHeat : Nat := 1
  minResidence : Nat := 2
  migRate : Nat := 16
  migEnable : Bool := true
  t1High : Nat := 0x5A
  t1Low : Nat := 0x55
  promotions : BitVec 16 := 0
  demotions : BitVec 16 := 0
  cancelled : BitVec 16 := 0
  heldWrites : BitVec 16 := 0
  lpeEnable : Bool := true
  lpeFill : Nat := 7
  hits : BitVec 16 := 0
  misses : BitVec 16 := 0
  fills : BitVec 16 := 0
  invalidations : BitVec 16 := 0
  /-- The slice's shares of the device reserve and floor in MiB (R199). -/
  reserveMib : Nat := 0
  floorMib : Nat := 0
  deriving DecidableEq, Repr

/-- Pool memory, extents and migration. -/
structure Pool where
  /-- Logical bytes of pool memory by DPA; an unlisted address reads 0 (06 R172). -/
  mem : List Host.Cell := []
  extents : Tab Extent := []
  pages : Tab Page := []
  moves : List Move := []
  /-- Writes entered at the Condensers, oldest first (05 R150). -/
  coding : List WReq := []
  /-- Writes held for capacity, oldest first (06 R201). -/
  held : List WReq := []
  /-- Reads that wait behind held writes (R194, R201) or for a fabric or tray read, oldest first. -/
  waiting : List RReq := []
  /-- Writes whose block is on its way to T3, by page (08 R253). -/
  far : List (Nat × WReq) := []
  /-- Tenants whose T1 charge has exceeded T1_HIGH_PCT and not yet fallen below T1_LOW_PCT (R189). -/
  draining : List Nat := []
  loupe : List Copy := []
  /-- Loupe fills in progress: page and class; each was begun by a read under the LPE_CTL of that time (06 R196, R207). -/
  fills : List (Nat × Nat) := []
  /-- Extents whose release waits for a cursor (R112, R177): base, interface and opcode of the command. -/
  releasing : List (Nat × Iface × Nat) := []
  quotas : Tab Quota := []
  draws : Tab Draw := []
  mig : Tab MigSlice := []
  deriving DecidableEq, Repr

/-! ## Table slots (05) -/

/-- A decoding table (05 R146). -/
structure TansTable where
  log : Nat
  ctxs : Nat
  count0 : List Nat
  count1 : List Nat
  deriving DecidableEq, Repr

/-- A table slot (05 R157). State: 0 EMPTY, 1 LOADING, 2 ACTIVE, 3 RETIRING. `pendingClass` is the encode class that
takes the slot once it is ACTIVE (R159). -/
structure TSlot where
  state : Nat := 0
  gen : Nat := 0
  table : Option TansTable := none
  model : Option Nat := none
  recoding : Bool := false
  pendingClass : Option Nat := none
  deriving DecidableEq, Repr

/-- Condensers, table slots and decoder errors of a slice (05). -/
structure Cnd where
  slots : Tab TSlot := []
  encSel : Tab Nat := []
  zeroBlocks : BitVec 16 := 0
  zrunBlocks : BitVec 16 := 0
  tansBlocks : BitVec 16 := 0
  rawBlocks : BitVec 16 := 0
  verifyFail : Bool := false
  verifyCount : BitVec 16 := 0
  /-- EYE_ERR bits 0 SHORT, 1 LONG, 2 CHECK, 3 HEADER, 4 GENERATION. -/
  eyeErr : BitVec 5 := 0
  eyeCount : BitVec 16 := 0
  deriving DecidableEq, Repr

/-- A TABLE_LOAD that waits for its slots (05 R158): interface and (slice, slot, generation) of each. -/
structure TabLoad where
  via : Iface
  slots : List (Nat × Nat × Nat)
  deriving DecidableEq, Repr

/-! ## Directory and publish (07) -/

/-- A request waiting at the directory (07 R214). `cls`: 0 RD_S, 1 RD_E, 2 RD_I, 3 WR, 4 a recall for an eviction only,
5 a recall for a sharing-mode change. -/
structure DReq where
  cls : Nat
  link : Option Nat
  pbr : Option Nat
  host : Nat
  line : Nat
  data : Bytes := []
  be : Nat := 0
  poison : Bool := false
  arrival : Nat
  /-- The class label with which it arrived (09 R281, R282), and the symbols in error on the media of the line that it reads. -/
  qcls : Nat := 0
  flips : List Flip := []
  deriving DecidableEq, Repr

/-- A directory entry (07 R212). State 1 S, 2 E, 3 RECALL, 4 ORPHAN. In RECALL: the prior state, targets, snoop kind
(0 Inv, 1 Data, 2 Cur), issue time, limit in ms, cause (R223) and the request it serves. -/
structure DEnt where
  state : Nat
  owner : Nat := 0
  sharers : List Nat := []
  coarse : Bool := false
  age : Nat := 0
  prior : Nat := 0
  targets : List Nat := []
  snoop : Nat := 0
  issued : Nat := 0
  limitMs : Nat := 10
  cause : Nat := 0
  /-- The line whose request needs this entry's way (R218). -/
  req : Option DReq := none
  gotI : Bool := false
  deriving DecidableEq, Repr

/-- A publish region (07 R230): version, publish counts by host, pending conflicts (page, g, h, TBC). -/
structure Region where
  tag : Nat
  version : Nat := 0
  counts : Tab Nat := []
  conflicts : List (Nat × Nat × Nat × Nat) := []
  overflow : Bool := false
  deriving DecidableEq, Repr

/-- A doorbell slot (07 R238). -/
structure PubSlot where
  busy : Bool := false
  result : Nat := 0
  conflict : Bool := false
  overrun : Bool := false
  conflicts : Nat := 0
  version : Nat := 0
  deriving DecidableEq, Repr

/-- A publish whose fence runs (07 R232): host, region, the mailbox that asked (none for the doorbell), arrival. -/
structure Pub where
  host : Nat
  region : Nat
  via : Option Iface
  arrival : Nat
  deriving DecidableEq, Repr

/-- Per-slice directory registers (07). -/
structure DirSlice where
  recallMs : Nat := 10
  recalls : BitVec 16 := 0
  evictions : BitVec 16 := 0
  timeouts : BitVec 16 := 0
  uncached : BitVec 16 := 0
  orphanWb : BitVec 16 := 0
  lateBirsp : BitVec 16 := 0
  fenceDrops : BitVec 16 := 0
  partialPoison : BitVec 16 := 0
  excludedRows : List Nat := []
  deriving DecidableEq, Repr

/-- A HOST_LOST sweep (07 R225). -/
structure Sweep where
  host : Nat
  started : Nat
  recallsEnded : Nat
  deriving DecidableEq, Repr

/-- The directories, regions and fences. -/
structure Dir where
  /-- Entries by line number (DPA / 64). -/
  ents : Tab DEnt := []
  /-- Requests waiting for a line in RECALL, oldest first. -/
  waiting : List DReq := []
  regs : Tab DirSlice := []
  fenced : List Nat := []
  sweep : Option Sweep := none
  regions : Tab Region := []
  slots : Tab PubSlot := []
  publishes : List Pub := []
  /-- A sharing change that waits for recalls (R229): extent base and the new policy. -/
  change : Option (Nat × Policy) := none
  ages : Nat := 0
  deriving DecidableEq, Repr

/-! ## Tenants, classes and shares (09) -/

/-- A host record (09 R279) and its bucket (R291): tokens in thousandths of a byte at TBC `tokensAt`, the requests it holds, at
most 64, each with the class and under the LIMIT_MBPS it arrived with, and those that wait behind them in the port's receive
buffer. -/
structure HostRec where
  port : Nat
  direct : Bool := false
  tenant : Nat
  cls : Nat
  limit : Nat := 0
  burst : Nat := 4
  tokens : Nat := 0
  tokensAt : Nat := 0
  emptySince : Option Nat := none
  held : List (Instr × Nat × Nat) := []
  recv : List Instr := []
  /-- Held requests let go by a refill and not yet carried out, by class, oldest first; their 64 B are taken. -/
  granted : List Nat := []
  deriving DecidableEq, Repr

/-- A class record (09). -/
structure ClassRec where
  t1Floor : Nat := 0
  t2Floor : Nat := 0
  qMin : Nat := 0
  minWays : Nat := 0
  t1Ceil : Nat := 0xFFFFFFFF
  t2Ceil : Nat := 0xFFFFFFFF
  weight : Nat := 16
  qMax : Nat := 16
  maxWays : Nat := 16
  deriving DecidableEq, Repr

/-- Class and T0_SHARE in MiB (09 R283, R290). -/
structure TenantQos where
  cls : Nat := 0
  t0Mib : Nat := 0
  deriving DecidableEq, Repr

/-- Tenants, hosts and classes. -/
structure Qos where
  hosts : Tab HostRec := []
  classes : Tab ClassRec := []
  tenants : Tab TenantQos := []
  /-- QOS_CTL: SYS_CLASS, LIGHT_PCT, MOD_PCT, SEVERE_PCT. -/
  sysClass : Nat := 0
  light : Nat := 0x19
  mod : Nat := 0x4B
  severe : Nat := 0x5F
  /-- Scale factors by slice: T1, T2, and the T0 factor in 1/1,024 (R298, R290). -/
  scale : Tab (Nat × Nat × Nat) := []
  /-- Bytes moved by slice, tier and class in the last 10 microseconds: TBC and bytes of each access, oldest first. -/
  use : Tab (List (Nat × Nat)) := []
  unassigned : BitVec 16 := 0
  outOfExtent : BitVec 16 := 0
  bucketHolds : BitVec 16 := 0
  fillSkips : BitVec 16 := 0
  deriving DecidableEq, Repr

/-! ## DRAM controllers (10) -/

/-- A queued media access: its number in order of arrival, bank, row, local address, write, class, arrival and the pool line. -/
structure QEnt where
  id : Nat := 0
  bank : Nat
  row : Nat
  laddr : Nat
  write : Bool
  cls : Nat
  arrival : Nat
  /-- The DPA of the line and the link whose completed write it is. -/
  line : Option Nat := none
  link : Option Nat := none
  pbr : Option Nat := none
  /-- The host access that it is part of. -/
  job : Option Nat := none
  deriving DecidableEq, Repr

/-- A host access at the controllers. A read is answered with `data`, none for poison, once its last entry is issued; a write
completes once its last entry has entered a bank queue (10 R317). `left` counts the entries still to go. -/
structure Job where
  left : Nat
  tier : Nat
  read : Option RReq := none
  data : Option Bytes := none
  write : Option WReq := none
  deriving DecidableEq, Repr

/-- A command issued by a controller: TBC, command (0 ACT, 1 RD, 2 WR, 3 PRE, 4 REF, 5 RFM, 6 SRE, 7 SRX; log 12), bank and row. -/
structure DCmd where
  tbc : Nat
  cmd : Nat
  bank : Nat
  row : Nat
  deriving DecidableEq, Repr

/-- The snapshot of a frozen controller (10 R336, 13 R451). -/
structure Snap where
  header : Bytes
  openRows : Tab Nat
  inOrder : Tab Nat
  queue : List QEnt
  cmds : List DCmd
  lanes : List Lane
  /-- AGE_CAP as it stood at the freeze. -/
  cap : Nat
  at_ : Nat
  deriving DecidableEq, Repr

/-- A controller (10 R307). State: 0 ABSENT, 1 TRAINING, 2 IN_SERVICE, 3 FROZEN, 4 RETIRED, 5 SPARE; `override` is none
where the state follows from the part and the remap table alone. -/
structure Chan where
  override : Option Nat := none
  freezeCause : Nat := 0
  drain : Bool := false
  /-- Banks in in-order mode, each with the number of the write that ends it (R320). -/
  inOrder : Tab Nat := []
  queue : List QEnt := []
  openRows : Tab Nat := []
  lastAccess : Tab Nat := []
  lastBank : Nat := 0
  /-- Marked banks: activates since the mark and TBC of the mark (R326). -/
  marks : Tab (Nat × Nat) := []
  /-- The 32-bit linear feedback generator as it stands after its last draw, and the activates by bank whose draw is yet to
  come (R326). -/
  lfsr : BitVec 32 := 1
  draws : Tab Nat := []
  acts : Nat := 0
  rfmRand : BitVec 16 := 0
  inOrderEntries : BitVec 16 := 0
  freezes : BitVec 16 := 0
  frozenAt : Option Nat := none
  /-- 100 us after the freeze have passed (R336). -/
  poisoning : Bool := false
  snap : Option Snap := none
  lanes : List Lane := []
  thawing : Option Iface := none
  selfRefresh : Bool := false
  /-- Activates since the last refresh management the standard requires (R327). -/
  raa : Tab Nat := []
  /-- Refreshes postponed by bank, and the TBC at which each bank's next refresh is due (R322). -/
  postponed : Tab Nat := []
  refAt : Tab Nat := []
  /-- TBC of the last drift tracking (R333). -/
  lastTrack : Nat := 0
  /-- SR_IDLE_US as it stood when the present idle period began (17 R573). -/
  srIdle : Nat := 0x32
  cmds : List DCmd := []
  deriving DecidableEq, Repr

/-- Per-slice DRAM registers and thermal state (10). -/
structure DrcSlice where
  lock : Bool := false
  idle1 : Nat := 0x20
  wrHigh1 : Nat := 0x40
  wrLow1 : Nat := 0x10
  age1 : Nat := 4
  idle2 : Nat := 0x20
  wrHigh2 : Nat := 0x40
  wrLow2 : Nat := 0x10
  age2 : Nat := 4
  tempPollMs : Nat := 1
  lastPoll : Nat := 0
  rfmK : Nat := 10
  t1Doubled : Nat := 0
  t2Doubled : Nat := 0
  t2Over : Nat := 0
  cool1 : Tab Nat := []
  /-- MR4 rate code of each channel, four to a package: required rate in multiples of the 1x rate (R323). -/
  mr4 : List Nat := []
  freezeLimit : Nat := 1000
  keep : Nat := 0xFF
  evac : Nat := 0
  result : Nat := 0
  /-- TBC of the last write of DRC_PASR_CMD, while which its command runs (log 35). -/
  busyAt : Option Nat := none
  deriving DecidableEq, Repr

/-- The two copies of a slice's map region, as logical units of T1 on different stacks (R316; log 95). A copy whose bit of `stale`
is set (bit 0 the first) has missed a write while its controller was frozen or has lost its unit. -/
structure MapCopies where
  unit0 : Nat := 30
  unit1 : Nat := 61
  stale : Nat := 0
  deriving DecidableEq, Repr

/-- DRAM controllers. -/
structure Drc where
  chans : Tab Chan := []
  /-- The ingress queues: controller key and request, in arrival order (09 R288). -/
  ingress : List (Nat × QEnt) := []
  jobs : Tab Job := []
  nextJob : Nat := 0
  nextEnt : Nat := 0
  maps : Tab MapCopies := []
  regs : Tab DrcSlice := []
  /-- Logical units moved off their default physical controller, and logical units retired, by key (R311, R314). -/
  remap : Tab Ctl := []
  retired : List Nat := []
  /-- Reads that wait at a frozen controller (R336): controller key, read. -/
  waitReads : List (Nat × RReq) := []
  /-- Writes that wait at a frozen controller. -/
  waitWrites : List (Nat × WReq) := []
  deriving DecidableEq, Repr

/-! ## Integrity (11) -/

/-- A suspect entry (11 R365): tier, start MA and length. -/
structure Suspect where
  tier : Nat
  ma : Nat
  len : Nat
  deriving DecidableEq, Repr

/-- A scrub (11 R369-R371). -/
structure Scrub where
  num : Nat
  scope : Nat
  mask : Nat := 0
  tier : Nat := 0
  handle : Nat := 0
  start : Nat := 0
  len : Nat := 0
  state : Nat := 0
  visited : List Item := []
  total : Nat := 0
  read : Nat := 0
  symbols : Nat := 0
  tripped : Nat := 0
  uncorrectable : Nat := 0
  moved : Nat := 0
  notRead : Nat := 0
  deriving DecidableEq, Repr

/-- A rebuild (11 R376-R382). `kind`: 0 pseudo-channel, 1 stack, 2 LPDDR5X channel, 3 package. -/
structure Rebuild where
  kind : Nat
  unit : Nat
  source : Nat
  bytes : Nat
  done : Nat := 0
  lost : Nat := 0
  group : Nat := 0
  /-- The logical units whose content is rebuilt. -/
  units : List Nat := []
  running : Bool := false
  deriving DecidableEq, Repr

/-- Per-slice integrity state and registers (11). -/
structure EccSlice where
  heavyLimit : Nat := 3
  anyLimit : Nat := 8
  scrubGbps : Nat := 8
  rebuildT1 : Nat := 0x180
  rebuildT2 : Nat := 0x17
  retireLimit : Nat := 0x200
  corrected : BitVec 16 := 0
  uncorrectable : BitVec 16 := 0
  tallyMoves : BitVec 16 := 0
  retiredUnits : BitVec 16 := 0
  suspects : List Suspect := []
  /-- Retired units: (tier, MA / 256), newest first; `saved` is the list in flash. -/
  retire : List (Nat × Nat) := []
  saved : List (Nat × Nat) := []
  savePending : Bool := false
  lastSave : Option Nat := none
  rebuilds : List Rebuild := []
  degraded : Nat := 0
  failedStacks : List Nat := []
  /-- Writes that wait for a stripe to be rebuilt (R377). -/
  waitWrites : List WReq := []
  deriving DecidableEq, Repr

/-- Integrity. -/
structure Ecc where
  regs : Tab EccSlice := []
  scrubs : List Scrub := []
  nextScrub : Nat := 1
  deriving DecidableEq, Repr

/-! ## Engine: models, sequences, steps, cursors (02, 03, 04) -/

/-- A tensor descriptor (03 R76). -/
structure Tensor where
  layer : Nat
  tensor : Nat
  fmt : Nat
  scale : Nat
  shard : Nat
  nBlocks : Nat
  kBlocks : Nat
  experts : Nat
  mask : Nat
  deriving DecidableEq, Repr

/-- A stored tile: its tile-directory entry (03 R77), entry and version. -/
structure Tile where
  layer : Nat
  tensor : Nat
  expert : Nat
  n : Nat
  k : Nat
  slice : Nat
  place : Nat
  remoteOk : Bool
  strength : Nat
  ent : Ent := {}
  version : Nat := 0
  deriving DecidableEq, Repr

/-- An op descriptor (03 R82). -/
structure OpDesc where
  opcode : Nat
  stochastic : Bool
  routed : Bool
  combine : Bool
  fmt0 : Nat
  fmt1 : Nat
  dfmt : Nat
  scale0 : Nat
  scale1 : Nat
  dscale : Nat
  sub : Nat
  src0 : Nat
  src1 : Nat
  dst : Nat
  length : Nat
  param0 : Nat
  param1 : Nat
  deriving DecidableEq, Repr

/-- A layer: header, ops and constant vectors (03 R81). Marks are 0xFFFF when none. -/
structure Layer where
  ops : List OpDesc
  attn : Nat
  ffn : Nat
  post : Nat
  inRec : Nat
  outRec : Nat
  vecs : Bytes
  t0Work : List Nat
  t0Pre : List Nat
  deriving DecidableEq, Repr

/-- A loaded model (03 R75-R83). `bound` lists (slice, image-local table, slot); `lead` is the lead of its load. -/
structure Model where
  tenant : Nat
  maxSeq : Nat
  maxCtx : Nat
  kvHeads : Nat
  headDim : Nat
  kvFmt : Nat
  kvSplit : Nat
  kvStrength : Nat
  qPerKv : Nat
  hidden : Nat
  tensors : List Tensor
  tiles : List Tile
  layers : List Layer
  bound : List (Nat × Nat × Nat)
  lead : Nat
  programBytes : Nat
  /-- KV reservation in bytes charged to T1 and to T2 (R99, R183). -/
  kvT1 : Nat
  kvT2 : Nat
  unloading : Option Iface := none
  /-- Slices whose shards are lost (15 R525). -/
  lost : Nat := 0
  deriving DecidableEq, Repr

/-- A load that runs (13 R434): the model that it will install, its report and the range it reads. -/
structure Load where
  via : Iface
  tenant : Nat
  tag : Nat
  model : Model
  fit : Bytes
  src : Nat × Nat
  deriving DecidableEq, Repr

/-- A kept outcome of a load (13 R436). -/
structure LoadOutcome where
  tag : Nat
  ret : Ret
  handle : Nat
  fit : Bytes
  deriving DecidableEq, Repr

/-- A KV block: layer, KV head, index, logical content and entry (03 R75). -/
structure KvBlk where
  layer : Nat
  head : Nat
  blk : Nat
  slice : Nat
  data : Bytes
  ent : Ent := {}
  deriving DecidableEq, Repr

/-- An ACTIVATION block (05 R136, 06 R171): 4 KiB of a scratch buffer of a slice that the engine has spilled to T2. The buffer's
bytes stay in `Seq.scratch`; the block is a home of them. -/
structure ActBlk where
  slice : Nat
  buf : Nat
  blk : Nat
  ent : Ent := {}
  deriving DecidableEq, Repr

/-- An open sequence slot (03 R83, R86). Scratch is keyed by slice * 16 + index, the residual by slice, routing by
slice * 4 + index with (expert, FP32 weight) pairs; a missing entry is all-zero bytes (R606). -/
structure Seq where
  tenant : Nat
  handle : Nat
  tokens : Nat := 0
  scratch : Tab Bytes := []
  residual : Tab Bytes := []
  routing : Tab (List (Nat × Nat)) := []
  /-- Slices that hold each scratch buffer, as a mask by index (03 R84). -/
  placed : Tab Nat := []
  kv : List KvBlk := []
  /-- ACTIVATION blocks: the scratch buffers that are spilled (log 93). -/
  acts : List ActBlk := []
  /-- Rows and their stride in bytes of each scratch buffer that an op wrote (03 R606): one row where there is none. -/
  rows : Tab (Nat × Nat) := []
  /-- Buffers that hold poisoned values: bits 0-15 scratch, 16 the residual, 17-20 routing. -/
  taint : Nat := 0
  deriving DecidableEq, Repr

/-- A step descriptor (03 R91). -/
structure Desc where
  type : Nat
  flags : Nat
  cmdId : Nat
  model : Nat
  first : Nat
  last : Nat
  res0 : Nat
  tag : Nat
  seqs : Nat
  seed : Nat
  inOff : Nat
  outOff : Nat
  outBytes : Nat
  res1 : Nat
  deriving DecidableEq, Repr

/-- Output that a step will write (03 R85, R96): offset in the cursor extent, bytes, poisoned. -/
structure OutRec where
  seq : Nat
  off : Nat
  data : Bytes
  deriving DecidableEq, Repr

/-- A consumed step. `phase`: 0 waiting, 1 running, 2 stalled, 3 ended (its entry pending). -/
structure StepSt where
  cursor : Nat
  queue : Nat
  tenant : Nat
  desc : Desc
  sqHead : Nat
  phase : Nat := 0
  layer : Nat := 0
  op : Nat := 0
  ready : Bool := false
  arith : Nat := 0
  conds : Nat := 0
  detail : Nat := 0
  lastDone : Nat := 0xFFFF
  stallUs : Nat := 0
  stallAt : Option Nat := none
  missing : List (Item × Nat) := []
  missTiles : Nat := 0
  missKv : Nat := 0
  missSlice : Nat := 0
  missCause : Nat := 0
  everRan : Bool := false
  /-- The named sequences as they stood at admission (R128). -/
  before : Tab Seq := []
  outBuf : List OutRec := []
  outBytes : Nat := 0
  poisonW : Bool := false
  poisonSeqs : List Nat := []
  /-- The tile-version clock at admission (R97). -/
  admitted : Nat := 0
  /-- Slots that this step opened (R86). -/
  opened : List Nat := []
  /-- Ended by a reset of its tenant, which has cleared ENG_ARITH_STICKY: its completion sets no flag there (15 R526). -/
  quiet : Bool := false
  deriving DecidableEq, Repr

/-- A queue of a bound cursor (03 R89-R95). -/
structure Queue where
  sq : Nat
  cq : Nat
  ctrl : Nat
  depth : Nat
  head : Nat := 0
  tail : Nat := 0
  ring : Nat := 0
  phase : Bool := true
  /-- Head that host software last reported (R95), and entries written that it has not yet read. -/
  hostHead : Nat := 0
  unread : Nat := 0
  /-- TBC of the last doorbell that moved the tail (R93). -/
  rungAt : Nat := 0
  deriving DecidableEq, Repr

/-- A bound cursor (04 R102-R134). State 0 COLD, 1 HINTED, 2 WARM. -/
structure Cursor where
  tenant : Nat
  extent : Nat
  lineOff : Nat
  model : Nat
  cls : Nat
  lead : Nat
  lateLimit : Nat
  budgetMs : Nat
  guardUs : Nat
  shift : Nat
  horizon : Nat
  lateIrq : Bool
  queues : Tab Queue
  step : Nat := 0
  layer : Nat := 0
  phase : Nat := 0
  est : Nat := 0
  gap : Nat := 0
  estOk : Bool := false
  gapOk : Bool := false
  state : Nat := 0
  skip : Bool := false
  paused : Bool := false
  entry : Nat := 0
  seqs : Nat := 0
  stepChanged : Nat := 0
  flags : BitVec 6 := 0
  lateSteps : BitVec 16 := 0
  abortSteps : BitVec 16 := 0
  ignored : BitVec 16 := 0
  misses : BitVec 16 := 0
  /-- Ordinals whose deadline has been counted as missed. -/
  missed : List Nat := []
  unbinding : Option Iface := none
  unbound : Bool := false
  /-- Experts that ROUTE selected: layer, expert, the cursor's STEP then, and the running step that selected it. -/
  routed : List (Nat × Nat × Nat × Nat) := []
  /-- The ordinal up to whose horizon each slice has planned (R116). -/
  planned : Tab Nat := []
  /-- A write has touched bytes 0 to 31 of the line, which CURSOR_WRITE evaluates next (R104). -/
  due : Bool := false
  /-- Queues whose doorbell waits for that evaluation (R104). -/
  rung : List Nat := []
  deriving DecidableEq, Repr

/-- A fetch of staging or on demand (04 R116-R126): item, slice that reads it, (cursor, ordinal, deadline) of each plan,
kind 0 T0 copy, 1 promotion, 2 demand; `step` of a demand fetch; `noRoom` while it waits for T0 room; `short` once it has found
no victim or no T0 room (R119); `restage` where a TILE_WRITE commit invalidated what had been staged (R121); `name` the table slot
that its block names while it is read (05 R155): slice, slot, generation. -/
structure Fetch where
  item : Item
  slice : Nat
  plans : List (Nat × Nat × Nat)
  kind : Nat
  issued : Bool := false
  step : Nat := 0
  noRoom : Bool := false
  short : Bool := false
  restage : Bool := false
  name : Option (Nat × Nat × Nat) := none
  deriving DecidableEq, Repr

/-- A copy in T0 (04 R117, R121). `demand` where a demand fetch made it; `left` where the step that fetched it has aborted
(R128); `name` the table slot that its block names (05 R155). -/
structure T0Copy where
  slice : Nat
  item : Item
  version : Nat
  tenant : Nat
  bytes : Nat
  layer : Nat
  cursors : List Nat := []
  demand : Bool := false
  left : Bool := false
  name : Option (Nat × Nat × Nat) := none
  deriving DecidableEq, Repr

/-- The engine. -/
structure Eng where
  models : Tab Model := []
  nextHandle : Nat := 0
  /-- Loads completed on the module, and their count when each handle was issued (03 R80). -/
  loadsDone : Nat := 0
  issued : Tab Nat := []
  loads : List Load := []
  outcomes : Tab (List LoadOutcome) := []
  seqs : Tab Seq := []
  steps : Tab StepSt := []
  nextStep : Nat := 0
  cursors : Tab Cursor := []
  fetches : Tab Fetch := []
  nextFetch : Nat := 0
  t0 : List T0Copy := []
  /-- Old versions of replaced tiles (03 R97): handle, index, first version that reads the new one, entry. -/
  oldTiles : List (Nat × Nat × Nat × Tile) := []
  versions : Nat := 0
  /-- Layer advances sent to the other slices and not yet received: (slice, cursor). -/
  advances : List (Nat × Nat) := []
  deriving DecidableEq, Repr

/-! ## Periscope fabric and trays (08, 12) -/

/-- A peer port (08 R242-R250). LINK 0 DISABLED, 1 TRAINING, 2 UP, 3 DOWN. -/
structure Peer where
  link : Nat := 0
  /-- The port failed self-test (18 R580). -/
  failed : Bool := false
  width : Nat := 0
  noRefclk : Bool := false
  neighbour : Nat := 0xFF
  retrains : BitVec 16 := 0
  /-- Sender: next SEQ, replay buffer (SEQ, 272 bytes) oldest first, replays from one SEQ, credits per VC. -/
  txSeq : Nat := 0
  replay : List (Nat × Bytes) := []
  lastReplay : Nat := 0
  replays : Nat := 0
  /-- Messages that wait for credits or buffer room, oldest first: virtual channel, bytes, and the port a
  forwarded message came in on. -/
  txq : List (Nat × Bytes × Option Nat) := []
  credits : List Nat := [2048, 2048, 256]
  /-- Receiver: next SEQ expected, discarding after a RETRY_REQ, its repeats, a message received in part, credits to
  return by VC, flits since the last ACK, TBC of the last good and the last valid flit. -/
  rxSeq : Nat := 0
  discarding : Bool := false
  retrySent : Nat := 0
  partial_ : Bytes := []
  owed : List Nat := [0, 0, 0]
  sinceAck : Nat := 0
  /-- TBC at which the oldest good flit not yet acknowledged arrived, of the last valid flit, and since when the link is down. -/
  lastGood : Nat := 0
  lastValid : Nat := 0
  downAt : Option Nat := none
  /-- TBC of the last progress: a flit acknowledged or accepted, or the first that waits for either (08 R250). -/
  progressAt : Nat := 0
  /-- What the neighbour's HELLO named: constellation ID and master. -/
  cid : Nat := 0
  nmaster : Nat := 0xFF
  nepoch : Nat := 0
  deriving DecidableEq, Repr

/-- A lend window (08 R262-R267). -/
structure LendWin where
  valid : Bool := false
  tier : Nat := 1
  mask : Nat := 0
  size : Nat := 0
  borrower : Nat := 0
  cls : Nat := 0
  gen : Nat := 0
  commitAt : Nat := 0
  /-- GRACE_US as it stood at the commit. -/
  graceUs : Nat := 0x64
  /-- Sectors stored by the borrower. -/
  cells : Tab Bytes := []
  /-- Logical units, with their slice, whose content was lost while lent, and the sectors on them written since (08 R262, 11 R358). -/
  gone : List (Nat × Nat) := []
  fresh : List Nat := []
  deriving DecidableEq, Repr

/-- A Periscope window (08 R263, R268). -/
structure PsWin where
  valid : Bool := false
  state : Nat := 0
  lender : Nat := 0
  lw : Nat := 0
  size : Nat := 0
  drain : Bool := false
  gen : Nat := 0
  /-- New requests are held until the notice that answers WINDOW_INFO (R268). -/
  hold : Bool := false
  /-- Granules that the lender has answered RANGE for (R271). -/
  ranged : List Nat := []
  deriving DecidableEq, Repr

/-- A staged copy of a window (08 R264). -/
structure Staged where
  kind : Nat
  win : Nat
  valid : Bool
  flag : Bool
  peer : Nat
  size : Nat
  mask : Nat
  cls : Nat
  deriving DecidableEq, Repr

/-- A request outstanding on the fabric (08 R253). -/
structure FReq where
  kind : Nat
  msg : Msg
  win : Nat
  item : Option Item := none
  issued : Nat
  /-- REQ_TIMEOUT as it stood at the issue, whether it has passed, whether the response came after it, and whether the
  request waits to be reissued after NACK STALE (R253, R268). -/
  limitUs : Nat := 0x1F4
  timedOut : Bool := false
  lateSeen : Bool := false
  again : Bool := false
  deriving DecidableEq, Repr

/-- A PERISCOPE_COMMIT that waits for OCCUPANCY answers (R265): interface, lend windows asked, granules reported. -/
structure ComOp where
  via : Iface
  asked : List Nat
  found : Tab Nat := []
  deriving DecidableEq, Repr

/-- A tray (08 R274). -/
structure Tray where
  present : Bool := false
  lost : Bool := false
  drain : Bool := false
  gib : Nat := 0
  /-- Base of the HDM decoder that Feovar programs for the whole of the tray (08 R272). -/
  base : Nat := 0
  deriving DecidableEq, Repr

/-- A read entry of the tray port (12 R414). -/
structure TrayTag where
  inc : Nat := 0
  mask : Nat := 0
  out : Bool := false
  issued : Nat := 0
  tray : Nat := 0
  /-- CPL_TIMEOUT as it stood at the issue (12 R418). -/
  limitUs : Nat := 1000
  timedOut : Bool := false
  lateSeen : Bool := false
  item : Option Item := none
  /-- Earlier incarnations: number, TBC of the issue, tray (12 R415). -/
  past : List (Nat × Nat × Nat) := []
  deriving DecidableEq, Repr

/-- The fabric, constellation and tray port. -/
structure Fab where
  graceUs : Nat := 0x64
  reqTimeoutUs : Nat := 0x1F4
  me : Nat := 0xFF
  master : Nat := 0xFF
  /-- 0 not joined, 1 JOINING, 2 MEMBER, 3 LEAVING. -/
  mstate : Nat := 0
  isMaster : Bool := false
  masterLost : Bool := false
  epoch : Nat := 0
  constId : Nat := 0
  members : List Member := []
  admitted : List (Bytes × Nat) := []
  routes : List Nat := []
  acks : List Nat := []
  /-- CONSTELLATION_MASTER_SET that polls (R261): members not yet heard, answers. -/
  poll : Option (List Nat × List Member) := none
  lastJoin : Nat := 0
  joinVia : Option (Iface × Nat) := none
  joinId : Nat := 0
  /-- Serials of modules that join by way of this one, and the port their JOIN_REQ came in on (08 R256). -/
  joinPorts : List (Bytes × Nat) := []
  /-- Control messages received in part: key port x 65,536 + opcode x 256 + source (08 R251). -/
  ctlParts : Tab Bytes := []
  /-- Requests to lent sectors on a frozen controller, oldest first (10 R336). -/
  lendWait : List Msg := []
  /-- TBC of the last heartbeat from a module; key 256 is the module's own last one. -/
  beats : Tab Nat := []
  ports : Tab Peer := []
  lw : Tab LendWin := []
  pw : Tab PsWin := []
  staged : List Staged := []
  commit : Option ComOp := none
  /-- Lend windows learned by notice (R266): key lender x 64 + window, size and generation. -/
  notices : Tab (Nat × Nat) := []
  heldReqs : List FReq := []
  reqs : Tab FReq := []
  /-- Bits in error of block reads that arrive in parts. -/
  flips : List (Item × Nat) := []
  lateRsp : BitVec 16 := 0
  staleNacks : BitVec 16 := 0
  rangeNacks : BitVec 16 := 0
  hopDrops : BitVec 16 := 0
  trays : Tab Tray := []
  cplTimeout : Nat := 1000
  tpLink : Nat := 0
  tpSpeed : Nat := 0
  tpWidth : Nat := 0
  tpTrays : Nat := 0
  tpNoRefclk : Bool := false
  tpTimeouts : BitVec 16 := 0
  tpLate : BitVec 16 := 0
  tags : Tab TrayTag := []
  deriving DecidableEq, Repr

/-! ## Start-up, resets, clocks, power, self-test (15, 16, 17, 18) -/

/-- Reset state of a slice (15). State: 0 ABSENT, 1 IN_SERVICE, 2 FENCED, 3 RESETTING, 4 LOST. -/
structure SliceRst where
  state : Nat := 0
  lastCause : Nat := 0
  resets : BitVec 8 := 0
  lastDrainUs : Nat := 0
  dropped : BitVec 16 := 0
  cutReads : BitVec 16 := 0
  fenceAt : Nat := 0
  /-- DRAIN_US as it stood at the fence (R515). -/
  drainLimit : Nat := 0x64
  /-- TBC of the causes of the last resets, newest first (R521). -/
  history : List Nat := []
  parkIdleUs : Nat := 0x3E8
  parked : Bool := false
  wakes : BitVec 32 := 0
  lastWork : Nat := 0
  laneRepairs : BitVec 16 := 0
  spareLanes : Nat := 0
  edgesUp : Nat := 0
  reroutes : BitVec 16 := 0
  /-- Matrix clusters and T0 banks in service, as masks (R520, 13 R432). -/
  clusters : Nat := 0xFF
  banks : Nat := 0xFFFF
  deriving DecidableEq, Repr

/-- Start-up and reset state of the module. -/
structure Rst where
  configReady : Bool := false
  mbxReady : Bool := false
  mediaReady : Bool := false
  memoryActive : Bool := false
  engineReady : Bool := false
  degraded : Bool := false
  cause : Nat := 0
  phase : Nat := 0
  moduleResets : BitVec 16 := 0
  readyMs : Nat := 0
  drainUs : Nat := 0x64
  /-- The in-service list fixed at step 5 (R506), ascending. -/
  inService : List Nat := []
  packageMaster : Nat := 0
  /-- ROM recovery mode (14 R498). -/
  recovery : Bool := false
  slices : Tab SliceRst := []
  /-- Tenants under reset: tenant and TBC of the fence (R526). -/
  tenants : List (Nat × Nat) := []
  deriving DecidableEq, Repr

/-- A frequency change of a slice (16 R548-R552). -/
structure ClkSlice where
  reqStep : Nat := 0
  priorStep : Nat := 0
  thrStep : Nat := 0
  effStep : Nat := 0
  pending : Bool := false
  deferCause : Nat := 0
  changes : BitVec 16 := 0
  relock : Bool := false
  overrun : BitVec 16 := 0
  flushes : BitVec 16 := 0
  escalations : BitVec 16 := 0
  lastGroup : Nat := 0
  lastEscalated : Bool := false
  /-- Groups with an event not yet delivered, and merges since the last record by group (R540, R542): merged, TBC of
  the first merge. -/
  busyGroups : List Nat := []
  merges : Tab (Nat × Nat) := []
  /-- Cursor writes that wait at the stopped engine clock, the newest of each cursor: cursor and stamp (R539, R543). -/
  latest : Tab Nat := []
  /-- Junction throttle dwell (17 R568): TBC since at or above 105 C, since at or below 100 C. -/
  hotSince : Option Nat := none
  coolSince : Option Nat := none
  /-- TBC of the last junction poll. -/
  polledAt : Nat := 0
  tripSince : Option Nat := none
  /-- TBC of the last poll at which a package set T2_OVER (17 R569). -/
  overAt : Option Nat := none
  junction : Nat := 0
  hbmMax : Nat := 0
  ctIn : Nat := 0
  memHot : Bool := false
  deriving DecidableEq, Repr

/-- A FREQ_SET that runs: interface, mask, applied, cancelled, reason by slice. -/
structure FreqOp where
  via : Iface
  mask : Nat
  applied : Nat := 0
  cancelled : Nat := 0
  reasons : Tab Nat := []
  deriving DecidableEq, Repr

/-- Clocks and references (16). -/
structure Clk where
  coreRef : Nat := 0
  hpRef : Nat := 0
  tpRef : Bool := false
  ppRef : Nat := 0
  mgRef : Bool := true
  switches : BitVec 8 := 0
  holdover : Option Nat := none
  slices : Tab ClkSlice := []
  op : Option FreqOp := none
  deriving DecidableEq, Repr

/-- Module power (17). State: 0 OFF, 1 HOLD, 2 ACTIVE. -/
structure Pwr where
  warnMv : Nat := 0xA028
  srIdleUs : Nat := 0x32
  inputMv : Nat := 0
  /-- TBC of the last input sample. -/
  sampledAt : Nat := 0
  minMv : Nat := 0xFFFF
  /-- Lowest input since the last HOLDUP_STATUS (13 R450). -/
  minStatus : Nat := 0xFFFF
  guard : Bool := false
  guardAt : Nat := 0
  guardMin : Nat := 0xFFFF
  /-- Flash writes of the module's own that wait in the guard: 0 retire list, 1 seal record, 2 boot-control record, 3 image. -/
  deferred : List Nat := []
  overvolt : Bool := false
  ctInFault : Bool := false
  ctOutFault : Bool := false
  sbShort : Bool := false
  coolantHot : Bool := false
  guardEntries : BitVec 16 := 0
  /-- Qualification timers (R558): below WARN, above WARN + 1 V, above 40 V, below 36 V, above 60 V. -/
  belowWarn : Option Nat := none
  aboveExit : Option Nat := none
  aboveStart : Option Nat := none
  belowReset : Option Nat := none
  above60 : Option Nat := none
  qualMin : Nat := 0xFFFF
  state : Nat := 0
  energyMj : Nat := 0
  esr : Nat := 0
  testing : Bool := false
  bankMv : Nat := 0
  capUf : Nat := 0
  testAt : Option Nat := none
  refused : Nat := 0
  deriving DecidableEq, Repr

/-- A self-test run on one slice (18 R577, R578): suites passed, failed and over, FIRST_FAIL, the suite under way (15 none)
and when it began, and the cause of LAST_CAUSE with which the engine side is reset once the run ends here, 0 for none. -/
structure BistRes where
  passed : Nat := 0
  failed : Nat := 0
  ended : Nat := 0
  first : Nat := 0
  cur : Nat := 15
  began : Nat := 0
  fatal : Nat := 0
  deriving DecidableEq, Repr

/-- A self-test run (18). State: 0 QUEUED, 1 RUNNING, 2 DONE, 3 ABORTED. -/
structure BistRun where
  num : Nat
  suites : Nat
  mask : Nat
  stopOnFail : Bool
  state : Nat := 1
  res : Tab BistRes := []
  via : Iface
  deriving DecidableEq, Repr

/-- Built-in self-test (18). -/
structure Bst where
  gbps : Nat := 0x20
  runs : List BistRun := []
  nextRun : Nat := 1
  /-- By slice: clusters failed, T0 banks failed, codec units failed, start-up check passed. -/
  slices : Tab (Nat × Nat × Nat × Bool) := []
  /-- Loupe ways marked failed, as a mask by slice. -/
  loupeWays : Tab Nat := []
  noExpect : Bool := false
  deriving DecidableEq, Repr

/-! ## Firmware and trust (14) -/

/-- A firmware image as the slots hold it (14 R475). -/
structure Img where
  version : Bytes := List.replicate 16 0
  level : Nat := 0
  svn : Nat := 0
  setFmt : Nat := 1
  minFmt : Nat := 1
  variants : Nat := 7
  digest : Bytes := []
  /-- The image verifies (R479). -/
  ok : Bool := true
  /-- The image carries a BOOT_LOADER component. -/
  loader : Bool := false
  /-- IMAGE_BYTES. -/
  bytes : Nat := 0
  deriving DecidableEq, Repr

/-- The boot-control record (14 R478). MAIN_STATE: 0 EMPTY, 1 WRITING, 2 STAGED, 3 PENDING, 4 CONFIRMED, 5 EXPIRED,
6 REJECTED. -/
structure Journal where
  seq : Nat := 1
  active : Nat := 0
  mainState : Nat := 4
  boots : Nat := 0
  mainDigest : Bytes := []
  fbDigest : Bytes := []
  fmtA : Nat := 1
  fmtB : Nat := 1
  deriving DecidableEq, Repr

/-- An offer held in the offer buffer: object type (1 FIRMWARE, 2 CONFIG), bytes, scope and interface. -/
structure Offer where
  kind : Nat
  bytes : Bytes
  img : Img
  scope : Nat := 0
  via : Option Iface := none
  deriving DecidableEq, Repr

/-- A configuration copy in the identity area (R469, R474): CONFIG_SEQ, SVN_FLOOR, contents and digest. -/
structure Conf where
  seq : Nat := 1
  floor : Nat := 0
  cfg : Cfg := {}
  digest : Bytes := []
  /-- The copy verifies. -/
  ok : Bool := true
  deriving DecidableEq, Repr

/-- A write of the image writer (R484): phase 0 copy to the fall-back slot, 1 main slot, 2 a write of recovery mode, 3 a configuration
block that waits; write
steps done of the total, two for each 4 KiB unit; since when a failed check has paused it and when it last tried. -/
structure FwWrite where
  phase : Nat
  step : Nat := 0
  total : Nat
  paused : Option Nat := none
  retryAt : Nat := 0
  /-- The record of step 1 of R484 is written. -/
  recorded : Bool := false
  deriving DecidableEq, Repr

/-- The chain at a holder or receiver (R481-R483): its number, IMAGE_BYTES, transit CRC, VERSION, object TYPE and ORDER. -/
structure Chain where
  num : Nat
  bytes : Nat
  crc : Nat
  version : Bytes := []
  kind : Nat
  order : List Nat
  /-- The interface level of the image that the master verified. -/
  level : Nat := 0
  /-- As holder: the module now served, whether its READY came, transfers that failed, TBC of its last message. -/
  next : Option Nat := none
  ready : Bool := false
  tries : Nat := 0
  lastAt : Nat := 0
  /-- As receiver: the holder, none once the image is received, and the bytes so far. -/
  source : Option Nat := none
  recv : Bytes := []
  /-- At the master: modules whose RESULT was OK (R491). -/
  staged : List Nat := []
  deriving DecidableEq, Repr

/-- A handover (R487, R488): the interface that asked, none for ACTIVATE; the unit, named by its highest slice; phase 0 load
or service between units, 1 paused (PM8, exporting), 3 importing; when the pause began; units switched, newest first;
handing back after a failure; when service resumed; scope. -/
structure Handover where
  via : Option Iface
  unit : Nat
  phase : Nat := 0
  pauseAt : Nat := 0
  doneUnits : List Nat := []
  back : Bool := false
  resumeAt : Nat := 0
  scope : Nat := 0
  /-- The result that made it fail (R497). -/
  why : Nat := 0
  deriving DecidableEq, Repr

/-- A constellation activation at the master (R491). -/
structure ActAll where
  via : Iface
  left : List Nat
  waiting : Option (Nat × Nat) := none
  deriving DecidableEq, Repr

/-- Firmware, configuration copies and the identity area. -/
structure Fw where
  state : Nat := 0
  prior : Nat := 0
  /-- The state without an offer or a handover: IDLE, STAGED, PENDING or FALLEN_BACK. -/
  base : Nat := 0
  journal : Journal := {}
  main : Img := {}
  fallback : Img := {}
  /-- The image that runs, and the interface level of each slice. -/
  running : Img := {}
  levels : List Nat := List.replicate 8 0
  runFmt : Nat := 1
  loaderOk : Bool := true
  /-- Configuration copies: CONFIG_SEQ, SVN_FLOOR, contents; the one in force is `cfg` of the state. -/
  configs : List Conf := [{}]
  /-- Digest of the boot loader. -/
  loaderDigest : Bytes := []
  svnFloor : Nat := 0
  lastResult : Nat := 0
  confirmMin : Nat := 0x1E
  deadline : Option Nat := none
  /-- Partial mailbox image: announced bytes and bytes so far. -/
  part : Option (Nat × Bytes) := none
  offer : Option Offer := none
  write : Option FwWrite := none
  /-- Result of the module's own part of an offer while it forwards the image. -/
  ownResult : Option Nat := none
  chain : Option Chain := none
  nextChain : Nat := 1
  handover : Option Handover := none
  actAll : Option ActAll := none
  offered : Bytes := List.replicate 16 0
  /-- Identity area: rotations, SEAL_BROKEN and DEBUG_UNLOCKED records with their timestamps, keys readable. -/
  rotations : Nat := 0
  keyGen : Nat := 0
  sealRec : Option Nat := none
  sealRetry : Option Nat := none
  debugRec : Option Nat := none
  identityLost : Bool := false
  /-- Records buffered during a handover pause (R487): log, code, payload. -/
  buffered : List (Nat × Nat × Bytes) := []
  deriving DecidableEq, Repr

/-! ## The state -/

/-- The state of the block. -/
structure State where
  /-- Commands that wait, first in, first out. -/
  pending : List Instr := []
  out : List Out := []
  /-- The model's own counter of free values (log 2). -/
  freeDraws : Nat := 0
  cfg : Cfg := {}
  tbc : Nat := 0
  ports : Tab Port := []
  fns : Tab Fn := []
  mbx : Mbx := {}
  pool : Pool := {}
  cnd : Tab Cnd := []
  tabLoads : List TabLoad := []
  dir : Dir := {}
  qos : Qos := {}
  drc : Drc := {}
  ecc : Ecc := {}
  eng : Eng := {}
  fab : Fab := {}
  rst : Rst := {}
  clk : Clk := {}
  pwr : Pwr := {}
  bst : Bst := {}
  fw : Fw := {}
  deriving DecidableEq, Repr

/-- The module as it stands before its first start-up: every field at the value of its declaration. -/
def State.reset : State := {}

end Sys2Proof.Machine
end

