-- ==== Sys2Proof/Machine/Ops.lean ====
section
/-! DEFINITION. Named operations over the state: byte strings, sparse tables, pool memory, records, interrupts and
what leaves the module. -/
namespace Sys2Proof.Machine
open Sys2Proof

/-! ### Byte strings (00 R8) -/

/-- `n` bytes of a number, least significant first. -/
def le : Nat → Nat → Bytes
  | 0, _ => []
  | n + 1, v => BitVec.ofNat 8 v :: le n (v / 256)

/-- The number that bytes spell, least significant first. -/
def ofLe : Bytes → Nat
  | [] => 0
  | b :: bs => b.toNat + 256 * ofLe bs

/-- `n` bytes from an offset; bytes past the end read 0. -/
def slice (b : Bytes) (off n : Nat) : Bytes :=
  let t := (b.drop off).take n
  t ++ List.replicate (n - t.length) 0

/-- A little-endian field of `n` bytes. -/
def fld (b : Bytes) (off n : Nat) : Nat := ofLe (slice b off n)

/-- A bit of a number. -/
def bit (v k : Nat) : Bool := (v >>> k) % 2 == 1

/-- Bits `hi` to `lo` of a number. -/
def bits (v hi lo : Nat) : Nat := (v >>> lo) % 2 ^ (hi + 1 - lo)

def b2n (b : Bool) : Nat := if b then 1 else 0

/-- The mask with bit `k` set or cleared. -/
def setBit (m k : Nat) (b : Bool) : Nat := if bit m k == b then m else if b then m + 2 ^ k else m - 2 ^ k

/-- A string padded with zeros to `n` bytes, as ASCII fields are. -/
def ascii (n : Nat) (s : String) : Bytes :=
  slice (s.toList.map fun c => BitVec.ofNat 8 c.toNat) 0 n

/-! ### Sparse tables -/

/-- The entry at a key. -/
def tabFind {α : Type} : Tab α → Nat → Option α
  | [], _ => none
  | (k, v) :: t, i => if k = i then some v else if i < k then none else tabFind t i

/-- The entry at a key, or the default. -/
def tabGet {α : Type} (d : α) (t : Tab α) (i : Nat) : α := (tabFind t i).getD d

/-- The table with an entry at a key, keys rising. -/
def tabSet {α : Type} : Tab α → Nat → α → Tab α
  | [], i, v => [(i, v)]
  | (k, w) :: t, i, v => if i < k then (i, v) :: (k, w) :: t else if k = i then (i, v) :: t else (k, w) :: tabSet t i v

/-- The table without a key. -/
def tabDel {α : Type} : Tab α → Nat → Tab α
  | [], _ => []
  | (k, w) :: t, i => if k = i then t else if i < k then (k, w) :: t else (k, w) :: tabDel t i

/-- An entry changed by a function, from the default where there is none. -/
def tabMod {α : Type} (d : α) (t : Tab α) (i : Nat) (f : α → α) : Tab α := tabSet t i (f (tabGet d t i))

/-! ### Pool memory: a canonical list of cells, where an unlisted address reads 0 (06 R172) -/

/-- The canonical form: addresses strictly rising from `lo`, and no cell that holds 0. -/
def memWfFrom : Nat → List Host.Cell → Bool
  | _, [] => true
  | lo, (a, b) :: m => lo ≤ a && b != 0 && memWfFrom (a + 1) m

def memWf (m : List Host.Cell) : Bool := memWfFrom 0 m

/-- One byte. -/
def memRead : List Host.Cell → Nat → Byte
  | [], _ => 0
  | (k, b) :: m, a => if k = a then b else if a < k then 0 else memRead m a

/-- One byte written. -/
def memWrite : List Host.Cell → Nat → Byte → List Host.Cell
  | [], a, v => if v = 0 then [] else [(a, v)]
  | (k, b) :: m, a, v =>
    if a < k then (if v = 0 then (k, b) :: m else (a, v) :: (k, b) :: m)
    else if k = a then (if v = 0 then m else (a, v) :: m)
    else (k, b) :: memWrite m a v

/-- `n` bytes from an address. -/
def memReadN (m : List Host.Cell) (a : Nat) : Nat → Bytes
  | 0 => []
  | n + 1 => memRead m a :: memReadN m (a + 1) n

/-- Bytes written from an address upward. -/
def memWriteN (m : List Host.Cell) (a : Nat) : Bytes → List Host.Cell
  | [] => m
  | v :: vs => memWriteN (memWrite m a v) (a + 1) vs

/-- Bytes written where the byte-enable mask has a bit set. -/
def memWriteBe (m : List Host.Cell) (a : Nat) (be : Nat) : Bytes → List Host.Cell
  | [] => m
  | v :: vs => memWriteBe (if be % 2 = 1 then memWrite m a v else m) (a + 1) (be / 2) vs

/-- The cells outside `[a, a + n)`. -/
def memClear (m : List Host.Cell) (a n : Nat) : List Host.Cell :=
  m.filter fun c => c.1 < a || a + n ≤ c.1

/-! ### Setters and accessors -/

def State.setPool (s : State) (p : Pool) : State := { s with pool := p }
def State.setEng (s : State) (e : Eng) : State := { s with eng := e }
def State.setDir (s : State) (d : Dir) : State := { s with dir := d }
def State.setQos (s : State) (q : Qos) : State := { s with qos := q }
def State.setDrc (s : State) (d : Drc) : State := { s with drc := d }
def State.setEcc (s : State) (e : Ecc) : State := { s with ecc := e }
def State.setFab (s : State) (f : Fab) : State := { s with fab := f }
def State.setMbx (s : State) (m : Mbx) : State := { s with mbx := m }
def State.setFw (s : State) (f : Fw) : State := { s with fw := f }
def State.setRst (s : State) (r : Rst) : State := { s with rst := r }
def State.setClk (s : State) (c : Clk) : State := { s with clk := c }
def State.setPwr (s : State) (p : Pwr) : State := { s with pwr := p }
def State.setBst (s : State) (b : Bst) : State := { s with bst := b }

/-- The key of a function in the table of functions. -/
def funcKey (f : Func) : Nat :=
  match f with
  | .pf0 l => l
  | .pf1 p => 8 + p
  | .vf t => 16 + t

/-- The key of a command interface. -/
def ifaceKey (v : Iface) : Nat :=
  match v with
  | .pf0 l => l
  | .pf1 p => 8 + p
  | .mctp => 12

def State.port (s : State) (l : Nat) : Port := tabGet {} s.ports l
def State.modPort (s : State) (l : Nat) (f : Port → Port) : State := { s with ports := tabMod {} s.ports l f }
def State.fn (s : State) (f : Func) : Fn := tabGet {} s.fns (funcKey f)
def State.modFn (s : State) (f : Func) (g : Fn → Fn) : State := { s with fns := tabMod {} s.fns (funcKey f) g }
def State.mig (s : State) (n : Nat) : MigSlice := tabGet {} s.pool.mig n
def State.modMig (s : State) (n : Nat) (f : MigSlice → MigSlice) : State :=
  s.setPool { s.pool with mig := tabMod {} s.pool.mig n f }
def State.cn (s : State) (n : Nat) : Cnd := tabGet {} s.cnd n
def State.modCnd (s : State) (n : Nat) (f : Cnd → Cnd) : State := { s with cnd := tabMod {} s.cnd n f }
def State.dirReg (s : State) (n : Nat) : DirSlice := tabGet {} s.dir.regs n
def State.modDirReg (s : State) (n : Nat) (f : DirSlice → DirSlice) : State :=
  s.setDir { s.dir with regs := tabMod {} s.dir.regs n f }
def State.drcReg (s : State) (n : Nat) : DrcSlice := tabGet {} s.drc.regs n
def State.modDrcReg (s : State) (n : Nat) (f : DrcSlice → DrcSlice) : State :=
  s.setDrc { s.drc with regs := tabMod {} s.drc.regs n f }
def State.eccReg (s : State) (n : Nat) : EccSlice := tabGet {} s.ecc.regs n
def State.modEccReg (s : State) (n : Nat) (f : EccSlice → EccSlice) : State :=
  s.setEcc { s.ecc with regs := tabMod {} s.ecc.regs n f }
def State.sl (s : State) (n : Nat) : SliceRst := tabGet {} s.rst.slices n
def State.modSl (s : State) (n : Nat) (f : SliceRst → SliceRst) : State :=
  s.setRst { s.rst with slices := tabMod {} s.rst.slices n f }
def State.ck (s : State) (n : Nat) : ClkSlice := tabGet {} s.clk.slices n
def State.modCk (s : State) (n : Nat) (f : ClkSlice → ClkSlice) : State :=
  s.setClk { s.clk with slices := tabMod {} s.clk.slices n f }
def State.quota (s : State) (t : Nat) : Quota := tabGet {} s.pool.quotas t
def State.cls (s : State) (c : Nat) : ClassRec := tabGet {} s.qos.classes c
def State.tq (s : State) (t : Nat) : TenantQos := tabGet {} s.qos.tenants t
def State.page (s : State) (n : Nat) : Page := tabGet {} s.pool.pages n
def State.modPage (s : State) (n : Nat) (f : Page → Page) : State :=
  s.setPool { s.pool with pages := tabMod {} s.pool.pages n f }
def State.region (s : State) (r : Nat) : Option Region := tabFind s.dir.regions r

/-- A free value; the model's counter moves on (log 2). -/
def State.draw (s : State) : Nat × State := (Config.freeValue s.freeDraws, { s with freeDraws := s.freeDraws + 1 })

/-! ### The part (00, 01 R28) -/

/-- Fitted host ports, peer ports, and the slice that carries each. -/
def hostPorts (c : Cfg) : Nat := if c.slices = 2 then 2 else 4
def peerPorts (c : Cfg) : Nat := if c.slices = 2 then 2 else if c.slices = 4 then 4 else 6
def hasTp (c : Cfg) : Bool := c.slices != 2
def hostPortSlice (c : Cfg) (p : Nat) : Nat := if c.slices = 8 then 2 * p else p
def peerPortSlice (c : Cfg) (p : Nat) : Nat :=
  if c.slices = 8 then (match p with | 0 => 1 | 1 => 1 | 2 => 3 | 3 => 3 | 4 => 5 | _ => 7) else p

/-- The edge at the other end of UCIe edge `e` of a slice: a pair joined by edges 0 and 1, a ring, or a 2 x 4 grid with wrap links
(01 R28). Which number an edge has is the model's choice (log 92): 0 and 1 along the row, 2 and 3 across the rows. -/
def edgePeer (c : Cfg) (n e : Nat) : Option (Nat × Nat) :=
  let k := if c.slices = 8 then 4 else c.slices
  let row := n / k * k
  match e with
  | 0 => if c.slices = 2 then some (1 - n, 0) else some (row + (n - row + 1) % k, 1)
  | 1 => if c.slices = 2 then some (1 - n, 1) else some (row + (n - row + k - 1) % k, 0)
  | 2 => if c.slices = 8 then some ((n + 4) % 8, 3) else none
  | 3 => if c.slices = 8 then some ((n + 4) % 8, 2) else none
  | _ => none

/-- The edges of a slice whose far end is one of `ups`, as a mask. -/
def edgeMask (c : Cfg) (ups : List Nat) (n : Nat) : Nat :=
  (List.range 4).foldl (fun m e => if (edgePeer c n e).any fun x => ups.contains x.1 then m + 2 ^ e else m) 0

/-- A link exists: its port is fitted, and half 1 only on a split port (12 R384). -/
def linkFitted (c : Cfg) (l : Nat) : Bool :=
  l / 2 < hostPorts c && (l % 2 == 0 || bit c.portSplit (l / 2))

/-- The host port whose range holds a tenant context (09 R276), and its VF number there. -/
def tenantPortFrom (c : Cfg) (t : Nat) : Nat → Nat → Option (Nat × Nat)
  | 0, _ => none
  | n + 1, p =>
    let base := c.vfBase.getD p 0
    let cnt := c.vfCount.getD p 0
    if base ≤ t && t < base + cnt then some (p, t - base + 1) else tenantPortFrom c t n (p + 1)

def tenantPort (c : Cfg) (t : Nat) : Option (Nat × Nat) := tenantPortFrom c t 4 0

/-- The VF of a tenant is enabled (12 R396): VF Enable set, NumVFs at most TotalVFs and not below its number. -/
def State.vfEnabled (s : State) (t : Nat) : Bool :=
  match tenantPort s.cfg t with
  | none => false
  | some (p, n) =>
    let f := s.fn (.pf1 p)
    f.vfEnable && n ≤ f.numVfs && f.numVfs ≤ s.cfg.vfCount.getD p 0

/-- The link on which a function's messages leave. -/
def funcLink (c : Cfg) (f : Func) : Nat :=
  match f with
  | .pf0 l => l
  | .pf1 p => 2 * p
  | .vf t => match tenantPort c t with
    | none => 0
    | some (p, _) => 2 * p

/-- A slice that serves: in the in-service list and not lost. -/
def State.up (s : State) (n : Nat) : Bool := s.rst.inService.contains n && (s.sl n).state != 4

/-- Slices in service, ascending. -/
def State.upSlices (s : State) : List Nat := s.rst.inService.filter fun n => (s.sl n).state != 4

/-! ### What leaves the module -/

def State.emit (s : State) (o : Out) : State := { s with out := o :: s.out }

/-- A link carries traffic: up and not frozen (12 R405, R410). -/
def State.linkOpen (s : State) (l : Nat) : Bool := (s.port l).link == 2 && !(s.port l).frozen

/-- A response on a link; it is discarded while the link is down or frozen (12 R405, R410). -/
def State.send (s : State) (l : Nat) (o : Out) : State := if s.linkOpen l then s.emit o else s

/-- A CXL.io request that arrives on a link; on a frozen link it is discarded and counted (12 R405). -/
def State.dropIo (s : State) (l : Nat) : State :=
  if (s.port l).link == 2 && (s.port l).frozen then
    s.modPort l fun p => { p with discarded := p.discarded + 1, frozenDiscarded := p.frozenDiscarded + 1 }
  else s

/-- A vector is held (12 R402): its Mask bit or Function Mask set, MSI-X Enable clear, D3hot, or the port frozen or
down. -/
def State.vecHeld (s : State) (f : Func) (v : Nat) : Bool :=
  let g := s.fn f
  (tabGet ({} : Vec) g.vecs v).masked || g.fmask || !g.msixEnable || g.d3hot || !s.linkOpen (funcLink s.cfg f)

/-- A function is there: a VF only while it is enabled (12 R396). -/
def State.fnThere (s : State) (f : Func) : Bool :=
  match f with
  | .vf t => s.vfEnabled t
  | _ => true

/-- A source event of a vector (12 R402): one message, or its pending bit while the vector is held. -/
def State.signal (s : State) (f : Func) (v : Nat) : State :=
  if !s.fnThere f then s
  else if s.vecHeld f v then
    s.modFn f fun g => { g with vecs := tabMod ({} : Vec) g.vecs v fun e => { e with pending := true } }
  else s.emit (.msix f v)

/-- Release of a vector: where nothing holds it and its pending bit is set, one message, and the bit clears. -/
def State.release (s : State) (f : Func) (v : Nat) : State :=
  if (tabGet ({} : Vec) (s.fn f).vecs v).pending && !s.vecHeld f v then
    (s.modFn f fun g => { g with vecs := tabMod ({} : Vec) g.vecs v fun e => { e with pending := false } }).emit (.msix f v)
  else s

/-- An access of a function to its registers clears its half latch (19 R594). -/
def State.touch (s : State) (f : Func) : State := s.modFn f fun g => { g with latch := none }

/-- Every fitted link. -/
def links (c : Cfg) : List Nat := (List.range 8).filter (linkFitted c)

/-- A vector of every PF0. -/
def State.signalPf0 (s : State) (v : Nat) : State := (links s.cfg).foldl (fun s l => s.signal (.pf0 l) v) s

/-- A vector of PF1 on every host port. -/
def State.signalPf1 (s : State) (v : Nat) : State :=
  (List.range (hostPorts s.cfg)).foldl (fun s p => s.signal (.pf1 p) v) s

/-! ### Event records (13 R428, R429; 00 R603) -/

/-- The time of Set Timestamp as it stands now (13 R430). -/
def State.clockTime (s : State) : Nat :=
  match s.mbx.timestamp with
  | none => 0
  | some (t, at0) => t + (s.tbc - at0)

/-- The time that a record carries: 0 until Set Timestamp has run since the module last started (13 R429). -/
def State.stamp (s : State) : Nat := if s.mbx.stampSet then s.clockTime else 0

/-- The log's vector on every PF0 whose policy selects MSI-X for it (13 R401). -/
def State.logVector (s : State) (log : Nat) : State :=
  (links s.cfg).foldl (fun s l => if (s.fn (.pf0 l)).policy.getD log false then s.signal (.pf0 l) (1 + log) else s) s

/-- A record in a log: 0 Informational, 1 Warning, 2 Failure, 3 Fatal. A full log drops it; recovery mode keeps no log
(14 R496). A GUARANTEE_SCALED record that is written raises the management vector of PF1 on every host port too (09 R304). -/
def State.recordNow (s : State) (log code : Nat) (payload : Bytes) : State :=
  let g := tabGet ({} : Log) s.mbx.logs log
  if s.rst.recovery then s
  else if g.recs.length < 1024 then
    let r : Rec := { handle := g.next, code := code, payload := payload, time := s.stamp }
    let s := (s.setMbx { s.mbx with logs := tabSet s.mbx.logs log { g with recs := g.recs ++ [r], next := if g.next = 0xFFFF then 1 else g.next + 1 } }).logVector log
    if code = 0x000E then s.signalPf1 2 else s
  else
    let g' := { g with overflow := g.overflow + 1, lastOverflow := s.stamp,
                       firstOverflow := if g.overflow = 0 then s.stamp else g.firstOverflow }
    s.setMbx { s.mbx with logs := tabSet s.mbx.logs log g' }

/-- A record; during the pause of a handover it is buffered and written when the pause ends (14 R487). -/
def State.record (s : State) (log code : Nat) (payload : Bytes) : State :=
  match s.fw.handover with
  | some h =>
    if h.phase = 0 then s.recordNow log code payload
    else s.setFw { s.fw with buffered := s.fw.buffered ++ [(log, code, payload)] }
  | none => s.recordNow log code payload

/-- A record of a limited name and scope (00 R603): written when `gap` ns have passed since the last, else withheld.
`mk` takes the count withheld since the last. -/
def State.recordLim (s : State) (log code scope gap : Nat) (mk : Nat → Bytes) : State :=
  let key := code + 64 * scope
  match tabFind s.mbx.limits key with
  | some (last, held) =>
    if last + gap ≤ s.tbc then
      (s.setMbx { s.mbx with limits := tabSet s.mbx.limits key (s.tbc, 0) }).record log code (mk held)
    else s.setMbx { s.mbx with limits := tabSet s.mbx.limits key (last, held + 1) }
  | none => (s.setMbx { s.mbx with limits := tabSet s.mbx.limits key (s.tbc, 0) }).record log code (mk 0)

/-! ### Time -/

/-- The time base moved on to a due time; it never moves back. -/
def State.until (s : State) (t : Nat) : State := { s with tbc := max s.tbc t }

/-- A step on an empty queue: one tick of the time base (log 1). -/
def idleTick (s : State) : State := { s with tbc := s.tbc + 1 }

def us : Nat := 1000
def ms : Nat := 1000000

end Sys2Proof.Machine
end

