-- ==== Sys2Proof/Machine/Cmd.lean ====
section
/-! DEFINITION. Command interfaces: what every mailbox and MCTP command goes through before and after its own effect
(13 R419-R427, R458), background operations, and physical presence. -/
namespace Sys2Proof.Machine
open Sys2Proof

/-- A record laid out as fields (bytes, value), least significant byte first. -/
def flds (l : List (Nat × Nat)) : Bytes := l.flatMap fun f => le f.1 f.2

/-- What the opcode table says of a command (13 R427): interfaces (bit 0 PF0, 1 PF1, 2 M, 3 FM), presence, flash,
shortest and longest input, and whether ROM recovery accepts it (13 R424). -/
structure Row where
  op : Nat
  thru : Nat
  pres : Bool := false
  flash : Bool := false
  lo : Nat := 0
  hi : Nat := 0
  rom : Bool := false

/-- What a command's own effect answers: return code, output, state, what its background operation names, and what
happens once the response is sent. -/
structure Reply where
  ret : Ret
  out : Bytes := []
  st : State
  bg : List Nat := []
  after : State → State := id
  /-- The response comes later, when what the command waits for is done. -/
  later : Bool := false

def ok (s : State) (out : Bytes := []) : Reply := { ret := .success, out := out, st := s }
def fail (s : State) (r : Ret) : Reply := { ret := r, st := s }
def started (s : State) (bg : List Nat := []) : Reply := { ret := .backgroundStarted, st := s, bg := bg }

/-- The function of a mailbox. -/
def ifaceFunc (v : Iface) : Option Func :=
  match v with
  | .pf0 l => some (.pf0 l)
  | .pf1 p => some (.pf1 p)
  | .mctp => none

/-- The interface of a key. -/
def ifaceOf (k : Nat) : Iface := if k < 8 then .pf0 k else if k < 12 then .pf1 (k - 8) else .mctp

def State.iface (s : State) (v : Iface) : IfaceSt := tabGet {} s.mbx.iface (ifaceKey v)
def State.modIface (s : State) (v : Iface) (f : IfaceSt → IfaceSt) : State :=
  s.setMbx { s.mbx with iface := tabMod {} s.mbx.iface (ifaceKey v) f }

/-- Payload limit of a transport (13 R420). -/
def ifaceLimit (v : Iface) : Nat :=
  match v with
  | .pf0 _ => 65536
  | .pf1 _ => 32768
  | .mctp => 8192

/-- The interface takes commands: the mailboxes are ready (15 R509) or the ROM serves recovery (14 R498), and its link
carries traffic and its function is awake. -/
def State.ifaceUp (s : State) (v : Iface) : Bool :=
  (s.rst.mbxReady || s.rst.recovery) &&
  match v with
  | .pf0 l => linkFitted s.cfg l && (!s.rst.recovery || l == 0) && s.linkOpen l && !(s.fn (.pf0 l)).d3hot
  | .pf1 p => !s.rst.recovery && p < hostPorts s.cfg && s.linkOpen (2 * p) && !(s.fn (.pf1 p)).d3hot
  | .mctp => s.cfg.mctp != 0

/-- The engine side of a slice is being reset: commands that need the slice return Busy (15 R520). -/
def State.restarting (s : State) (n : Nat) : Bool := (s.sl n).state == 2 || (s.sl n).state == 3

/-- A self-test suite of `ks` holds a slice (18 R576). -/
def State.bistOn (s : State) (n : Nat) (ks : List Nat) : Bool :=
  s.bst.runs.any fun r => ks.contains (tabGet ({} : BistRes) r.res n).cur

/-- DRAM_FULL runs on some slice. -/
def State.bistFull (s : State) : Bool := (List.range 8).any fun n => s.bistOn n [7]

/-- Commands are held: in a handover's pause, and while the package master restarts (13 R423, 14 R487, 15 R520). -/
def State.mbxPaused (s : State) : Bool :=
  (match s.fw.handover with
  | some h => h.phase != 0
  | none => false) || s.restarting s.rst.packageMaster

/-- The interface may issue a command (13 R421); recovery mode looks past MBX_ACCESS (14 R498). -/
def State.accepts (s : State) (thru : Nat) (v : Iface) : Bool :=
  match v with
  | .pf0 l => bit thru 0 || (bit thru 3 && (bit s.cfg.fmLinks l || s.rst.recovery))
  | .pf1 _ => bit thru 1
  | .mctp => bit thru 2 || bit thru 3

/-- The parts of the pre-write check that fail (17 R564, R565): bit 0 energy, 1 test age, 2 bank voltage, 3 guard. -/
def State.prewriteFailed (s : State) : Nat :=
  b2n (s.pwr.energyMj < 1200) + 2 * b2n (match s.pwr.testAt with | none => true | some t => t + 7200000 * ms ≤ s.tbc) +
  4 * b2n (s.pwr.bankMv < 47000) + 8 * b2n s.pwr.guard

/-- The HOLDUP_LOW record (17 R565). -/
def State.holdupRecord (s : State) (cause failed : Nat) : Bytes :=
  flds [(1, cause), (1, failed), (2, s.pwr.esr), (4, s.pwr.energyMj), (2, s.pwr.capUf), (2, s.pwr.bankMv),
    (4, s.pwr.refused), (8, s.pwr.testAt.getD 0), (8, s.tbc)]

/-- A failed pre-write check counts, and is recorded at most once a minute (17 R565). -/
def State.prewriteRefused (s : State) : State :=
  let s := s.setPwr { s.pwr with refused := s.pwr.refused + 1 }
  let old := s.mbx.limits
  let s' := s.recordLim 1 0x0011 1 (60000 * ms) fun _ => s.holdupRecord 1 s.prewriteFailed
  let wrote := match tabFind old (0x0011 + 64) with
    | none => true
    | some (t, _) => t + 60000 * ms ≤ s.tbc
  if wrote then s'.setPwr { s'.pwr with refused := 0 } else s'

/-! ### Presence (13 R455-R459) -/

/-- A button window runs (13 R455). -/
def State.buttonOpen (s : State) : Bool :=
  match s.mbx.windowEnd with
  | none => false
  | some t => s.tbc < t

/-- Sources that assert presence: bit 0 button, 1 jumper, 2 seal (13 R459). -/
def State.presSources (s : State) : Nat :=
  b2n s.buttonOpen + 2 * b2n s.mbx.jumper + 4 * b2n (s.mbx.sealOpen || s.fw.sealRec.isSome)

/-- The presence window (13 R458). -/
def State.presOpen (s : State) : Bool := s.presSources != 0

/-- An entry of the presence history, of which the last 16 are kept. -/
def State.presEvent (s : State) (event source opcode : Nat) : State :=
  s.setMbx { s.mbx with history :=
    ({ event := event, source := source, opcode := opcode, tbc := s.tbc : PresEvent } :: s.mbx.history).take 16 }

/-- A presence command accepted. -/
def State.authorise (s : State) (op : Nat) : State :=
  let s := s.presEvent 5 s.presSources op
  s.setMbx { s.mbx with authorised := s.mbx.authorised + 1 }

/-! ### Responses and background operations -/

/-- The MBX vector of an interface (12 R400). -/
def State.signalMbx (s : State) (v : Iface) : State :=
  match ifaceFunc v with
  | some f => s.signal f 0
  | none => s

/-- A response: return code and payload in the interface's registers, and its vector. -/
def State.respond (s : State) (v : Iface) (op : Nat) (r : Ret) (p : Bytes) : State :=
  ((s.modIface v fun i => { i with ret := r, opcode := op, payload := p }).emit (.response v op r p)).signalMbx v

/-- Background operations as (interface key, operation). -/
def State.bgList (s : State) : List (Nat × Bg) := s.mbx.iface.filterMap fun e => e.2.bg.map fun b => (e.1, b)

/-- Concurrency (13 R422): one background command an interface, and one of an opcode in the module, but MODEL_LOAD runs
one for each tenant and CURSOR_UNBIND one for each cursor. -/
def State.bgBusy (s : State) (v : Iface) (op : Nat) (args : List Nat) : Bool :=
  s.bgList.any fun e =>
    e.1 == ifaceKey v ||
    (e.2.opcode == op && (if op == 0xC010 then e.2.args.head? == args.head? else op != 0xC021 || e.2.args == args))

/-- The interface that runs a background operation of an opcode, with its arguments where they matter. -/
def State.bgOf (s : State) (op : Nat) : Option Iface :=
  (s.bgList.find? fun e => e.2.opcode == op).map fun e => ifaceOf e.1

/-- A background operation completes (13 R422): its output is placed and its vector signalled. -/
def State.bgDone (s : State) (v : Iface) (op : Nat) (r : Ret) (p : Bytes) : State :=
  if ((s.iface v).bg.map (·.opcode)) == some op then (s.modIface v fun i => { i with bg := none, lastBg := some (op, r) }).respond v op r p else s

/-- A background operation of an opcode, wherever it runs, completes. -/
def State.bgDoneOp (s : State) (op : Nat) (r : Ret) (p : Bytes) : State :=
  match s.bgOf op with
  | some v => s.bgDone v op r p
  | none => s

/-- The refusal that comes before a command's own checks, if there is one (13 R420, R421, R423-R425, R458). -/
def State.refusal (s : State) (c : Row) (v : Iface) (len : Nat) : Option Ret :=
  if s.rst.recovery && !c.rom then some .recoveryMode
  else if !s.accepts c.thru v then some .unsupported
  else if len < c.lo || c.hi < len || ifaceLimit v < len then some .invalidPayloadLength
  else if c.flash && s.pwr.guard then some .busy
  else if c.pres && !s.presOpen then some .presenceRequired
  else if c.flash && s.prewriteFailed != 0 then some .holdupLow
  else none

/-- A command on an interface: discarded on a frozen link, held during a pause, refused with no effect, or carried out
by `h`. -/
def mbxCall (c : Row) (i : Instr) (v : Iface) (len : Nat) (s : State) (h : State → Reply) : State :=
  if !s.ifaceUp v then (match ifaceFunc v with
    | some f => s.dropIo (funcLink s.cfg f)
    | none => s)
  else if s.mbxPaused then s.setMbx { s.mbx with held := s.mbx.held ++ [i] }
  else
    match s.refusal c v len with
    | some .holdupLow => s.prewriteRefused.respond v c.op .holdupLow []
    | some r => s.respond v c.op r []
    | none =>
      let r := h s
      if r.later then r.st
      else if r.ret = .backgroundStarted then
        if s.bgBusy v c.op r.bg then s.respond v c.op .busy []
        else
          let s' := r.st.modIface v fun i => { i with bg := some { opcode := c.op, args := r.bg } }
          let s' := if c.pres then s'.authorise c.op else s'
          r.after (s'.respond v c.op r.ret r.out)
      else
        let s' := if c.pres && r.ret = .success then r.st.authorise c.op else r.st
        r.after (s'.respond v c.op r.ret r.out)

/-- The tenant context that a command may name (09 R278). -/
def State.tenantOk (s : State) (v : Iface) (t : Nat) : Bool :=
  match v with
  | .pf1 p => match tenantPort s.cfg t with
    | some (q, _) => p == q
    | none => false
  | _ => t < 1024

/-- Held commands re-enter the queue at its front, oldest first. -/
def State.requeue (s : State) (l : List Instr) : State := { s with pending := l ++ s.pending }

/-- Commands that the pause of a handover held are let go. -/
def State.releaseHeld (s : State) : State :=
  (s.setMbx { s.mbx with held := [] }).requeue s.mbx.held

/-- The event as seen by a failing flash write of the module itself: whether a write step may start now (17 R564). -/
def State.canWriteFlash (s : State) : Bool := s.prewriteFailed == 0

end Sys2Proof.Machine
end

