-- ==== Sys2Proof/Machine/Codec.lean ====
section
/-! DEFINITION. Stored blocks, their coders and tables (05), CRC-32C, the line code and the page code (11). -/
namespace Sys2Proof.Machine
open Sys2Proof

/-! ### CRC-32C (05 R138) -/

def crcBit : Nat → Nat → Nat
  | 0, c => c
  | n + 1, c => crcBit n (if c % 2 = 1 then (c / 2) ^^^ 0x82F63B78 else c / 2)

def crcBytes (c : Nat) (b : Bytes) : Nat := b.foldl (fun c x => crcBit 8 (c ^^^ x.toNat)) c

def crc32c (b : Bytes) : Nat := crcBytes 0xFFFFFFFF b ^^^ 0xFFFFFFFF

/-! ### The field GF(2^16) of 11 R346 -/

/-- Multiplication, shift and add, the polynomial being x^16 + x^12 + x^3 + x + 1. -/
def gfMulFrom : Nat → Nat → Nat → Nat → Nat
  | 0, _, _, acc => acc
  | n + 1, a, b, acc =>
    let acc := if b % 2 = 1 then acc ^^^ a else acc
    let a := 2 * a
    gfMulFrom n (if 65536 ≤ a then a ^^^ 0x1100B else a) (b / 2) acc

def gfMul (a b : Nat) : Nat := gfMulFrom 16 a b 0

/-- Powers of the root. -/
def gfPow : Nat → Nat
  | 0 => 1
  | n + 1 => gfMul 2 (gfPow n)

/-! ### The line code (11 R346 to R348) -/

/-- Syndrome `j` of an error pattern: symbol `i` stands at x^(34 - i). -/
def lineSyndrome (j : Nat) (e : List Flip) : Nat :=
  e.foldl (fun s f => s ^^^ gfMul (f.pat % 65536) (gfPow (j * (34 - f.sym)))) 0

/-- What a T1 read of a line makes of its symbol errors: the pattern left after correction, symbols counted as
corrected, or none where the error is detected and not correctable (R348). -/
def lineDecode (e : List Flip) : Option (List Flip × Nat) :=
  let e := e.filter fun f => f.sym < 35
  let s0 := lineSyndrome 0 e
  let s1 := lineSyndrome 1 e
  let s2 := lineSyndrome 2 e
  if s0 = 0 && s1 = 0 && s2 = 0 then some (e, 0)
  else
    match (List.range 35).find? fun i => s0 != 0 && gfMul s0 (gfPow (34 - i)) == s1 && gfMul s1 (gfPow (34 - i)) == s2 with
    | some i => some ({ sym := i, pat := s0 } :: e, 1)
    | none => none

/-- The checks of a line: the remainder of the data polynomial times x^3 by the generator. -/
def lineChecks (data : Bytes) : List Nat :=
  let g1 := gfPow 0 ^^^ gfPow 1 ^^^ gfPow 2
  let g2 := gfMul 1 (gfPow 1) ^^^ gfMul 1 (gfPow 2) ^^^ gfMul (gfPow 1) (gfPow 2)
  let g3 := gfMul (gfPow 1) (gfPow 2)
  (List.range 32).foldl (fun r j =>
    let d := fld data (2 * j) 2 ^^^ r.getD 0 0
    [r.getD 1 0 ^^^ gfMul d g1, r.getD 2 0 ^^^ gfMul d g2, gfMul d g3]) [0, 0, 0]

/-- The metadata word of a line: its three checks, and bits [63:48] zero (R347). -/
def lineMeta (data : Bytes) : Nat :=
  let c := lineChecks data
  c.getD 0 0 + 2 ^ 16 * c.getD 1 0 + 2 ^ 32 * c.getD 2 0

/-- The symbols in error of a line by its bits in error: bit k of the data is bit 7 - k % 8 of byte k / 8, and bit 512 + m is bit m
of the metadata word, whose top 16 bits are ignored on read (R346, R347). -/
def lineErrors (bs : List Nat) : List Flip :=
  let one (k : Nat) : Nat × Nat :=
    if k < 512 then (k / 16, 2 ^ (8 * (k / 8 % 2) + (7 - k % 8))) else (32 + (k - 512) / 16, 2 ^ ((k - 512) % 16))
  let l := ((bs.filter (· < 560)).eraseDups).map one
  (l.map (·.1)).eraseDups.map fun y => { sym := y, pat := (l.filter fun x => x.1 == y).foldl (fun n x => n + x.2) 0 }

/-- The data bits in error that symbols in error spell: symbol `j` is bytes 2j and 2j + 1, little-endian. -/
def flipBits (e : List Flip) : List Nat :=
  e.flatMap fun f => ((List.range 16).filter fun b => bit f.pat b).map fun b => 8 * (2 * f.sym + b / 8) + (7 - b % 8)

/-- A line of 64 B with the residual error of a read added to its data symbols. -/
def applyFlips (data : Bytes) (e : List Flip) : Bytes :=
  e.foldl (fun d f =>
    if f.sym < 32 then
      let v := fld d (2 * f.sym) 2 ^^^ (f.pat % 65536)
      d.take (2 * f.sym) ++ le 2 v ++ d.drop (2 * f.sym + 2)
    else d) data

/-! ### The page code (11 R350, R351) -/

/-- Bits that a strength corrects: t = 16 (n + 1) (R352). -/
def strengthT (ps : Nat) : Nat := 16 * (ps + 1)

/-- Interleaved codewords of a block by its sectors (R351). -/
def codewords (sectors : Nat) : Nat :=
  if sectors ≤ 31 then 1 else if sectors ≤ 62 then 2 else if sectors ≤ 124 then 4 else if sectors ≤ 248 then 8 else 16

/-- The codeword that a bit of a block belongs to: bits of the protected part by their number, parity bits by place. -/
def codewordOf (sectors ps bitNo : Nat) : Nat :=
  let S := codewords sectors
  let prot := (sectors * 256 - 2 * strengthT ps) * 8
  if bitNo < prot then bitNo % S else (bitNo - prot) / 8 / (2 * strengthT ps / S)

/-- Bit errors per codeword; none where some codeword holds more than t_c of them, else the bits corrected (R351). -/
def pageDecode (sectors ps : Nat) (flips : List Nat) : Option Nat :=
  let S := codewords sectors
  let fs := (flips.filter fun b => b < sectors * 2048).eraseDups
  if (List.range S).all fun c => (fs.filter fun b => codewordOf sectors ps b == c).length ≤ strengthT ps / S then
    some fs.length
  else none

/-- What the page code of a block meets, by the bits in error on the media, and the symbols that the line code corrected (R349). In
T1 every line that holds sectors is decoded first, its 64 metadata bits numbered after the data of the whole block; a line that it
finds uncorrectable is passed on with its raw bits. Other tiers have no line code. -/
def homeErrors (tier sectors : Nat) (bs : List Nat) : List Nat × Nat :=
  if tier != 1 then (bs, 0)
  else
    let n := 4 * sectors
    let lineOf (b : Nat) : Nat := if b < 512 * n then b / 512 else (b - 512 * n) / 64
    ((bs.map lineOf).eraseDups.filter (· < n)).foldl (fun (a : List Nat × Nat) j =>
      let mine := (bs.filter fun b => lineOf b == j).map fun b => if b < 512 * n then b % 512 else 512 + (b - 512 * n) % 64
      match lineDecode (lineErrors mine) with
      | some (left, k) => (a.1 ++ (flipBits (left.filter fun f => f.sym < 32)).map (512 * j + ·), a.2 + k)
      | none => (a.1 ++ (mine.filter (· < 512)).map (512 * j + ·), a.2)) ([], 0)

/-- Product of two polynomials over the field, coefficients lowest degree first. -/
def polyMulRoot (p : List Nat) (r : Nat) : List Nat :=
  let sh := 0 :: p
  let sc := (p.map fun a => gfMul a r) ++ [0]
  List.zipWith (· ^^^ ·) sh sc

/-- Conjugates of a power of the root: the exponents i, 2i, 4i … modulo 65,535. -/
def conjugates (i : Nat) : List Nat := ((List.range 16).map fun k => (i * 2 ^ k) % 65535).eraseDups

/-- The minimal polynomial of the i-th power of the root, as a polynomial over GF(2) in the bits of a number. -/
def minPoly (pow : Nat → Nat) (i : Nat) : Nat :=
  let p := (conjugates i).foldl (fun p e => polyMulRoot p (pow e)) [1]
  p.zipIdx.foldl (fun n c => n + (c.1 % 2) * 2 ^ c.2) 0

/-- Product of polynomials over GF(2). -/
def pMulFrom : Nat → Nat → Nat → Nat → Nat
  | 0, _, _, acc => acc
  | n + 1, a, b, acc => pMulFrom n (2 * a) (b / 2) (if b % 2 = 1 then acc ^^^ a else acc)

/-- A power by squaring on the exponent's bits. -/
def gfPowFast (e : Nat) : Nat :=
  (List.range 17).foldr (fun k acc => let sq := gfMul acc acc; if bit e k then gfMul sq 2 else sq) 1

/-- The generator of the code that corrects `tc` bits (R350). -/
def pageGen (tc : Nat) : Nat :=
  let reps := (List.range tc).foldl (fun (seen : List Nat) k =>
    let c := (conjugates (2 * k + 1)).foldl min 65535
    if seen.contains c then seen else seen ++ [c]) []
  reps.foldl (fun g i => pMulFrom 17 g (minPoly gfPowFast i) 0) 1

/-- Remainder of a bit string (highest degree first) times x^deg by the generator. -/
def pageRem (g deg : Nat) (ds : List Bool) : Nat :=
  ds.foldl (fun r b =>
    let top := bit r (deg - 1) != b
    let r := (2 * r) % 2 ^ deg
    if top then r ^^^ (g % 2 ^ deg) else r) 0

/-- Bits of a byte string, most significant bit of each byte first. -/
def bitsOf (b : Bytes) : List Bool := b.flatMap fun x => (List.range 8).map fun k => bit x.toNat (7 - k)

/-- Bytes of a number of `n` bytes, most significant first. -/
def be (n v : Nat) : Bytes := (le n v).reverse

/-- The parity of a block's protected part (R351). -/
def pageParity (sectors ps : Nat) (prot : Bytes) : Bytes :=
  let S := codewords sectors
  let tc := strengthT ps / S
  let g := pageGen tc
  let bs := (bitsOf prot).zipIdx
  (List.range S).flatMap fun c => be (2 * tc) (pageRem g (16 * tc) ((bs.filter fun p => p.2 % S == c).map (·.1)))

/-! ### Headers (05 R135 to R137) -/

/-- Sectors of a block (R135). -/
def sectorsFor (ps payload : Nat) : Nat := (32 + payload + 2 * strengthT ps + 255) / 256

/-- Logical size of a weight tile by format and scale mode; none where the pair is not admitted (02 R43, R47). -/
def tileLogical (fmt scale : Nat) : Option Nat :=
  let e := match fmt with
    | 0 => 65536 | 1 => 32768 | 2 => 32768 | 3 => 16384 | 4 => 16384 | 5 => 12288 | 6 => 12288 | 7 => 8192
    | 8 => 16384 | 9 => 8192 | 10 => 3328 | _ => 0
  if e = 0 || 4 < scale then none
  else if scale = 0 then some e
  else if fmt = 0 then none
  else if scale = 4 then some (e + 512)
  else if fmt = 1 || fmt = 2 then none
  else some (e + (if scale = 1 then 512 else 1024))

/-- LOGICAL_BYTES is a logical tile size of 02 R43. -/
def isTileLogical (n : Nat) : Bool :=
  (List.range 11).any fun f => (List.range 5).any fun m => tileLogical f m == some n

/-- The 32 bytes of a header (R136). -/
def blockHeader (b : Block) : Bytes :=
  le 1 (b.coder + 16) ++ le 1 b.strength ++ le 1 (b.fmt + (if b.typed then 16 else 0) + 32 * b.kind) ++ [0] ++
  le 2 (b.slot + 64 * b.gen) ++ le 2 b.sectors ++ le 4 b.logical ++ le 4 b.payload.length ++ le 4 b.check ++
  List.replicate 12 0

/-- A stored block as its sectors hold it (R135). -/
def blockBytes (b : Block) : Bytes :=
  let n := b.sectors * 256 - 2 * strengthT b.strength
  let prot := slice (blockHeader b ++ b.payload) 0 n
  prot ++ pageParity b.sectors b.strength prot

/-- A header of 32 B and the block it describes; none where it is malformed in a field that the record cannot
hold, or where its payload runs past its sectors (R135, R137). -/
def parseBlock (raw : Bytes) : Option Block :=
  let b0 := fld raw 0 1
  let b2 := fld raw 2 1
  let t := fld raw 4 2
  let plen := fld raw 12 4
  if b0 / 16 != 1 || 8 ≤ fld raw 1 1 || fld raw 3 1 != 0 || (slice raw 20 12).any (· != 0) || (slice raw 32 plen).length != plen then none
  else some { coder := b0 % 16, strength := fld raw 1 1, fmt := b2 % 16, typed := bit b2 4, kind := b2 / 32,
              slot := t % 64, gen := t / 64, sectors := fld raw 6 2, logical := fld raw 8 4,
              payload := slice raw 32 plen, check := fld raw 16 4 }

/-- Unit width of ZRUN (R143). -/
def zrunWidth (typed : Bool) (fmt : Nat) : Nat :=
  if typed && fmt == 0 then 4 else if typed && (fmt == 1 || fmt == 2) then 2 else 1

/-- A malformed header (R137, R143). -/
def malformed (b : Block) : Bool :=
  3 < b.coder || 3 < b.kind || (b.coder != 2 && (b.slot != 0 || b.gen != 0)) || (b.typed && 10 < b.fmt) ||
  b.sectors != sectorsFor b.strength b.payload.length ||
  (b.kind != 3 && b.logical != 4096) || (b.kind == 3 && !isTileLogical b.logical) ||
  (b.coder == 1 && b.logical % zrunWidth b.typed b.fmt != 0)

/-! ### Tables (05 R146, R147) -/

/-- The 16-bit numbers of a byte string. -/
def words16 : Bytes → List Nat
  | a :: b :: r => (a.toNat + 256 * b.toNat) :: words16 r
  | _ => []

/-- The checks of TABLE_LOAD (R158). -/
def parseTable (raw : Bytes) : Option TansTable :=
  let log := fld raw 2 1
  let ctxs := fld raw 3 1
  let c0 := words16 (slice raw 16 512)
  let c1 := words16 (slice raw 528 512)
  let zeroed := raw.take 8 ++ [0, 0, 0, 0] ++ raw.drop 12
  if raw.length != 4096 || fld raw 0 2 != 0x5354 || log < 5 || 12 < log || ctxs < 1 || 2 < ctxs then none
  else if (slice raw 4 4).any (· != 0) || (slice raw 12 4).any (· != 0) || (raw.drop 1040).any (· != 0) then none
  else if c0.foldl (· + ·) 0 != 2 ^ log then none
  else if ctxs == 2 && c1.foldl (· + ·) 0 != 2 ^ log then none
  else if ctxs == 1 && c1.any (· != 0) then none
  else if crc32c zeroed != fld raw 8 4 then none
  else some { log := log, ctxs := ctxs, count0 := c0, count1 := c1 }

/-- A built context: symbol, bits and base of each state (R147). -/
structure Ctx where
  sym : Array Nat
  nb : Array Nat
  base : Array Nat
  count : Array Nat

def buildSyms (L step : Nat) (counts : List Nat) : Array Nat :=
  let r := counts.zipIdx.foldl (fun (acc : Array Nat × Nat) c =>
    (List.range c.1).foldl (fun (a : Array Nat × Nat) _ => (a.1.setIfInBounds a.2 c.2, (a.2 + step) % L)) acc)
    (Array.replicate L 0, 0)
  r.1

def buildCtx (log : Nat) (counts : List Nat) : Ctx :=
  let L := 2 ^ log
  let sym := buildSyms L (L / 2 + L / 8 + 3) counts
  let r := (List.range L).foldl (fun (a : Array Nat × Array Nat × Array Nat) u =>
    let s := sym.getD u 0
    let x := a.1.getD s 0
    let nb := log - Nat.log2 x
    (a.1.setIfInBounds s (x + 1), a.2.1.push nb, a.2.2.push (x * 2 ^ nb - L)))
    (counts.toArray, #[], #[])
  { sym := sym, nb := r.2.1, base := r.2.2, count := counts.toArray }

/-! ### Decoding (05 R139 to R148, R163 to R165, R607) -/

/-- How a decode ends: the logical content, a length failure, or a check failure with its cause (0 CHECK, 1 HEADER,
2 GENERATION); with the bytes produced. -/
inductive DecRes where
  | ok (out : Bytes)
  | badLength (long : Bool) (produced : Nat)
  | badCheck (cause produced : Nat)
  deriving DecidableEq, Repr

/-- A bit string read from the front: its value as a number and the bits left. -/
abbrev BitSrc := Nat × Nat

def bitSrc (b : Bytes) : BitSrc := (b.foldl (fun n x => n * 256 + x.toNat) 0, 8 * b.length)

/-- `n` bits, the first read being the most significant; none where the stream is exhausted. -/
def takeBits (n : Nat) (s : BitSrc) : Option (Nat × BitSrc) :=
  if s.2 < n then none
  else let k := s.2 - n; some (s.1 >>> k, (s.1 % 2 ^ k, k))

/-- What is left is a zero pad of fewer than 8 bits. -/
def padOk (s : BitSrc) : Bool := s.2 < 8 && s.1 == 0

/-- Exp-Golomb order 0 (R144). -/
def expGolomb (s : BitSrc) : Option (Nat × BitSrc) :=
  if s.1 = 0 then none
  else
    let z := s.2 - 1 - Nat.log2 s.1
    match takeBits z s with
    | none => none
    | some (_, s) => (takeBits (z + 1) s).map fun r => (r.1 - 1, r.2)

/-- The runs of a ZRUN stream: indices of the non-zero units, or whether the failure is LONG. -/
def zrunRuns (U : Nat) : Nat → Nat → Bool → Bool → BitSrc → List Nat → Except Bool (List Nat × BitSrc)
  | 0, _, _, _, s, acc => .ok (acc, s)
  | fuel + 1, pos, zero, first, s, acc =>
    if U ≤ pos then .ok (acc, s)
    else
      match expGolomb s with
      | none => .error false
      | some (v, s) =>
        let run := if first then v else v + 1
        if U < pos + run then .error true
        else zrunRuns U fuel (pos + run) (!zero) false s
          (if zero then acc else acc ++ (List.range run).map (· + pos))

/-- The bit planes of one group. -/
def zrunGroup (W : Nat) (g : List Nat) (s : BitSrc) : Option (List (Nat × Nat) × BitSrc) :=
  match takeBits (8 * W) s with
  | none => none
  | some (cst, s) =>
    match takeBits (8 * W) s with
    | none => none
    | some (val, s) =>
      let init : Option (List (Nat × Nat) × BitSrc) := some (g.map fun j => (j, 0), s)
      (List.range (8 * W)).reverse.foldl (fun acc p =>
        match acc with
        | none => none
        | some (us, s) =>
          if bit cst p then some (us.map fun u => (u.1, u.2 + (if bit val p then 2 ^ p else 0)), s)
          else
            match takeBits us.length s with
            | none => none
            | some (v, s) =>
              some (us.zipIdx.map fun u => (u.1.1, u.1.2 + (if bit v (us.length - 1 - u.2) then 2 ^ p else 0)), s)) init

def zrunGroups (W : Nat) : Nat → List Nat → BitSrc → List (Nat × Nat) → Option (List (Nat × Nat) × BitSrc)
  | 0, _, s, acc => some (acc, s)
  | fuel + 1, nz, s, acc =>
    if nz.isEmpty then some (acc, s)
    else
      match zrunGroup W (nz.take 32) s with
      | none => none
      | some (us, s) => zrunGroups W fuel (nz.drop 32) s (acc ++ us)

/-- The units of a block written out, all others zero. -/
def unitsToBytes (W U : Nat) (us : List (Nat × Nat)) : Bytes :=
  ((List.range U).foldl (fun (a : Bytes × List (Nat × Nat)) i =>
    match a.2 with
    | (j, v) :: r => if j = i then ((le W v).reverse ++ a.1, r) else (List.replicate W 0 ++ a.1, a.2)
    | [] => (List.replicate W 0 ++ a.1, [])) ([], us)).1.reverse

def decodeZrun (b : Block) : DecRes :=
  let W := zrunWidth b.typed b.fmt
  let U := b.logical / W
  match zrunRuns U (U + 2) 0 true true (bitSrc b.payload) [] with
  | .error long => .badLength long 0
  | .ok (nz, s) =>
    match zrunGroups W (U + 1) nz s [] with
    | none => .badLength false 0
    | some (us, s) => if padOk s then .ok (unitsToBytes W U us) else .badLength true b.logical

/-- TANS decoding, one byte a turn. -/
def tansLoop (ctxs : Array Ctx) (total : Nat) : Nat → Nat → Array Nat → BitSrc → Bytes → DecRes
  | 0, _, X, s, acc => if X.all (· == 0) && padOk s then .ok acc.reverse else .badLength true total
  | n + 1, i, X, s, acc =>
    let c := ctxs.getD (i % ctxs.size) ⟨#[], #[], #[], #[]⟩
    let u := X.getD (i % 32) 0
    match takeBits (c.nb.getD u 0) s with
    | none => .badLength false (i + 1)
    | some (v, s) =>
      tansLoop ctxs total n (i + 1) (X.setIfInBounds (i % 32) (c.base.getD u 0 + v)) s
        (BitVec.ofNat 8 (c.sym.getD u 0) :: acc)

def tableCtxs (t : TansTable) : Array Ctx :=
  if t.ctxs = 1 then #[buildCtx t.log t.count0] else #[buildCtx t.log t.count0, buildCtx t.log t.count1]

def decodeTans (t : TansTable) (b : Block) : DecRes :=
  let X := ((List.range 32).map fun k => fld b.payload (2 * k) 2).toArray
  if b.payload.length < 64 then .badLength false 0
  else if X.any fun x => 2 ^ t.log ≤ x then .badCheck 1 0
  else tansLoop (tableCtxs t) b.logical b.logical 0 X (bitSrc (b.payload.drop 64)) []

/-- A decode of a well-formed block against its table; the CHECK of the output is compared (R165). -/
def decodeWith (tab : Option TansTable) (b : Block) : DecRes :=
  let r : DecRes :=
    match b.coder with
    | 0 => if b.payload.length = 0 then .ok (List.replicate b.logical 0) else .badLength true 0
    | 1 => decodeZrun b
    | 2 => match tab with
      | none => .badCheck 1 0
      | some t => decodeTans t b
    | _ =>
      if b.payload.length < b.logical then .badLength false b.payload.length
      else if b.logical < b.payload.length then .badLength true b.logical else .ok b.payload
  match r with
  | .ok out => if crc32c out = b.check then .ok out else .badCheck 0 b.logical
  | _ => r

/-- A decode against a slice's table slots (R156, R165). -/
def decodeBlock (slots : Tab TSlot) (b : Block) : DecRes :=
  if malformed b then .badCheck 1 0
  else if b.coder != 2 then decodeWith none b
  else
    let t := tabGet ({} : TSlot) slots b.slot
    if t.state != 2 && t.state != 3 then .badCheck 1 0
    else if t.gen != b.gen then .badCheck 2 0
    else decodeWith t.table b

/-! ### Coding (05 R143 to R145, R149, R150) -/

/-- Bits as a list, most significant first. -/
def putBits (n v : Nat) : List Bool := (List.range n).map fun k => bit v (n - 1 - k)

/-- Bytes of a bit list, padded with zeros. -/
def packBits : Nat → List Bool → Bytes
  | 0, _ => []
  | fuel + 1, bs =>
    if bs.isEmpty then []
    else
      let h := bs.take 8
      BitVec.ofNat 8 ((h ++ List.replicate (8 - h.length) false).foldl (fun n b => 2 * n + b2n b) 0) ::
        packBits fuel (bs.drop 8)

def putExpGolomb (v : Nat) : List Bool :=
  let b := Nat.log2 (v + 1) + 1
  List.replicate (b - 1) false ++ putBits b (v + 1)

/-- Alternating runs of zero and non-zero units, the zero run first. -/
def runsOf : List Nat → Bool → Nat → List Nat
  | [], _, n => [n]
  | u :: us, zero, n => if (u == 0) == zero then runsOf us zero (n + 1) else n :: runsOf us (!zero) 1

def zrunGroupBits (W : Nat) (g : List Nat) : List Bool :=
  let f := g.headD 0
  let isC (p : Nat) : Bool := g.all fun u => bit u p == bit f p
  let cst := (List.range (8 * W)).foldl (fun n p => n + (if isC p then 2 ^ p else 0)) 0
  let val := (List.range (8 * W)).foldl (fun n p => n + (if isC p && bit f p then 2 ^ p else 0)) 0
  putBits (8 * W) cst ++ putBits (8 * W) val ++
    (List.range (8 * W)).reverse.flatMap fun p => if isC p then [] else g.map fun u => bit u p

def zrunGroupsBits (W : Nat) : Nat → List Nat → List Bool
  | 0, _ => []
  | fuel + 1, us => if us.isEmpty then [] else zrunGroupBits W (us.take 32) ++ zrunGroupsBits W fuel (us.drop 32)

def encodeZrun (typed : Bool) (fmt : Nat) (data : Bytes) : Bytes :=
  let W := zrunWidth typed fmt
  let us := (List.range (data.length / W)).map fun i => fld data (W * i) W
  let runs := runsOf us true 0
  let bs := (runs.zipIdx.flatMap fun r => putExpGolomb (if r.2 = 0 then r.1 else r.1 - 1)) ++
    zrunGroupsBits W (us.length + 1) (us.filter (· != 0))
  packBits (bs.length + 1) bs

/-- One byte coded by a lane (R149): the new state and the chunk. -/
def tansPut (c : Ctx) (log s x : Nat) : Nat × List Bool :=
  let n := c.count.getD s 0
  let k := (List.range (log + 1)).findIdx fun k => n ≤ x >>> k && x >>> k < 2 * n
  let t := x >>> k
  let occ := t - n
  let u := ((List.range (2 ^ log)).filter fun u => c.sym.getD u 0 == s).getD occ 0
  (2 ^ log + u, putBits k (x % 2 ^ k))

/-- Whether every byte can be coded in its context. -/
def tansCan (t : TansTable) (data : Bytes) : Bool :=
  data.zipIdx.all fun b => (if b.2 % t.ctxs = 0 then t.count0 else t.count1).getD b.1.toNat 0 != 0

def encodeTans (t : TansTable) (data : Bytes) : Bytes :=
  let L := 2 ^ t.log
  let ctxs := tableCtxs t
  let r := data.zipIdx.foldr (fun b (a : Array Nat × List Bool) =>
    let lane := b.2 % 32
    let p := tansPut (ctxs.getD (b.2 % t.ctxs) ⟨#[], #[], #[], #[]⟩) t.log b.1.toNat (a.1.getD lane L)
    (a.1.setIfInBounds lane p.1, p.2 ++ a.2)) (Array.replicate 32 L, [])
  (r.1.toList.flatMap fun x => le 2 (x - L)) ++ packBits (r.2.length + 1) r.2

/-- A block of given coding. -/
def mkBlock (coder ps kind fmt : Nat) (typed : Bool) (slot gen : Nat) (data payload : Bytes) : Block :=
  { coder := coder, strength := ps, fmt := fmt, typed := typed, kind := kind, slot := slot, gen := gen,
    sectors := sectorsFor ps payload.length, logical := data.length, payload := payload, check := crc32c data }

/-- RAW sectors of a 4 KiB block (05 R142). -/
def rawSectors (ps : Nat) : Nat := sectorsFor ps 4096

/-- The Condenser's choice (R150): `sel` is the valid encode selection of the block's class, its slot, generation and
table. -/
def condense (ps kind fmt : Nat) (typed : Bool) (sel : Option (Nat × Nat × TansTable)) (data : Bytes) : Block :=
  let raw := mkBlock 3 ps kind fmt typed 0 0 data data
  if data.all (· == 0) then mkBlock 0 ps kind fmt typed 0 0 data []
  else
    let z : List Block := if kind = 1 then [mkBlock 1 ps kind fmt typed 0 0 data (encodeZrun typed fmt data)] else []
    let t : List Block := match sel with
      | none => []
      | some (slot, gen, tb) => if tansCan tb data then [mkBlock 2 ps kind fmt typed slot gen data (encodeTans tb data)] else []
    match z ++ t with
    | [] => raw
    | b :: bs =>
      let w := bs.foldl (fun w c => if c.sectors < w.sectors then c else w) b
      if w.sectors < raw.sectors then w else raw

end Sys2Proof.Machine
end

