-- ==== Sys2Proof/Machine/Media.lean ====
section
/-! DEFINITION. Address mapping (10 R307-R316), homes and where they lie, allocation (10 R314, R338), the items that
have homes and what tenants are charged for them (06 R181-R182). -/
namespace Sys2Proof.Machine
open Sys2Proof

/-! ### The part (00 R4-R6, 10 R311-R313, 11 R372-R373) -/

/-- Fitted package positions of a slice. -/
def packages (c : Cfg) : List Nat := if c.half then [0, 2, 4] else [0, 1, 2, 3, 4, 5]

/-- A package position designated hot spare. -/
def isHotSpare (c : Cfg) (slice pos : Nat) : Bool :=
  pos == 4 &&
  (if c.slices = 8 then (if c.half then slice == 3 || slice == 7 else slice % 2 == 1)
   else if c.slices = 4 then !c.half && slice == 3 else false)

/-- The slice whose hot-spare package serves a slice (11 R373). -/
def hotSpareSlice (c : Cfg) (slice : Nat) : Option Nat :=
  if c.slices = 8 then some (if c.half then (if slice < 4 then 3 else 7) else slice / 2 * 2 + 1)
  else if c.slices = 4 then (if c.half then none else some 3) else none

/-- The spare pseudo-channel of a stack. -/
def spareOf (c : Cfg) (slice stack : Nat) : Nat := c.sparePc.getD (3 * slice + stack) 31

/-- Physical units of the T1 logical units of a slice, in order (10 R311). -/
def t1Units (c : Cfg) (slice : Nat) : List Nat :=
  (List.range 3).flatMap fun i => ((List.range 32).filter (· != spareOf c slice i)).map (32 * i + ·)

/-- Physical units of the T2 logical units of a slice, in order (10 R311). -/
def t2Units (c : Cfg) (slice : Nat) : List Nat :=
  ((packages c).filter fun j => !isHotSpare c slice j).flatMap fun j => (List.range 4).map (4 * j + ·)

def tierUnits (c : Cfg) (slice tier : Nat) : List Nat := if tier = 1 then t1Units c slice else t2Units c slice

/-- Logical units of a tier on a slice, P. -/
def unitCount (c : Cfg) (slice tier : Nat) : Nat := (tierUnits c slice tier).length

def dataRows (c : Cfg) : Nat := if c.slices = 2 then 24576 else if c.slices = 4 then 22528 else 21504

/-- Bytes of the MA space of a tier on a slice (10 R313). -/
def maSpace (c : Cfg) (slice tier : Nat) : Nat :=
  if tier = 1 then 93 * dataRows c * 65536 else unitCount c slice 2 * 2 ^ 35

/-- MA bytes of a partial-array segment of a slice. -/
def segBytes (c : Cfg) (slice : Nat) : Nat := unitCount c slice 2 * 2 ^ 32

def grainOf (c : Cfg) (tier : Nat) : Nat := if tier = 1 then c.t1Grain else c.t2Grain

/-- Exclusive-OR of a row taken 8 bits at a time. -/
def foldRow (row : Nat) : Nat := (row ^^^ (row >>> 8) ^^^ (row >>> 16)) % 256

/-- Logical unit and local address of an MA (10 R310). -/
def mapMa (c : Cfg) (slice tier ma : Nat) : Nat × Nat :=
  let g := grainOf c tier
  let P := unitCount c slice tier
  let s := ma >>> g
  let L := ((s / P) <<< g) + ma % 2 ^ g
  let h := if bit c.mapFlags (tier - 1) then foldRow (L >>> 16) else 0
  ((s % P + h) % P, L)

/-- Bank and row of a local address (10 R312): the bank counts stack IDs or ranks of sixteen banks. -/
def bankRow (c : Cfg) (tier L : Nat) : Nat × Nat :=
  let row := L >>> 16
  let four := if tier = 1 then bits L 13 10 else bits L 14 11
  let hi := if tier = 1 then bits L 15 14 else bits L 15 15
  let four := if bit c.mapFlags (1 + tier) then four ^^^ (row % 16) else four
  (16 * hi + four, row)

/-! ### Controllers -/

def ctlKey (c : Ctl) : Nat := c.slice * 256 + (c.tier - 1) * 128 + c.unit
def ctlOf (k : Nat) : Ctl := { slice := k / 256, tier := k % 256 / 128 + 1, unit := k % 128 }

def State.chan (s : State) (c : Ctl) : Chan := tabGet {} s.drc.chans (ctlKey c)
def State.modChan (s : State) (c : Ctl) (f : Chan → Chan) : State :=
  s.setDrc { s.drc with chans := tabMod {} s.drc.chans (ctlKey c) f }

/-- A controller is fitted on a slice in service. -/
def State.ctlFitted (s : State) (c : Ctl) : Bool :=
  s.up c.slice &&
  (if c.tier = 1 then c.unit < 96 else c.tier == 2 && c.unit < 24 && (packages s.cfg).contains (c.unit / 4))

/-- The physical controller of a logical unit, none where the unit is retired (10 R311, R314). -/
def State.physOf (s : State) (slice tier u : Nat) : Option Ctl :=
  let k := slice * 256 + (tier - 1) * 128 + u
  if s.drc.retired.contains k then none
  else match tabFind s.drc.remap k with
    | some c => some c
    | none => ((tierUnits s.cfg slice tier)[u]?).map fun p => { slice := slice, tier := tier, unit := p }

/-- The logical unit that a controller serves, with its slice. -/
def State.servedBy (s : State) (c : Ctl) : Option (Nat × Nat) :=
  let cand := s.drc.remap.filterMap fun e =>
    if e.2 == c && !s.drc.retired.contains e.1 then some (e.1 / 256, e.1 % 128) else none
  match cand with
  | x :: _ => some x
  | [] =>
    match (tierUnits s.cfg c.slice c.tier).findIdx? (· == c.unit) with
    | none => none
    | some u => if s.physOf c.slice c.tier u == some c then some (c.slice, u) else none

/-- STATE of a controller (10 R344): 0 ABSENT, 1 TRAINING, 2 IN_SERVICE, 3 FROZEN, 4 RETIRED, 5 SPARE. -/
def State.chanState (s : State) (c : Ctl) : Nat :=
  if !s.ctlFitted c then 0
  else match (s.chan c).override with
    | some x => x
    | none => if (s.servedBy c).isSome then 2
      else if (tierUnits s.cfg c.slice c.tier).contains c.unit then 4 else 5

/-- Frozen, or retraining after a freeze (R336, R340). -/
def State.frozen (s : State) (c : Ctl) : Bool := s.chanState c == 3 || (s.chanState c == 1 && (s.chan c).thawing.isSome)

/-! ### The two copies of the map region (10 R316) -/

def State.mapOf (s : State) (slice : Nat) : MapCopies := tabGet {} s.drc.maps slice
def State.modMap (s : State) (slice : Nat) (f : MapCopies → MapCopies) : State :=
  s.setDrc { s.drc with maps := tabMod {} s.drc.maps slice f }

/-- The logical unit of a copy: 0 the first, 1 the second. -/
def mapUnit (m : MapCopies) (k : Nat) : Nat := if k = 0 then m.unit0 else m.unit1

/-- The copies that a controller holds, as slice and number. -/
def State.mapsOn (s : State) (c : Ctl) : List (Nat × Nat) :=
  (List.range 8).flatMap fun n => ((List.range 2).filter fun k => s.physOf n 1 (mapUnit (s.mapOf n) k) == some c).map fun k => (n, k)

/-- The copies on a controller serve no longer, or serve again after a rewrite from the other copy. -/
def State.mapStale (s : State) (c : Ctl) (b : Bool) : State :=
  (s.mapsOn c).foldl (fun s x => s.modMap x.1 fun m => { m with stale := setBit m.stale x.2 b }) s

/-- Logical units of a tier on a slice that have no controller, or a frozen one. -/
def State.badUnits (s : State) (slice tier : Nat) : List Nat :=
  (List.range (unitCount s.cfg slice tier)).filter fun u =>
    match s.physOf slice tier u with
    | none => true
    | some c => s.frozen c

/-- Controller, bank, row and local address of an MA. -/
def State.mediaAt (s : State) (slice tier ma : Nat) : Option Ctl × Nat × Nat × Nat :=
  let (u, L) := mapMa s.cfg slice tier ma
  let (b, r) := bankRow s.cfg tier L
  (s.physOf slice tier u, b, r, L)

/-- The pieces of a home: first MA, logical unit and length of each stripe unit that it uses (10 R314). -/
def cover (c : Cfg) (slice tier : Nat) (skips : List Nat) : Nat → Nat → Nat → List (Nat × Nat × Nat)
  | 0, _, _ => []
  | fuel + 1, ma, len =>
    if len = 0 then []
    else
      let g := grainOf c tier
      let next := ((ma >>> g) + 1) <<< g
      let u := (mapMa c slice tier ma).1
      if skips.contains u then cover c slice tier skips fuel next len
      else
        let n := min len (next - ma)
        (ma, u, n) :: cover c slice tier skips fuel (ma + n) (len - n)

def coverFuel (c : Cfg) (tier len : Nat) (skips : List Nat) : Nat :=
  ((len >>> grainOf c tier) + 3) * (skips.length + 2)

/-- Bytes that a home holds. -/
def homeLen (h : Home) : Nat :=
  match h.blk with
  | none => 4096
  | some b => b.sectors * 256

/-- The pieces of a home in T1 or T2. -/
def homePieces (c : Cfg) (slice : Nat) (h : Home) : List (Nat × Nat × Nat) :=
  if h.tier ≤ 2 then cover c slice h.tier h.skips (coverFuel c h.tier (homeLen h) h.skips) h.ma (homeLen h) else []

/-- The end of the last piece. -/
def piecesEnd (start : Nat) (l : List (Nat × Nat × Nat)) : Nat :=
  match l.getLast? with
  | none => start
  | some p => p.1 + p.2.2

/-- The interval that a home takes. -/
def homeSpan (c : Cfg) (slice : Nat) (h : Home) : Nat × Nat :=
  if h.tier ≤ 2 then (h.ma, piecesEnd h.ma (homePieces c slice h)) else (h.ma, h.ma + homeLen h)

/-! ### Items -/

/-- The owning slice of a DPA (10 R309); 0 while no slice is in service. -/
def State.sliceOf (s : State) (dpa : Nat) : Nat :=
  s.rst.inService.getD ((dpa >>> s.cfg.sliceGrain) % max 1 s.rst.inService.length) 0

/-- The extent that holds a DPA, with its base. -/
def State.extentOf (s : State) (dpa : Nat) : Option (Nat × Extent) :=
  s.pool.extents.find? fun e => e.1 ≤ dpa && dpa < e.1 + e.2.len

def State.seq (s : State) (q : Nat) : Option Seq := tabFind s.eng.seqs q
def State.model (s : State) (h : Nat) : Option Model := tabFind s.eng.models h

/-- The entry of an item that exists. -/
def State.entOf (s : State) (i : Item) : Option Ent :=
  match i with
  | .page n => (tabFind s.pool.pages n).map (·.ent)
  | .tile h x => (s.model h).bind fun m => (m.tiles[x]?).map (·.ent)
  | .kv _ q l hd b => (s.seq q).bind fun z =>
      (z.kv.find? fun k => k.layer == l && k.head == hd && k.blk == b).map (·.ent)
  | .act q n i b => (s.seq q).bind fun z => (z.acts.find? fun a => a.slice == n && a.buf == i && a.blk == b).map (·.ent)
  | .mapLine _ _ _ => none

/-- A change of an item's entry. -/
def State.modEnt (s : State) (i : Item) (f : Ent → Ent) : State :=
  match i with
  | .page n => s.modPage n fun p => { p with ent := f p.ent }
  | .tile h x =>
    match s.model h with
    | none => s
    | some m =>
      let m' : Model := { m with tiles := m.tiles.zipIdx.map fun t => if t.2 = x then { t.1 with ent := f t.1.ent } else t.1 }
      s.setEng { s.eng with models := tabSet s.eng.models h m' }
  | .kv _ q l hd b =>
    match s.seq q with
    | none => s
    | some z =>
      let z' : Seq := { z with kv := z.kv.map fun k =>
        if k.layer == l && k.head == hd && k.blk == b then { k with ent := f k.ent } else k }
      s.setEng { s.eng with seqs := tabSet s.eng.seqs q z' }
  | .act q n i b =>
    match s.seq q with
    | none => s
    | some z =>
      let z' : Seq := { z with acts := z.acts.map fun a =>
        if a.slice == n && a.buf == i && a.blk == b then { a with ent := f a.ent } else a }
      s.setEng { s.eng with seqs := tabSet s.eng.seqs q z' }
  | .mapLine _ _ _ => s

/-- The slice that holds an item. -/
def State.itemSlice (s : State) (i : Item) : Nat :=
  match i with
  | .page n => s.sliceOf (n * 4096)
  | .tile h x => (((s.model h).bind fun m => m.tiles[x]?).map (·.slice)).getD 0
  | .kv _ q l hd b => (((s.seq q).bind fun z =>
      z.kv.find? fun k => k.layer == l && k.head == hd && k.blk == b).map (·.slice)).getD 0
  | .act _ n _ _ => n
  | .mapLine n _ _ => n

/-- KIND of an item's block (05 R136). -/
def itemKind (i : Item) : Nat :=
  match i with
  | .page _ | .mapLine _ _ _ => 0
  | .act _ _ _ _ => 1
  | .kv _ _ _ _ _ => 2
  | .tile _ _ => 3

/-- The tenant that an item is charged to. -/
def State.itemTenant (s : State) (i : Item) : Nat :=
  match i with
  | .page n => ((s.extentOf (n * 4096)).map (·.2.owner)).getD 0
  | .tile h _ => ((s.model h).map (·.tenant)).getD 0
  | .kv h _ _ _ _ => ((s.model h).map (·.tenant)).getD 0
  | .act q _ _ _ => ((s.seq q).map (·.tenant)).getD 0
  | .mapLine _ _ _ => 0

/-- PLACEMENT and REMOTE_OK of an item: of its extent, or of its tile; KV blocks are placed AUTO, and an ACTIVATION block has its
home in T2 alone (06 R171). -/
def State.itemPlace (s : State) (i : Item) : Nat × Bool :=
  match i with
  | .page n => ((s.extentOf (n * 4096)).map fun e => (e.2.policy.placement, e.2.policy.remoteOk)).getD (2, false)
  | .tile h x => (((s.model h).bind fun m => m.tiles[x]?).map fun t => (t.place, t.remoteOk)).getD (2, false)
  | .kv _ _ _ _ _ => (2, false)
  | .act _ _ _ _ => (3, false)
  | .mapLine _ _ _ => (0, false)

/-- LOCATOR of a record (05 R167). -/
def State.locator (s : State) (i : Item) : Nat :=
  match i with
  | .page n => n * 4096
  | .tile h x =>
    s.itemTenant i + 65536 * h + 2 ^ 32 * (((s.model h).bind fun m => m.tiles[x]?).map (·.layer)).getD 0xFFFF
  | .kv h _ l _ _ => s.itemTenant i + 65536 * h + 2 ^ 32 * l
  | .act q _ _ _ => s.itemTenant i + 65536 * ((s.seq q).map (·.handle)).getD 0xFFFF + 2 ^ 32 * 0xFFFF
  | .mapLine _ _ _ => 0

/-- The move of an item that is under way. -/
def State.moveOf (s : State) (i : Item) : Option Move := s.pool.moves.find? fun m => m.item == i

/-- Two KV blocks hold the same place of their sequence. -/
def KvBlk.same (a b : KvBlk) : Bool := a.layer == b.layer && a.head == b.head && a.blk == b.blk

/-- KV blocks of a running step's sequences as they stood at admission, whose content the step has replaced since: they return if it
stops early (04 R128). -/
def State.keptKv (s : State) (x : StepSt) : List KvBlk :=
  x.before.flatMap fun z => z.2.kv.filter fun k => !(s.seq z.1).any fun now => now.kv.any fun n => n.same k && n.data == k.data

/-- Every home of the module with its slice: pages, tiles and their old versions, KV blocks and those that a step may bring back,
ACTIVATION blocks, and what moves. -/
def State.homes (s : State) : List (Nat × Home) :=
  (s.pool.pages.filterMap fun p => p.2.ent.home.map fun h => (s.sliceOf (p.1 * 4096), h)) ++
  (s.eng.models.flatMap fun m => m.2.tiles.filterMap fun t => t.ent.home.map fun h => (t.slice, h)) ++
  (s.eng.oldTiles.filterMap fun t => t.2.2.2.ent.home.map fun h => (t.2.2.2.slice, h)) ++
  (s.eng.seqs.flatMap fun z => z.2.kv.filterMap fun k => k.ent.home.map fun h => (k.slice, h)) ++
  (s.eng.seqs.flatMap fun z => z.2.acts.filterMap fun a => a.ent.home.map fun h => (a.slice, h)) ++
  (s.eng.steps.flatMap fun e => (s.keptKv e.2).filterMap fun k => k.ent.home.map fun h => (k.slice, h)) ++
  (s.eng.loads.flatMap fun l => l.model.tiles.filterMap fun t => t.ent.home.map fun h => (t.slice, h)) ++
  (s.pool.moves.map fun m => (s.itemSlice m.item, m.dest))

/-- The slice that backs a granule of a lend window: the set slices of its mask in turn (08 R262). -/
def lendSlice (mask j : Nat) : Option Nat :=
  let l := (List.range 8).filter (bit mask)
  l[j % max 1 l.length]?

/-- Bytes at the top of a tier's MA space of a slice for the map, program and offer regions. -/
def topFixed (c : Cfg) (slice tier : Nat) : Nat :=
  if tier = 1 then 2 * (c.mapWords * 4) + c.programMib * 2 ^ 20 + (if slice = 0 then 48 * 2 ^ 20 else 0) else 0

/-- Bytes at the top of a tier's MA space of a slice that homes never take: in T1 both copies of the map region, the program region
and on SL0 the offer buffer (06 R174, 10 R316, 03 R79, 14 R480); in both, the slice's granules of valid lend windows (08 R262),
whose granule is 1 GiB. -/
def State.topReserved (s : State) (slice tier : Nat) : Nat :=
  let fixed := topFixed s.cfg slice tier
  let lent := (s.fab.lw.filter fun w => w.2.valid && w.2.tier == tier).foldl
    (fun n w => n + ((List.range w.2.size).filter fun j => lendSlice w.2.mask j == some slice).length * 2 ^ 30) 0
  fixed + lent

/-- The slice and the place in its media of a lend window's byte: granules stand below the regions at the top, by window
and granule (log 23). -/
def State.lentAt (s : State) (w off : Nat) : Option (Nat × Home) :=
  let x := tabGet ({} : LendWin) s.fab.lw w
  let j := off / 2 ^ 30
  (lendSlice x.mask j).map fun n =>
    let upTo (y : Nat × LendWin) : Nat :=
      ((List.range (if y.1 = w then j + 1 else y.2.size)).filter fun g => lendSlice y.2.mask g == some n).length
    let k := (s.fab.lw.filter fun y => y.2.valid && y.2.tier == x.tier && y.1 ≤ w).foldl (fun a y => a + upTo y) 0
    (n, { tier := x.tier, ma := maSpace s.cfg n x.tier - topFixed s.cfg n x.tier - k * 2 ^ 30 + off % 2 ^ 30 })

/-- A stretch of a lend window lies on one of some logical units of a slice. -/
def State.lentOn (s : State) (w off len : Nat) (us : List (Nat × Nat)) : Bool :=
  (s.lentAt w off).any fun p =>
    (homePieces s.cfg p.1 p.2).any fun q => q.1 < p.2.ma + len && us.contains (p.1, q.2.1)

/-- Logical units lose what they hold: lent sectors on them read as poison until they are written (08 R262, 11 R358). -/
def State.lentLost (s : State) (slice tier : Nat) (us : List Nat) : State :=
  let l := us.map fun u => (slice, u)
  let put (w : Nat × LendWin) : Nat × LendWin :=
    if !w.2.valid || w.2.tier != tier || !bit w.2.mask slice then w
    else (w.1, { w.2 with gone := w.2.gone ++ l, fresh := w.2.fresh.filter fun k => !s.lentOn w.1 (256 * k) 256 l })
  s.setFab { s.fab with lw := s.fab.lw.map put }

/-- Intervals of a tier's MA space of a slice that homes take; in T3 and T4, of a window or tray. -/
def State.used (s : State) (slice tier unit : Nat) : List (Nat × Nat) :=
  s.homes.filterMap fun e =>
    if e.2.tier == tier && (if tier ≤ 2 then e.1 == slice else e.2.unit == unit) then some (homeSpan s.cfg e.1 e.2) else none

def roundUp (n k : Nat) : Nat := (n + k - 1) / k * k

/-- The lowest start at or above one where a home of `len` bytes fits (DESIGN CHOICE, log 13), with the logical units
that it skips (10 R314, R338). `avoid` are the units that a T1 home must not use. -/
def State.fitFrom (s : State) (slice tier len align lim : Nat) (used : List (Nat × Nat)) (skips avoid : List Nat) :
    Nat → Nat → Option (Nat × List Nat)
  | 0, _ => none
  | fuel + 1, start =>
    let ps := cover s.cfg slice tier skips (coverFuel s.cfg tier len skips) start len
    let a := ((ps.head?).map (·.1)).getD start
    let e := piecesEnd start ps
    let seg := segBytes s.cfg slice
    if lim < e || ps.isEmpty then none
    else if tier = 2 && (a / seg != (e - 1) / seg || !bit (s.drcReg slice).keep (a / seg) || bit (s.drcReg slice).evac (a / seg)) then
      s.fitFrom slice tier len align lim used skips avoid fuel ((a / seg + 1) * seg)
    else match used.find? fun u => a < u.2 && u.1 < e with
      | some u => s.fitFrom slice tier len align lim used skips avoid fuel (roundUp (max u.2 (a + 1)) align)
      | none => match ps.find? fun p => avoid.contains p.2.1 with
        | some p => s.fitFrom slice tier len align lim used skips avoid fuel (roundUp (p.1 + p.2.2) align)
        | none => match (s.eccReg slice).retire.find? fun r => r.1 == tier && a < (r.2 + 1) * 256 && r.2 * 256 < e with
          | some r => s.fitFrom slice tier len align lim used skips avoid fuel (roundUp ((r.2 + 1) * 256) align)
          | none =>
            let within := skips.filter fun u => (cover s.cfg slice tier [] (coverFuel s.cfg tier (e - a) []) a (e - a)).any fun p => p.2.1 == u
            some (a, within)

/-- A place for `len` bytes in T1 or T2 of a slice. -/
def State.alloc (s : State) (slice tier len : Nat) : Option (Nat × List Nat) :=
  let used := s.used slice tier 0
  let bad := s.badUnits slice tier
  let lim := maSpace s.cfg slice tier - s.topReserved slice tier
  if !s.up slice || lim = 0 || (bad.length = unitCount s.cfg slice tier) then none
  else s.fitFrom slice tier len (if tier = 1 && len = 4096 then 4096 else 256) lim used
    (if tier = 2 then bad else []) (if tier = 1 then bad else [])
    (2 * used.length + 2 * (s.eccReg slice).retire.length + 512) 0

/-- The granules of a window or tray that a slice may use (08 R263, R273): granule `first + j` goes to the in-service
slices in turn. -/
def State.ownGranules (s : State) (slice first size : Nat) : List Nat :=
  let l := s.rst.inService
  (List.range size).filter fun j => l[(first + j) % max 1 l.length]? == some slice

/-- The lowest place for `len` bytes in the slice's granules of a window or tray. -/
def State.allocFar (s : State) (slice tier unit first size len : Nat) : Option Nat :=
  let used := s.used slice tier unit
  let own := s.ownGranules slice first size
  let starts := (own.map (· * 2 ^ 30)) ++ used.map (·.2)
  let free := starts.filter fun a =>
    own.contains (a / 2 ^ 30) && (a + len - 1) / 2 ^ 30 == a / 2 ^ 30 && !(used.any fun u => a < u.2 && u.1 < a + len)
  match free with
  | [] => none
  | a :: l => some (l.foldl min a)

/-! ### Charges (06 R181, R182) -/

def ratioNum (a : Nat) : Nat × Nat := match a with | 0 => (1, 1) | 1 => (3, 2) | 2 => (2, 1) | _ => (3, 1)

/-- Pages of an extent that have an entry. -/
def State.pagesIn (s : State) (base len : Nat) : List (Nat × Page) :=
  s.pool.pages.filter fun p => base ≤ p.1 * 4096 && p.1 * 4096 < base + len

/-- RAW stored bytes at which an extent's reservation is reckoned (R182). -/
def State.extentRaw (s : State) (base : Nat) (e : Extent) : Nat :=
  let own := rawSectors e.policy.strength
  let big := (s.pagesIn base e.len).any fun p => match p.2.ent.home with
    | some h => match h.blk with
      | some b => own < rawSectors b.strength
      | none => false
    | none => false
  256 * (if big then rawSectors 7 else own)

/-- The reservation of an extent in bytes: P x RAW / A, rounded up to a whole sector (R182). -/
def reservation (len raw assured : Nat) : Nat :=
  let (n, d) := ratioNum assured
  let x := (len / 4096) * raw * d
  roundUp ((x + n - 1) / n) 256

def State.extentReservation (s : State) (base : Nat) (e : Extent) : Nat :=
  reservation e.len (s.extentRaw base e) e.policy.assured

/-- Stored bytes of an extent's pages below T1. -/
def State.extentStored (s : State) (base : Nat) (e : Extent) : Nat :=
  (s.pagesIn base e.len).foldl (fun n p => match p.2.ent.home with
    | some h => if 2 ≤ h.tier then n + homeLen h else n
    | none => n) 0

/-- Stored bytes of an extent's pages homed in a tier. -/
def State.extentIn (s : State) (base len tier : Nat) : Nat :=
  (s.pagesIn base len).foldl (fun n p => match p.2.ent.home with
    | some h => if h.tier = tier then n + homeLen h else n
    | none => n) 0

/-- The parts of an extent's reservation now, in T2, T3 and T4: as they were split, less what a smaller RAW size has given back
since (R182), which leaves T4 first, then T3, then T2 (log 94). -/
def State.partsNow (s : State) (base : Nat) (e : Extent) : Nat × Nat × Nat :=
  let back := e.t2Part + e.t3Part + e.t4Part - s.extentReservation base e
  let d4 := min back e.t4Part
  let d3 := min (back - d4) e.t3Part
  (e.t2Part - (back - d4 - d3), e.t3Part - d3, e.t4Part - d4)

/-- Charge of an extent in a tier (R181). A page that the policy would no longer place in its tier keeps its charge there until it
moves (R180). -/
def State.extentCharge (s : State) (base : Nat) (e : Extent) (tier : Nat) : Nat :=
  let pin := e.policy.placement == 0
  let p := s.partsNow base e
  match tier with
  | 1 => if pin then e.len else s.extentIn base e.len 1
  | 2 => if pin then s.extentIn base e.len 2 else p.1
  | 3 => if pin || !e.policy.remoteOk then s.extentIn base e.len 3 else p.2.1
  | _ => if pin || !e.policy.remoteOk then s.extentIn base e.len 4 else p.2.2

/-- Bytes that an item in a home takes of a tier's quota (R181): a page 4,096 B of T1, a KV block its RAW size, a tile its stored
size. -/
def State.itemNeed (s : State) (i : Item) (h : Home) : Nat :=
  match i with
  | .page _ => 4096
  | .kv m _ _ _ _ => ((s.model m).map fun x => rawSectors x.kvStrength * 256).getD (homeLen h)
  | _ => homeLen h

/-- Bytes that an item under way into another tier takes there: a page of a reservation takes T1 alone. -/
def State.moveNeed (s : State) (m : Move) : Nat :=
  match m.item with
  | .page _ => if m.dest.tier = 1 then 4096 else 0
  | i => s.itemNeed i m.dest

/-- Charge of a tenant in a tier, in bytes (R181). -/
def State.charge (s : State) (t tier : Nat) : Nat :=
  let ext := s.pool.extents.foldl (fun n e => if e.2.owner != t then n else n + s.extentCharge e.1 e.2 tier) 0
  let mv := (s.pool.moves.filter fun m =>
      m.dest.tier == tier && s.itemTenant m.item == t && (((s.entOf m.item).bind (·.home)).map (·.tier)) != some tier &&
      (s.itemPlace m.item).1 != 0).foldl (fun n m => n + s.moveNeed m) 0
  let act := if tier = 2 then s.eng.seqs.foldl (fun n z =>
      if z.2.tenant = t then n + z.2.acts.length * (rawSectors 2 * 256) else n) 0 else 0
  let mdl := s.eng.models.foldl (fun n m =>
    if m.2.tenant != t then n
    else n + (if tier = 1 then m.2.kvT1 else if tier = 2 then m.2.kvT2 else 0) +
      m.2.tiles.foldl (fun k x => match x.ent.home with
        | some h => if h.tier = tier then k + homeLen h else k
        | none => k) 0) 0
  let old := s.eng.oldTiles.foldl (fun n x =>
    match s.model x.1, x.2.2.2.ent.home with
    | some m, some h => if m.tenant = t && h.tier = tier then n + homeLen h else n
    | _, _ => n) 0
  let ld := s.eng.loads.foldl (fun n l =>
    if l.tenant != t then n
    else n + (if tier = 1 then l.model.kvT1 else if tier = 2 then l.model.kvT2 else 0) +
      l.model.tiles.foldl (fun k x => match x.ent.home with
        | some h => if h.tier = tier then k + homeLen h else k
        | none => k) 0) 0
  ext + mv + act + mdl + old + ld

/-- Quota of a tenant in a tier, in bytes. -/
def State.quotaBytes (s : State) (t tier : Nat) : Nat :=
  let q := s.quota t
  (match tier with | 1 => q.t1 | 2 => q.t2 | 3 => q.t3 | _ => q.t4) * 2 ^ 20

/-- Quota left to a tenant in a tier. -/
def State.quotaLeft (s : State) (t tier : Nat) : Nat := s.quotaBytes t tier - s.charge t tier

end Sys2Proof.Machine
end

