-- ==== Sys2Proof/Machine/Load.lean ====
section
/-! DEFINITION. Deliverable figures, scale factors, DevLoad (09 R285, R292-R299), link containment (12 R404-R408) and
the responses of CXL.mem (01 R14, 09 R292). -/
namespace Sys2Proof.Machine
open Sys2Proof

/-! ### Deliverable figures and scale factors (09 R294, R298, R299) -/

/-- Parity groups (11 R374): the number of a stack's group and its position there. -/
def parityGroup (c : Cfg) (slice stack : Nat) : Nat × Nat := if c.slices = 8 then (stack, slice) else (0, 3 * slice + stack)

def hasParity (c : Cfg) : Bool := c.slices != 2

/-- A rebuild of a unit of slice `own` takes bandwidth on a slice and tier (11 R379). -/
def takesPart (c : Cfg) (own : Nat) (r : Rebuild) (slice tier : Nat) : Bool :=
  r.running &&
  match r.kind with
  | 0 => tier == 1 && (slice == own || (r.source == 0 && hasParity c))
  | 1 => tier == 1 && (slice != own || c.slices == 4)
  | _ => tier == 2 && (slice == own || hotSpareSlice c own == some slice)

/-- Rebuild traffic on a slice and tier in MB/s. -/
def State.rebuildMbps (s : State) (slice tier : Nat) : Nat :=
  let part := (List.range 8).any fun o => (s.eccReg o).rebuilds.any fun r => takesPart s.cfg o r slice tier
  if !part then 0 else if tier = 1 then (s.eccReg slice).rebuildT1 * 1000 else (s.eccReg slice).rebuildT2 * 1000

/-- Doubled refresh on some stack or some package of a slice. -/
def State.doubled (s : State) (slice tier : Nat) : Bool :=
  if tier = 1 then (s.drcReg slice).t1Doubled != 0 else (s.drcReg slice).t2Doubled != 0

/-- Logical units of T2 that are retired on a slice. -/
def State.retiredT2 (s : State) (slice : Nat) : Nat :=
  (s.drc.retired.filter fun k => k / 256 == slice && k % 256 / 128 == 1).length

/-- The deliverable figure in MB/s (R294). Doubled refresh of stacks lowers T1, that of packages T2 (log 14). -/
def State.deliverable (s : State) (slice tier : Nat) : Nat :=
  let peak := if tier = 1 then 4608000 - 1536000 * (s.eccReg slice).failedStacks.length
    else (if s.cfg.half then 230400 else 460800) - 19200 * s.retiredT2 slice
  let pct := if tier = 1 then (if s.doubled slice 1 then 80 else 85) else (if s.doubled slice 2 then 75 else 80)
  peak * pct / 100 - s.rebuildMbps slice tier

/-- Sum of the floors of every class in a tier, as admitted. -/
def State.floorSum (s : State) (tier : Nat) : Nat :=
  (List.range 16).foldl (fun n k => n + (if tier = 1 then (s.cls k).t1Floor else (s.cls k).t2Floor)) 0

def State.factorFor (s : State) (slice tier : Nat) : Nat :=
  let f := s.floorSum tier
  if f = 0 then 1024 else min 1024 (1024 * s.deliverable slice tier / f)

/-- Scale factors of a slice: T1, T2, T0. -/
def State.factors (s : State) (slice : Nat) : Nat × Nat × Nat := tabGet (1024, 1024, 1024) s.qos.scale slice

def State.factor (s : State) (slice tier : Nat) : Nat :=
  if tier = 1 then (s.factors slice).1 else if tier = 2 then (s.factors slice).2.1 else (s.factors slice).2.2

/-- A GUARANTEE_SCALED record (R299). -/
def State.scaledRecord (s : State) (slice tier cause new old sum figure : Nat) : State :=
  s.record (if new < old then 1 else 0) 0x000E
    (flds [(1, slice), (1, tier), (1, cause), (1, 0), (2, new), (2, old), (4, sum), (4, figure), (8, s.tbc)])

/-- The factor of a slice and tier set anew; a change is recorded (R298, R299). -/
def State.rescaleTier (s : State) (slice cause tier : Nat) : State :=
  let old := s.factor slice tier
  let new := s.factorFor slice tier
  if old = new then s
  else
    let f := s.factors slice
    let f' := if tier = 1 then (new, f.2.1, f.2.2) else (f.1, new, f.2.2)
    (s.setQos { s.qos with scale := tabSet s.qos.scale slice f' }).scaledRecord slice tier cause new old
      (s.floorSum tier) (s.deliverable slice tier)

def State.rescale (s : State) (slice cause : Nat) : State :=
  if s.up slice then (s.rescaleTier slice cause 1).rescaleTier slice cause 2 else s

def State.rescaleAll (s : State) (cause : Nat) : State := s.upSlices.foldl (fun s n => s.rescale n cause) s

/-! ### Use and entitlement (09 R285, R292) -/

def useKey (slice tier cls : Nat) : Nat := slice * 64 + tier * 16 + cls

/-- Accesses of the last 10 microseconds. -/
def State.recent (s : State) (l : List (Nat × Nat)) : List (Nat × Nat) := l.filter fun e => s.tbc < e.1 + 10 * us

/-- Bytes moved at the DRAM interface. -/
def State.moved (s : State) (slice tier cls bytes : Nat) : State :=
  let k := useKey slice tier cls
  s.setQos { s.qos with use := tabSet s.qos.use k (s.recent (tabGet [] s.qos.use k) ++ [(s.tbc, bytes)]) }

/-- Rate of a class on a slice and tier in MB/s over the last 10 microseconds; the traffic of rebuilds is in SYS_CLASS (R282). -/
def State.rateMbps (s : State) (slice tier cls : Nat) : Nat :=
  (s.recent (tabGet [] s.qos.use (useKey slice tier cls))).foldl (fun n e => n + e.2) 0 / 10 +
    (if cls = s.qos.sysClass then s.rebuildMbps slice tier else 0)

/-- Entries of a class queued on a slice, in the bank queues and the ingress queue; of one tier where it is not 0. -/
def State.queuedOf (s : State) (slice tier cls : Nat) : Nat :=
  let on (k : Nat) : Bool := (ctlOf k).slice == slice && (tier == 0 || (ctlOf k).tier == tier)
  s.drc.chans.foldl (fun n e => if on e.1 then n + (e.2.queue.filter fun q => q.cls == cls).length else n) 0 +
    (s.drc.ingress.filter fun e => on e.1 && e.2.cls == cls).length

/-- Entitlement of a class in MB/s (R285): its scaled floor and its part of the spare, at most its ceiling. -/
def State.entitlement (s : State) (slice tier cls : Nat) : Nat :=
  let pend := (List.range 16).filter fun k => k == cls || 0 < s.queuedOf slice tier k
  let floorOf := fun k => (if tier = 1 then (s.cls k).t1Floor else (s.cls k).t2Floor) * s.factor slice tier / 1024
  let spare := s.deliverable slice tier - pend.foldl (fun n k => n + floorOf k) 0
  let wsum := pend.foldl (fun n k => n + (s.cls k).weight) 0
  min (floorOf cls + spare * (s.cls cls).weight / max 1 wsum) (if tier = 1 then (s.cls cls).t1Ceil else (s.cls cls).t2Ceil)

/-- Banks of a slice (10 R312): 64 a logical unit in T1 and 32 in T2. -/
def bankCount (c : Cfg) (slice : Nat) : Nat := 64 * unitCount c slice 1 + 32 * unitCount c slice 2

/-! ### Hosts, buckets, DevLoad (09 R279, R291, R292) -/

def State.hostRec (s : State) (h : Nat) : Option HostRec := tabFind s.qos.hosts h

/-- The LIMIT_MBPS under which a bucket refills: that of the first request it holds, which arrived under it, else the record's
(R281). -/
def bucketRate (r : HostRec) : Nat := match r.held with | x :: _ => x.2.2 | [] => r.limit

/-- Thousandths of a byte that one request takes from a bucket: 64 B. -/
def token : Nat := 64000

/-- Tokens of a bucket now, in thousandths of a byte: LIMIT_MBPS of them a nanosecond, up to the burst. -/
def bucketNow (r : HostRec) (tbc : Nat) : Nat :=
  min (r.burst * 1024000) (r.tokens + bucketRate r * (tbc - r.tokensAt))

/-- A tenant has a held write; it draws on the device reserve (06 R201). -/
def State.tenantHeld (s : State) (t : Nat) : Bool := s.pool.held.any fun w => s.itemTenant (.page (w.line / 64)) == t
def State.tenantReserve (s : State) (t : Nat) : Bool :=
  s.pool.draws.any fun d => d.1 / 8 == t && 0 < d.2.reserve

/-- The bucket has been short of a request's tokens for 10 microseconds. -/
def bucketEmpty (r : HostRec) (tbc : Nat) : Bool :=
  match r.emptySince with
  | some t => bucketNow r tbc < token && t + 10 * us ≤ tbc
  | none => false

/-- DevLoad of a response (R292), none on a link that carries no such field; `cls` is the class of the request. -/
def State.devLoad (s : State) (link host cls slice tier : Nat) : Option Nat :=
  if (s.port link).cxlGen < 2 then none
  else match s.hostRec host with
    | none => some 0
    | some r =>
      let occ := 100 * s.queuedOf slice 0 cls
      let cap := (s.cls cls).qMax * bankCount s.cfg slice
      if s.tenantHeld r.tenant || bucketEmpty r s.tbc || s.qos.severe * cap ≤ occ then some 3
      else if s.tenantReserve r.tenant || (r.limit != 0 && bucketNow r s.tbc * 4 < r.burst * 1024000) || s.qos.mod * cap ≤ occ then some 2
      else if occ < s.qos.light * cap && 2 * s.rateMbps slice tier cls < s.entitlement slice tier cls then some 0
      else some 1

/-! ### Containment (12 R404-R408) -/

/-- The payload of a PORT_FROZEN record. -/
def State.frozenRecord (s : State) (l cause event : Nat) : Bytes :=
  let p := s.port l
  flds [(1, l / 2 + 4 * (l % 2)), (1, cause), (1, event), (1, p.cxlGen), (4, p.poisonCount), (4, p.frozenDiscarded),
    (4, p.aerUncor), (8, s.tbc)]

/-- The PORT vector of every PF0 but that of one link. -/
def State.signalOthers (s : State) (l : Nat) : State :=
  ((links s.cfg).filter (· != l)).foldl (fun s k => s.signal (.pf0 k) 7) s

/-- A link that is up freezes (R405); a link with Viral_Enable signals viral before a freeze of cause VIRAL_OUT (R411). -/
def State.freezePort (s : State) (l cause : Nat) : State :=
  let p := s.port l
  if !linkFitted s.cfg l || p.link != 2 || p.frozen then s
  else
    let s := if cause = 5 && p.viralEnable then s.emit (.viral l) else s
    let s := s.modPort l fun p => { p with frozen := true, freezeCause := cause, freezes := p.freezes + 1, frozenDiscarded := 0 }
    (s.record 2 0x0013 (s.frozenRecord l cause 0)).signalOthers l

/-- The poison count of a link restarts at each millisecond of TBC, where a new POISON_STORM comes into force. -/
def State.poisonTick (s : State) (l : Nat) : State :=
  if (s.port l).countMs < s.tbc / ms then
    s.modPort l fun p => { p with countMs := s.tbc / ms, poisonCount := 0, stormNow := p.storm }
  else s

/-- One event of the poison count (R404). -/
def State.poisonEvent (s : State) (l : Nat) : State :=
  let s := (s.poisonTick l).modPort l fun p => { p with poisonCount := p.poisonCount + 1 }
  let p := s.port l
  if p.stormNow != 0 && p.stormNow < p.poisonCount then s.freezePort l 3 else s

/-! ### Responses of CXL.mem -/

/-- A read response; none is poison, whose data mean nothing. -/
def State.respondRead (s : State) (r : RReq) (tier : Nat) (data : Option Bytes) : State :=
  let dl := s.devLoad r.link r.host r.cls (s.sliceOf r.dpa) tier
  if !s.linkOpen r.link then s
  else
    let s' := s.emit (.readData r.link r.pbr r.dpa (data.getD []) data.isNone r.grant dl)
    if data.isNone then
      (s'.modPort r.link fun p => { p with poisonSent := p.poisonSent + 1 }).poisonEvent r.link
    else s'

/-- The completion of a write to its host. -/
def State.respondWrite (s : State) (link : Nat) (pbr : Option Nat) (host cls dpa tier : Nat) : State :=
  let dl := s.devLoad link host cls (s.sliceOf dpa) tier
  s.send link (.completion link pbr dpa dl)

/-- The write completes to its host, unless it already has. -/
def State.complete (s : State) (w : WReq) (tier : Nat) : State :=
  match w.done, w.link with
  | false, some l => s.respondWrite l w.pbr w.host w.cls (w.line * 64) tier
  | _, _ => s

/-! ### Host accesses at the controllers (10 R317, R336) -/

/-- A host access is over: its read is answered, its write completes. -/
def State.endJob (s : State) (k : Nat) (poison : Bool) : State :=
  match tabFind s.drc.jobs k with
  | none => s
  | some j =>
    let s := s.setDrc { s.drc with jobs := tabDel s.drc.jobs k }
    match j.read, j.write with
    | some r, _ => s.respondRead r j.tier (if poison then none else j.data)
    | none, some w => s.complete w j.tier
    | none, none => s

/-- One entry of a host access has gone: issued, of a read; in its bank queue, of a write. -/
def State.jobStep (s : State) (k : Option Nat) : State :=
  match k with
  | none => s
  | some k =>
    match tabFind s.drc.jobs k with
    | none => s
    | some j =>
      if j.left ≤ 1 then s.endJob k false
      else s.setDrc { s.drc with jobs := tabSet s.drc.jobs k { j with left := j.left - 1 } }

/-- A host access at so many entries; with none it is over at once. -/
def State.addJob (s : State) (j : Job) : Nat × State :=
  (s.drc.nextJob, s.setDrc { s.drc with jobs := tabSet s.drc.jobs s.drc.nextJob j, nextJob := s.drc.nextJob + 1 })

end Sys2Proof.Machine
end

