-- ==== Sys2Proof/Machine/Far.lean ====
section
/-! DEFINITION. What the module sends over the Periscope fabric and to trays: messages and flits (08 R244-R251), reads
and writes of T3 and T4 homes (08 R253, R263, 12 R414). -/
namespace Sys2Proof.Machine
open Sys2Proof

/-! ### Flits (08 R244, R245) -/

/-- An element of GF(2^8), with x^8 + x^4 + x^3 + x^2 + 1, times x. -/
def gf8Dbl (a : Nat) : Nat := (2 * a % 256) ^^^ (a / 128 * 0x1D)

/-- Multiplication in GF(2^8). -/
def gf8Mul (a b : Nat) : Nat :=
  let a1 := gf8Dbl a
  let a2 := gf8Dbl a1
  let a3 := gf8Dbl a2
  let a4 := gf8Dbl a3
  let a5 := gf8Dbl a4
  let a6 := gf8Dbl a5
  let a7 := gf8Dbl a6
  (b % 2 * a) ^^^ (b / 2 % 2 * a1) ^^^ (b / 4 % 2 * a2) ^^^ (b / 8 % 2 * a3) ^^^ (b / 16 % 2 * a4) ^^^ (b / 32 % 2 * a5) ^^^
    (b / 64 % 2 * a6) ^^^ (b / 128 % 2 * a7)

/-- Powers of α = 2. -/
def gf8Pow : Nat → Nat
  | 0 => 1
  | n + 1 => gf8Mul (gf8Pow n) 2

/-- The inverse of a non-zero element: its power 254. -/
def gf8Inv (a : Nat) : Nat :=
  let a2 := gf8Mul a a
  let a4 := gf8Mul a2 a2
  let a8 := gf8Mul a4 a4
  let a16 := gf8Mul a8 a8
  let a32 := gf8Mul a16 a16
  let a64 := gf8Mul a32 a32
  let a128 := gf8Mul a64 a64
  gf8Mul a2 (gf8Mul a4 (gf8Mul a8 (gf8Mul a16 (gf8Mul a32 (gf8Mul a64 a128)))))

/-- The generator: the product of (x - α^i) for i below 8, lowest degree first. -/
def fecGen : List Nat :=
  (List.range 8).foldl (fun p i =>
    let r := gf8Pow i
    List.zipWith (· ^^^ ·) (0 :: p) ((p.map (gf8Mul r)) ++ [0])) [1]

/-- Remainder of a codeword's 128 data bytes times x^8, highest degree first (R245). -/
def fecParity (data : List Nat) : List Nat :=
  let g := (fecGen.take 8).reverse
  data.foldl (fun rem d =>
    let f := d ^^^ rem.headD 0
    List.zipWith (· ^^^ ·) (rem.drop 1 ++ [0]) (g.map (gf8Mul f))) (List.replicate 8 0)

/-- The bytes of codeword `c` of a flit's content: even or odd. -/
def fecData (content : Bytes) (c : Nat) : List Nat :=
  (content.zipIdx.filter fun b => b.2 % 2 == c).map fun b => b.1.toNat

/-- A flit with its parity. -/
def flitBytes (content : Bytes) : Bytes :=
  content ++ ((fecParity (fecData content 0)) ++ (fecParity (fecData content 1))).map (BitVec.ofNat 8)

/-- Syndromes of a codeword of 136 symbols, highest degree first. -/
def fecSyndromes (cw : List Nat) : List Nat :=
  (List.range 8).map fun i => cw.foldl (fun a d => gf8Mul a (gf8Pow i) ^^^ d) 0

/-- One step of Gaussian elimination over GF(2^8): rows with the pivot column first; none where no pivot is left. -/
def gf8Solve : Nat → List (List Nat) → Option (List Nat)
  | 0, _ => some []
  | n + 1, rows =>
    match rows.find? fun r => r.headD 0 != 0 with
    | none => none
    | some p =>
      let inv := gf8Inv (p.headD 1)
      let p1 := p.map (gf8Mul inv)
      let rest := (rows.erase p).map fun r => (List.zipWith (fun x y => x ^^^ gf8Mul (r.headD 0) y) r p1).drop 1
      match gf8Solve n rest with
      | none => none
      | some xs =>
        let x0 := (List.zipWith gf8Mul ((p1.drop 1).take n) xs).foldl (· ^^^ ·) ((p1.getLast?).getD 0)
        some (x0 :: xs)

/-- The positions (as powers) and values of `v` errors that the syndromes name, where there are such. -/
def fecErrors (syn : List Nat) (v : Nat) : Option (List (Nat × Nat)) :=
  let S (i : Nat) : Nat := syn.getD i 0
  let rows := (List.range v).map fun i => ((List.range v).map fun j => S (i + j)) ++ [S (i + v)]
  match gf8Solve v rows with
  | none => none
  | some loc =>
    -- x^v + loc_(v-1) x^(v-1) + ... + loc_0 has the error locators as roots
    let root (e : Nat) : Bool :=
      let x := gf8Pow e
      ((loc.zipIdx.foldl (fun a l => a ^^^ gf8Mul l.1 (gf8Pow (e * l.2 % 255))) 0) ^^^ gf8Pow (e * v % 255)) == 0 && x != 0
    let pos := (List.range 136).filter root
    if pos.length != v then none
    else
      let eqs := (List.range v).map fun i => (pos.map fun e => gf8Pow (e * i % 255)) ++ [S i]
      match gf8Solve v eqs with
      | none => none
      | some vals => some (pos.zip vals)

/-- A codeword corrected (up to four bytes, R245), none where it cannot be. -/
def fecCorrect (cw : List Nat) : Option (List Nat) :=
  let syn := fecSyndromes cw
  if syn.all (· == 0) then some cw
  else match [1, 2, 3, 4].findSome? (fun v => match fecErrors syn v with
      | some es =>
        let cw' := cw.zipIdx.map fun d => es.foldl (fun a e => if e.1 + d.2 = 135 then a ^^^ e.2 else a) d.1
        if (fecSyndromes cw').all (· == 0) then some cw' else none
      | none => none) with
    | some c => some c
    | none => none

/-- The content of a received flit of 272 bytes, none where FEC or CRC fails (R249). -/
def flitContent (f : Bytes) : Option Bytes :=
  let content := f.take 256
  let cw (c : Nat) : List Nat := fecData content c ++ ((f.drop (256 + 8 * c)).take 8).map (·.toNat)
  match fecCorrect (cw 0), fecCorrect (cw 1) with
  | some a, some b =>
    let out : Bytes := (List.range 128).flatMap fun k => [BitVec.ofNat 8 (a.getD k 0), BitVec.ofNat 8 (b.getD k 0)]
    if crc32c (out.take 252) = fld out 252 4 then some out else none
  | _, _ => none

/-- A flit's content from its fields; `crd` are its two credit returns (virtual channel, count). -/
def flitOf (type seq ack : Nat) (ackValid : Bool) (crd : List (Nat × Nat)) (start : Nat) (payload : Bytes) : Bytes :=
  let c (k : Nat) : Nat := ((crd[k]?).map fun x => x.2 + 4096 * x.1).getD 0
  let b := flds [(1, type), (2, seq), (2, ack + 4096 * b2n ackValid), (2, c 0), (2, c 1), (1, start)] ++ slice payload 0 242
  b ++ le 4 (crc32c b)

/-! ### Messages (08 R251) -/

def msgBytes (m : Msg) : Bytes :=
  flds [(1, m.opcode), (1, m.vc + 4 * m.len), (1, m.src), (1, m.dst), (2, m.tag + 4096 * m.hops), (2, m.gen), (7, m.ca),
    (1, m.cls + 16 * m.status)] ++ m.data

/-- Data in whole sectors follow a write, a good read response and a control message. -/
def hasData (b : Bytes) : Bool := fld b 0 1 == 2 || (fld b 0 1 == 0x10 && fld b 15 1 / 16 == 0) || 0x20 ≤ fld b 0 1

/-- A message read from bytes that hold at least its header and data. -/
def parseMsg (b : Bytes) : Msg :=
  let len := bits (fld b 1 1) 4 2
  { opcode := fld b 0 1, vc := fld b 1 1 % 4, len := len, src := fld b 2 1, dst := fld b 3 1, tag := fld b 4 2 % 4096,
    hops := fld b 4 2 / 4096, gen := fld b 6 2, ca := fld b 8 7 % 2 ^ 52, cls := fld b 15 1 % 16, status := fld b 15 1 / 16,
    data := if hasData b then slice b 16 (256 * len) else [] }

/-- Bytes of a message from its header. -/
def msgLen (b : Bytes) : Nat := 16 + (if hasData b then 256 * bits (fld b 1 1) 4 2 else 0)

/-- Widths of the fields that the body of a control message begins with, in the order of R251's table (log 12): HELLO
constellation, module, master, epoch; JOIN_REQ interface level; JOIN_ACK module, epoch; MEMBERSHIP epoch, entries;
MEMBERSHIP_ACK epoch; the answer to POLL module, epoch, level; WINDOW_NOTICE window, size, borrower, generation; WINDOW_INFO
window; OCCUPANCY window and, in the answer, granule. -/
def ctlWidths (op : Nat) : List Nat :=
  match op with
  | 0x20 => [8, 1, 1, 4]
  | 0x22 => [2]
  | 0x23 => [1, 4]
  | 0x24 => [4, 2]
  | 0x25 => [4]
  | 0x26 => [1, 4, 2]
  | 0x28 => [1, 2, 1, 2]
  | 0x29 => [1]
  | 0x2A => [1, 2]
  | _ => []

/-- The body of a control message: its fields, then what has no fixed width. -/
def ctlBody (op : Nat) (fields : List Nat) (data : Bytes) : Bytes := flds ((ctlWidths op).zip fields) ++ data

/-- The messages that carry a control message: one for FW_CHAIN, whose header 14 R481 lays out; else one for each four
sectors of the body, with the place of the part in CA and the bytes from there to the body's end in GEN (log 12). -/
def ctlMsgs (me op dst : Nat) (fields : List Nat) (data : Bytes) : List Msg :=
  if op = 0x30 then
    let n := (data.length + 255) / 256
    [{ opcode := op, vc := 2, len := n, src := me, dst := dst, tag := fields.getD 0 0, hops := 8, gen := fields.getD 1 0,
       ca := fields.getD 2 0, cls := 0, status := 0, data := slice data 0 (256 * n) }]
  else
    let b := ctlBody op fields data
    (List.range (max 1 ((b.length + 1023) / 1024))).map fun k =>
      let left := b.length - 1024 * k
      let n := (min 1024 left + 255) / 256
      { opcode := op, vc := 2, len := n, src := me, dst := dst, tag := 0, hops := 8, gen := min left 65535, ca := 1024 * k,
        cls := 0, status := 0, data := slice b (1024 * k) (256 * n) }

/-! ### Sending on a port (08 R244, R247-R249) -/

def State.peer (s : State) (p : Nat) : Peer := tabGet {} s.fab.ports p
def State.modPeer (s : State) (p : Nat) (f : Peer → Peer) : State :=
  s.setFab { s.fab with ports := tabMod {} s.fab.ports p f }

/-- The credit returns that a flit carries now: up to two virtual channels. -/
def Peer.returns (x : Peer) : List (Nat × Nat) := ((x.owed.zipIdx.filter fun o => 0 < o.1).take 2).map fun o => (o.2, min 4095 o.1)

/-- Credits still to be returned once a flit carries `crd`. -/
def Peer.owedAfter (x : Peer) (crd : List (Nat × Nat)) : List Nat :=
  x.owed.zipIdx.map fun o => o.1 - ((crd.find? fun c => c.1 == o.2).map (·.2)).getD 0

def State.returns (s : State) (p : Nat) : List (Nat × Nat) := (s.peer p).returns

/-- A message leaves the receive buffer: its credits are to be returned (R247). -/
def Peer.owe (x : Peer) (vc len : Nat) : Peer := { x with owed := x.owed.set vc (x.owed.getD vc 0 + (len + 31) / 32) }

def State.owe (s : State) (p vc len : Nat) : State := s.modPeer p fun x => x.owe vc len

/-- Offsets at which messages packed back to back begin. -/
def headsFrom (off : Nat) : List Bytes → List Nat
  | [] => []
  | m :: l => off :: headsFrom (off + m.length) l

/-- The flits of messages packed back to back: each flit names the first header in it, and the first carries the credit
returns (R244). Behind the last message the payload is zeros (log 16). -/
def flitsOf (x : Peer) (crd : List (Nat × Nat)) (l : List Bytes) : List (Nat × Bytes) :=
  let b := l.flatten
  let heads := headsFrom 0 l
  (List.range ((b.length + 241) / 242)).map fun k =>
    let seq := (x.txSeq + k) % 4096
    let start := match heads.find? fun h => 242 * k ≤ h && h < 242 * (k + 1) with
      | some h => h - 242 * k
      | none => 0xFF
    (seq, flitBytes (flitOf 1 seq ((x.rxSeq + 4095) % 4096) true (if k = 0 then crd else []) start (slice b (242 * k) 242)))

/-- Of the messages that wait at a port, oldest first, those that leave now, those that stay, and the credits left. A
message leaves when its virtual channel has its credits and no earlier one of that channel stays (R247, R248), and the
replay buffer has room for the flits (R249). `stop` are the channels of which one stays, `n` the bytes that leave. -/
def sendable (room : Nat) : List (Nat × Bytes × Option Nat) → List Nat → List Nat → Nat →
    List (Nat × Bytes × Option Nat) × List (Nat × Bytes × Option Nat) × List Nat
  | [], credits, _, _ => ([], [], credits)
  | m :: l, credits, stop, n =>
    let need := (m.2.1.length + 31) / 32
    if stop.contains m.1 || credits.getD m.1 0 < need || room < (n + m.2.1.length + 241) / 242 then
      let r := sendable room l credits (m.1 :: stop) n
      (r.1, m :: r.2.1, r.2.2)
    else
      let r := sendable room l (credits.set m.1 (credits.getD m.1 0 - need)) stop (n + m.2.1.length)
      (m :: r.1, r.2)

/-- What may leave a port leaves: the ports after, and the flits. Credits of the port that a forwarded message came in on
are freed only as it leaves (R248). -/
def pumpPort (now p : Nat) (t : Tab Peer) : Tab Peer × List Out :=
  let x := tabGet ({} : Peer) t p
  if x.link != 2 then (t, [])
  else
    let r := sendable (1024 - x.replay.length) x.txq x.credits [] 0
    if r.1.isEmpty then (t, [])
    else
      let crd := x.returns
      let fs := flitsOf x crd (r.1.map fun m => m.2.1)
      let x' : Peer := { x with txq := r.2.1, credits := r.2.2, txSeq := (x.txSeq + fs.length) % 4096, replay := x.replay ++ fs,
                                sinceAck := 0, owed := x.owedAfter crd, progressAt := if x.replay.isEmpty then now else x.progressAt }
      (r.1.foldl (fun t m => match m.2.2 with
        | some q => tabMod {} t q fun y => y.owe m.1 m.2.1.length
        | none => t) (tabSet t p x'), fs.map fun f => .flit p f.2)

def State.pump (s : State) (p : Nat) : State :=
  let r := pumpPort s.tbc p s.fab.ports
  { s with fab := { s.fab with ports := r.1 }, out := r.2.reverse ++ s.out }

/-- Messages handed to ports, then what may leave them leaves. -/
def sendOn (now : Nat) (t : Tab Peer) (l : List (Nat × Nat × Bytes × Option Nat)) : Tab Peer × List Out :=
  let t := l.foldl (fun t m => tabMod ({} : Peer) t m.1 fun x => { x with txq := x.txq ++ [m.2] }) t
  ((List.range 6).filter fun p => l.any fun m => m.1 == p).foldl (fun r p =>
    let q := pumpPort now p r.1
    (q.1, r.2 ++ q.2)) (t, [])

def State.sendOn (s : State) (l : List (Nat × Nat × Bytes × Option Nat)) : State :=
  let r := Machine.sendOn s.tbc s.fab.ports l
  { s with fab := { s.fab with ports := r.1 }, out := r.2.reverse ++ s.out }

/-! ### Routes (08 R252) -/

/-- A neighbour on this port is of the module's own constellation (R256). -/
def State.sameConst (s : State) (p : Nat) : Bool := (s.peer p).link == 2 && (s.peer p).cid == s.fab.constId

/-- Opcodes that are broadcast: HEARTBEAT and MEMBERSHIP (R251). -/
def broadcasts (op dst : Nat) : Bool := dst == 0xFF && (op == 0x21 || op == 0x24)

/-- The ports that a message for a module leaves by: that of the route table, or for a broadcast every one that leads to
a neighbour of the constellation (log 24). -/
def State.portsTo (s : State) (op dst : Nat) : List Nat :=
  if broadcasts op dst then (List.range (peerPorts s.cfg)).filter s.sameConst
  else
    let p := s.fab.routes.getD dst 0xFF
    if p < peerPorts s.cfg then [p] else []

/-- A message sent towards a module by the route table (R252); without a route it is dropped and ends under R253. -/
def State.sendMsg (s : State) (m : Msg) : State :=
  let l := s.portsTo m.opcode m.dst
  if l.isEmpty then s else (s.emit (.msg m.dst m)).sendOn (l.map fun p => (p, m.vc, msgBytes m, none))

/-- A control message of a source leaves by given ports; `shown` is what the last line of what left names. -/
def State.mgmtBy (s : State) (src : Nat) (ports : List Nat) (op dst shown : Nat) (fields : List Nat) (data : Bytes) : State :=
  (s.sendOn (ports.flatMap fun p => (ctlMsgs src op dst fields data).map fun m => (p, 2, msgBytes m, none))).emit (.mgmt op shown fields data)

/-- A control message for a module, or a broadcast (R251). -/
def State.mgmt (s : State) (op dst : Nat) (fields : List Nat) (data : Bytes := []) : State :=
  s.mgmtBy s.fab.me (s.portsTo op dst) op dst dst fields data

/-- A control message for the neighbour on a port, whose module number may not be known (R256). -/
def State.mgmtOn (s : State) (p op dst : Nat) (fields : List Nat) (data : Bytes := []) : State :=
  s.mgmtBy s.fab.me [p] op dst p fields data

/-! ### Requests to lenders (08 R253, R263, R268) -/

def State.pw (s : State) (w : Nat) : PsWin := tabGet {} s.fab.pw w
def State.modPw (s : State) (w : Nat) (f : PsWin → PsWin) : State := s.setFab { s.fab with pw := tabMod {} s.fab.pw w f }

/-- The lowest tag not in use. -/
def State.freeTag (s : State) : Option Nat := (List.range 4096).find? fun t => (tabFind s.fab.reqs t).isNone

/-- A request goes out with a tag and the window's present generation, or waits while its window holds requests or no
tag is free. -/
def State.sendReq (s : State) (r : FReq) : State :=
  let w := s.pw r.win
  match s.freeTag with
  | none => s.setFab { s.fab with heldReqs := s.fab.heldReqs ++ [r] }
  | some t =>
    if w.hold then s.setFab { s.fab with heldReqs := s.fab.heldReqs ++ [r] }
    else
      let r := { r with msg := { r.msg with tag := t, gen := w.gen }, limitUs := s.fab.reqTimeoutUs }
      (s.setFab { s.fab with reqs := tabSet s.fab.reqs t r }).sendMsg r.msg

/-- Held requests of windows that hold no longer are issued. -/
def State.sendHeld (s : State) : State :=
  let l := s.fab.heldReqs
  l.foldl (fun s r => s.sendReq r) (s.setFab { s.fab with heldReqs := [] })

/-- Messages that cover a block in a window: offset in sectors and count, at most four a message. -/
def chunks (sectors : Nat) : List (Nat × Nat) :=
  (List.range ((sectors + 3) / 4)).map fun k => (4 * k, min 4 (sectors - 4 * k))

def State.reqFor (s : State) (kind op : Nat) (i : Item) (h : Home) (off n : Nat) (data : Bytes) : FReq :=
  let w := s.pw h.unit
  let cls := (s.tq (s.itemTenant i)).cls
  { kind := kind, win := h.unit, item := some i, issued := s.tbc,
    msg := { opcode := op, vc := 0, len := n, src := s.fab.me, dst := w.lender, tag := 0, hops := 8, gen := w.gen,
             ca := w.lender * 2 ^ 44 + w.lw * 2 ^ 38 + h.ma + 256 * off, cls := cls, status := 0, data := data } }

/-- The granule's slice of the borrower still serves the home, and the window or tray is not LOST (08 R271, R274). -/
def State.farOk (s : State) (h : Home) : Bool :=
  if h.tier = 3 then (s.pw h.unit).valid && (s.pw h.unit).state != 2
  else
    let t := tabGet ({} : Tray) s.fab.trays h.unit
    t.present && !t.lost && s.fab.tpLink == 2

/-- A read entry of the tray port that is free (12 R414). -/
def State.freeEntry (s : State) : Option Nat :=
  (List.range 4096).find? fun e =>
    let t := tabGet ({} : TrayTag) s.fab.tags e
    !t.out && t.item.isNone

/-- A read of an item's home in T3 or T4 is under way. -/
def State.farBusy (s : State) (i : Item) : Bool :=
  (s.fab.reqs.any fun r => r.2.item == some i && !r.2.timedOut) || (s.fab.heldReqs.any fun r => r.item == some i) ||
  (s.fab.tags.any fun t => t.2.item == some i && !t.2.out)

/-- The read of an item's home in T3 or T4 begins, where none is under way. -/
def State.farRead (s : State) (i : Item) (h : Home) : State :=
  if s.farBusy i then s
  else if h.tier = 3 then
    (chunks (homeLen h / 256)).foldl (fun s c => s.sendReq (s.reqFor 0 1 i h c.1 c.2 [])) s
  else match s.freeEntry with
    | none => s
    | some e =>
      let t := tabGet ({} : TrayTag) s.fab.tags e
      let t' : TrayTag := { t with issued := s.tbc, tray := h.unit, item := some i, timedOut := false, lateSeen := false, limitUs := s.fab.cplTimeout }
      (s.setFab { s.fab with tags := tabSet s.fab.tags e t' }).emit (.trayRead (e + 4096 * t.inc) ((tabGet ({} : Tray) s.fab.trays h.unit).base + h.ma))

/-- The block of a new home in T3 or T4 is written: to T3 by messages that are acknowledged, to a tray at once. -/
def State.farWrite (s : State) (i : Item) (h : Home) : State :=
  match h.blk with
  | none => s
  | some b =>
    let raw := blockBytes b
    if h.tier = 3 then
      (chunks b.sectors).foldl (fun s c => s.sendReq (s.reqFor 1 2 i h c.1 c.2 (slice raw (256 * c.1) (256 * c.2)))) s
    else s.emit (.trayWrite ((tabGet ({} : Tray) s.fab.trays h.unit).base + h.ma) raw)

/-- Trays in order with the number of their first granule (08 R273). -/
def State.trayFirst (s : State) (k : Nat) : Nat :=
  (List.range k).foldl (fun n j => n + (tabGet ({} : Tray) s.fab.trays j).gib) 0

/-- A place in T3 for a block, in granules of its slice (08 R263, R270). -/
def State.placeT3 (s : State) (slice : Nat) (b : Block) : Option Home :=
  s.fab.pw.findSome? fun w =>
    if w.2.valid && w.2.state == 0 then
      (s.allocFar slice 3 w.1 0 w.2.size (b.sectors * 256)).map fun a => ({ tier := 3, ma := a, unit := w.1, blk := some b } : Home)
    else none

/-- A place in T4 for a block (08 R273). -/
def State.placeT4 (s : State) (slice : Nat) (b : Block) : Option Home :=
  (List.range 16).findSome? fun k =>
    let t := tabGet ({} : Tray) s.fab.trays k
    if t.present && !t.lost && !t.drain then
      (s.allocFar slice 4 k (s.trayFirst k) t.gib (b.sectors * 256)).map fun a => ({ tier := 4, ma := a, unit := k, blk := some b } : Home)
    else none

/-- A place in T3, or else T4, for a block of a page of a REMOTE_OK extent, or of a tile. -/
def State.placeFar (s : State) (slice : Nat) (b : Block) (t4 : Bool) : Option Home :=
  s.placeT3 slice b <|> (if t4 then s.placeT4 slice b else none)

end Sys2Proof.Machine
end

