-- ==== Sys2Proof/Machine/Heal.lean ====
section
/-! DEFINITION. What follows from media errors: poison (11 R354-R361), tallies, trips, the suspect and retire lists
(11 R363-R368), the retirement of controllers, stack failures and rebuilds (10 R341, 11 R376-R382). -/
namespace Sys2Proof.Machine
open Sys2Proof

/-! ### Poison of lines and items -/

/-- A mask with a bit set or cleared. -/
def maskBit (m : BitVec 64) (k : Nat) (b : Bool) : BitVec 64 := BitVec.ofNat 64 (setBit m.toNat k b)

def State.linePoison (s : State) (line : Nat) : Bool := bit (s.page (line / 64)).poison.toNat (line % 64)

/-- A pool line is recorded as poison (R354); its content means nothing from then on. -/
def State.poisonLine (s : State) (line : Nat) : State :=
  let s := s.modPage (line / 64) fun p => { p with poison := maskBit p.poison (line % 64) true }
  s.setPool { s.pool with mem := memClear s.pool.mem (line * 64) 64 }

/-- The Loupe copy of a page is invalidated (06 R197). -/
def State.loupeDrop (s : State) (n : Nat) : State :=
  let s := s.setPool { s.pool with fills := s.pool.fills.filter fun f => f.1 != n }
  if s.pool.loupe.any fun c => c.page == n then
    (s.setPool { s.pool with loupe := s.pool.loupe.filter fun c => c.page != n }).modMig (s.sliceOf (n * 4096))
      fun m => { m with invalidations := m.invalidations + 1 }
  else s

/-- Admitted steps of a model whose range still includes a layer: POISON_WEIGHT arises for them (R360). -/
def hitsStep (h layer : Nat) (x : StepSt) : Bool :=
  x.desc.model == h && (x.phase == 1 || x.phase == 2) && x.layer ≤ layer && layer ≤ x.desc.last

/-- A tile is poisoned together with every copy of its position; newly poisoned, it is recorded (R359-R361). `source`: 0
step read, 1 staging or demand fetch, 2 scrub, 3 rebuild. -/
def State.poisonTile (s : State) (h x source : Nat) : State :=
  match s.model h with
  | none => s
  | some m =>
    match m.tiles[x]? with
    | none => s
    | some t =>
      if t.ent.poisoned then s
      else
        let same (u : Tile) : Bool := u.layer == t.layer && u.tensor == t.tensor && u.expert == t.expert && u.n == t.n && u.k == t.k
        let m' : Model := { m with tiles := m.tiles.map fun u => if same u then { u with ent := { u.ent with poisoned := true } } else u }
        let hit := (s.eng.steps.filter fun e => hitsStep h t.layer e.2).length
        let s := s.setEng { s.eng with models := tabSet s.eng.models h m',
                                       steps := s.eng.steps.map fun e => if hitsStep h t.layer e.2 then (e.1, { e.2 with poisonW := true }) else e }
        s.record 2 0x0003 (flds [(2, m.tenant), (2, h), (2, t.layer), (1, t.tensor), (1, t.slice), (2, t.expert), (2, t.n),
          (2, t.k), (1, (t.ent.home.map (·.tier)).getD 0), (1, source), (4, hit), (8, s.tbc)])

/-- The consequences of an uncorrectable home of an item (R358). -/
def State.poisonItem (s : State) (i : Item) (source : Nat) : State :=
  match i with
  | .page n =>
    let s := s.modPage n fun p => { p with poison := BitVec.allOnes 64 }
    (s.setPool { s.pool with mem := memClear s.pool.mem (n * 4096) 4096 }).loupeDrop n
  | .tile h x => s.poisonTile h x source
  | .kv _ _ _ _ _ => s.modEnt i fun e => { e with poisoned := true }
  | .act _ _ _ _ => s.modEnt i fun e => { e with poisoned := true, home := none }
  | .mapLine _ _ _ => s

/-! ### Items with homes -/

/-- Every item that has a home. -/
def State.items (s : State) : List Item :=
  (s.pool.pages.filterMap fun p => if p.2.ent.home.isSome then some (.page p.1) else none) ++
  (s.eng.models.flatMap fun m => (m.2.tiles.zipIdx.filter fun t => t.1.ent.home.isSome).map fun t => .tile m.1 t.2) ++
  (s.eng.seqs.flatMap fun z => (z.2.kv.filter fun k => k.ent.home.isSome).map fun k => .kv z.2.handle z.1 k.layer k.head k.blk) ++
  (s.eng.seqs.flatMap fun z => (z.2.acts.filter fun a => a.ent.home.isSome).map fun a => .act z.1 a.slice a.buf a.blk)

/-- The home of an item. -/
def State.homeOf (s : State) (i : Item) : Option Home := (s.entOf i).bind (·.home)

/-! ### Rebuilds (11 R376-R382) -/

def State.rebuildRecord (s : State) (slice : Nat) (r : Rebuild) (bytes lost : Nat) : Bytes :=
  flds [(1, slice), (1, r.kind), (1, r.unit), (1, r.source), (4, 0), (8, bytes), (8, lost), (8, s.tbc)]

/-- The ERROR vector of every PF0 (12 R400). -/
def State.signalError (s : State) : State := s.signalPf0 5

/-- Slices on which a rebuild takes bandwidth are rescaled (R379). -/
def State.rescaleParts (s : State) (own : Nat) (r : Rebuild) (cause : Nat) : State :=
  (s.upSlices.filter fun n => takesPart s.cfg own { r with running := true } n 1 || takesPart s.cfg own { r with running := true } n 2).foldl
    (fun s n => s.rescale n cause) s

/-- The head of a slice's rebuilds begins where no other runs there (R382). -/
def State.startRebuild (s : State) (slice : Nat) : State :=
  match (s.eccReg slice).rebuilds with
  | [] => s
  | r :: rs =>
    if r.running then s
    else
      let s := s.modEccReg slice fun e => { e with rebuilds := { r with running := true } :: rs }
      let s := s.rescaleParts slice r 3
      (s.record 1 0x0014 (s.rebuildRecord slice r r.bytes 0)).signalError

def State.addRebuild (s : State) (slice : Nat) (r : Rebuild) : State :=
  (s.modEccReg slice fun e => { e with rebuilds := e.rebuilds ++ [r] }).startRebuild slice

/-- Content on some logical units of a tier of a slice is lost: lines of T1 pages become poison, blocks uncorrectable
(R358, R381). The second answer counts the homes. -/
def State.unitsLost (s : State) (slice tier : Nat) (us : List Nat) (source : Nat) : State × Nat :=
  s.items.foldl (fun (a : State × Nat) i =>
    let (s, n) := a
    match s.homeOf i with
    | none => (s, n)
    | some h =>
      if h.tier != tier || s.itemSlice i != slice then (s, n)
      else
        let bad := (homePieces s.cfg slice h).filter fun p => us.contains p.2.1
        if bad.isEmpty then (s, n)
        else match i, h.blk with
          | .page p, none =>
            let lines := (List.range 64).filter fun j => bad.any fun q => q.1 ≤ h.ma + 64 * j && h.ma + 64 * j < q.1 + q.2.2
            (lines.foldl (fun s j => s.poisonLine (64 * p + j)) s, n + 1)
          | _, _ => (s.poisonItem i source, n + 1)) (s.lentLost slice tier us, 0)

/-- A parity group holds parity: no stack of it has failed before. -/
def State.groupOk (s : State) (slice stack : Nat) : Bool :=
  let g := (parityGroup s.cfg slice stack).1
  hasParity s.cfg && !bit (s.eccReg slice).degraded g &&
  !((List.range s.cfg.slices).any fun o => (s.eccReg o).failedStacks.any fun i => (parityGroup s.cfg o i).1 == g) &&
  (List.range s.cfg.slices).all s.up

/-- Width of a parity group (11 R374). -/
def groupWidth (c : Cfg) : Nat := if c.slices = 8 then 8 else 12

/-- The stripe that a data row of the member in a position belongs to (11 R374). -/
def stripeOf (c : Cfg) (g row : Nat) : Nat :=
  let W := groupWidth c
  row / (W - 1) * W + (if row % (W - 1) < g then row % (W - 1) else row % (W - 1) + 1)

/-- The stack of a T1 stretch of a home and its stripe, counted over the pseudo-channel indices of the group. -/
def stripeAt (c : Cfg) (slice ma : Nat) : Nat × Nat :=
  let (u, L) := mapMa c slice 1 ma
  (u / 31, (u % 31) * 24576 + stripeOf c (parityGroup c slice (u / 31)).2 (L >>> 16))

/-- The stripe of a failed stack that a line's logical unit lies in, not yet rebuilt: its writes wait (11 R374, R377). -/
def State.stripeWaits (s : State) (slice : Nat) (h : Home) (off : Nat) : Bool :=
  h.tier = 1 &&
  let (stack, n) := stripeAt s.cfg slice (h.ma + off)
  (s.eccReg slice).rebuilds.any fun r =>
    r.kind == 1 && r.unit == 3 * slice + stack && r.group == (parityGroup s.cfg slice stack).1 && r.done ≤ n

/-- The slice that holds the parity line of a T1 address, none where no parity is kept: on a PM2, in a group without parity, and in a
stripe that a rebuild has passed (11 R375, R377). -/
def State.parityOn (s : State) (slice ma : Nat) : Option Nat :=
  let (stack, n) := stripeAt s.cfg slice ma
  let grp := (parityGroup s.cfg slice stack).1
  let passed := (List.range 8).any fun o => (s.eccReg o).rebuilds.any fun r => r.kind == 1 && r.group == grp && n < r.done
  if !hasParity s.cfg || bit (s.eccReg slice).degraded grp || passed then none
  else
    let p := n % 24576 % groupWidth s.cfg
    some (if s.cfg.slices = 8 then p else p / 3)

/-- Bytes that a write of a stretch of a home moves, in the class of the write (09 R285, 11 R375). A write of a T1 line in a parity
group reads and writes the line on its slice, and the parity line where that lies. -/
def State.wrote (s : State) (slice : Nat) (h : Home) (off len cls : Nat) : State :=
  let lo := if h.blk.isNone then h.ma + off else h.ma
  let hi := if h.blk.isNone then h.ma + off + len else h.ma + homeLen h
  if h.tier != 1 then s.moved slice h.tier cls (hi - lo)
  else ((homePieces s.cfg slice h).filter fun p => p.1 < hi && lo < p.1 + p.2.2).foldl (fun s p =>
    let n := min hi (p.1 + p.2.2) - max lo p.1
    match s.parityOn slice (max lo p.1) with
    | none => s.moved slice 1 cls n
    | some o => (s.moved slice 1 cls (2 * n)).moved o 1 cls (2 * n)) s

/-- A further failure in a group whose rebuild still runs: what it has not rebuilt is lost, and the rebuild ends (R377). -/
def State.loseUnrebuilt (s : State) (group : Nat) : State :=
  (List.range 8).foldl (fun s o =>
    match (s.eccReg o).rebuilds.find? fun r => r.kind == 1 && r.group == group with
    | none => s
    | some r =>
      let bad (h : Home) : List Nat := if h.tier != 1 then [] else
        (List.range ((homeLen h + 63) / 64)).filter fun k => s.stripeWaits o h (64 * k)
      let gone := s.items.filterMap fun i => if s.itemSlice i != o then none else
        (s.homeOf i).bind fun h => if (bad h).isEmpty then none else some (i, h.blk.isNone, bad h)
      let s := s.modEccReg o fun e => { e with rebuilds := e.rebuilds.erase r }
      let s := gone.foldl (fun s g => match g.1, g.2.1 with
        | .page p, true => g.2.2.foldl (fun s k => s.poisonLine (64 * p + k)) s
        | i, _ => s.poisonItem i 3) s
      if r.running then (s.rescaleParts o r 4).startRebuild o else s) s

/-- The copies of map regions on a controller are rewritten from the others, in SYS_CLASS (09 R282, 10 R316). -/
def State.mapRewrite (s : State) (c : Ctl) : State :=
  ((s.mapsOn c).foldl (fun s x => s.moved x.1 1 s.qos.sysClass ((if hasParity s.cfg then 5 else 2) * (4 * s.cfg.mapWords))) s).mapStale c false

/-- What is queued at a controller that has left service is over (10 R341): a read is answered with what its line now holds. -/
def State.finishAt (s : State) (c : Ctl) : State :=
  let k := ctlKey c
  let es := (s.chan c).queue ++ (s.drc.ingress.filter fun e => e.1 == k).map (·.2)
  let s := (s.setDrc { s.drc with ingress := s.drc.ingress.filter fun e => e.1 != k }).modChan c fun x => { x with queue := [] }
  es.foldl (fun s e => match e.job.bind (tabFind s.drc.jobs) with
    | some j => match j.read with
      | some r => if s.linePoison (r.dpa / 64) then s.endJob (e.job.getD 0) true else s.jobStep e.job
      | none => s.jobStep e.job
    | none => s) s

/-- A stack fails (R377): with parity its content is rebuilt, without it is lost. A copy of the map region on it serves no longer
(10 R316). -/
def State.failStack (s : State) (slice stack : Nat) : State :=
  if (s.eccReg slice).failedStacks.contains stack then s
  else
    let cs : List Ctl := (List.range 32).map fun p => { slice := slice, tier := 1, unit := 32 * stack + p }
    let s := cs.foldl (fun s c => s.mapStale c true) s
    let okp := s.groupOk slice stack
    let s := s.modEccReg slice fun e => { e with failedStacks := e.failedStacks ++ [stack] }
    let s := cs.foldl (fun s c => s.modChan c fun x => { x with override := some 4 }) s
    let s := s.rescale slice 2
    cs.foldl State.finishAt <| if okp then
      s.addRebuild slice { kind := 1, unit := 3 * slice + stack, source := 0, bytes := 31 * dataRows s.cfg * 65536,
                           group := (parityGroup s.cfg slice stack).1, units := (List.range 31).map (31 * stack + ·) }
    else
      let us := (List.range 31).map (31 * stack + ·)
      let s := if hasParity s.cfg then s.loseUnrebuilt (parityGroup s.cfg slice stack).1 else s
      let s := s.setDrc { s.drc with retired := s.drc.retired ++ us.map fun u => slice * 256 + u }
      (s.unitsLost slice 1 us 3).1

/-- Free hot-spare channels that serve a slice, lowest first (11 R373). -/
def State.freeSpares (s : State) (slice : Nat) : List Ctl :=
  match hotSpareSlice s.cfg slice with
  | none => []
  | some o => ((List.range 4).map fun n => ({ slice := o, tier := 2, unit := 16 + n } : Ctl)).filter fun c => s.chanState c == 5

/-- Bytes of a pseudo-channel to rebuild: its row of each of the 24,576 stripes, data or parity (11 R374, R376). -/
def pcBytes : Nat := 24576 * 65536

/-- A controller is removed from service (10 R341): result 0 spare, 1 hot spare, 2 retired, 3 stack failed. -/
def State.retireCtl (s : State) (c : Ctl) : State × Nat :=
  let wasFrozen := s.frozen c
  let off (s : State) : State :=
    s.modChan c fun x => { x with override := some 4, snap := none, frozenAt := none, poisoning := false }
  match s.servedBy c with
  | none => ((off s).finishAt c, 2)
  | some (slice, u) =>
    if c.tier = 1 then
      let i := c.unit / 32
      let sp : Ctl := { slice := c.slice, tier := 1, unit := 32 * i + spareOf s.cfg c.slice i }
      if s.chanState sp == 5 then
        let parity := s.groupOk c.slice i
        let lost := if !parity && wasFrozen then s.unitsLost slice 1 [u] 3 else (s, 0)
        let s := off lost.1
        let s := (s.setDrc { s.drc with remap := tabSet s.drc.remap (slice * 256 + u) sp }).mapRewrite sp
        let s := s.finishAt c
        (s.addRebuild c.slice { kind := 0, unit := c.unit, source := if parity then 0 else 1,
                                bytes := pcBytes, lost := lost.2, units := [u] }, 0)
      else ((off s).failStack c.slice i, 3)
    else match s.freeSpares slice with
      | sp :: _ =>
        let lost := if wasFrozen then s.unitsLost slice 2 [u] 3 else (s, 0)
        let s := off lost.1
        let s := (s.setDrc { s.drc with remap := tabSet s.drc.remap (slice * 256 + 128 + u) sp }).finishAt c
        (s.addRebuild slice { kind := 2, unit := c.unit, source := 1, bytes := 2 ^ 35, lost := lost.2, units := [u] }, 1)
      | [] =>
        let s := (s.unitsLost slice 2 [u] 3).1
        let s := off s
        let s := (s.setDrc { s.drc with retired := s.drc.retired ++ [slice * 256 + 128 + u] }).finishAt c
        (s.rescale slice 2, 2)

/-! ### Suspects and the retire list (11 R365-R368) -/

/-- A home that enters the suspect list, of which the oldest of 4,096 is dropped (R365). -/
def State.suspect (s : State) (slice : Nat) (h : Home) : State :=
  if 2 < h.tier then s
  else
    let sp := homeSpan s.cfg slice h
    let x : Suspect := { tier := h.tier, ma := sp.1, len := sp.2 - sp.1 }
    s.modEccReg slice fun e =>
      let l := e.suspects ++ [x]
      { e with suspects := l.drop (l.length - 4096) }

/-- The record of a trip or a retirement (R368). -/
def State.tripRecord (s : State) (i : Item) (h : Home) (log code trigger units newMa : Nat) : State :=
  let slice := s.itemSlice i
  let loc := s.locator i
  s.recordLim log code slice ms fun held =>
    flds [(1, slice), (1, h.tier), (1, itemKind i), (1, trigger), (2, units), (2, held), (8, h.ma), (8, newMa), (8, loc), (8, s.tbc)]

/-- Retire-list entries of a logical unit. -/
def State.entriesOf (s : State) (slice tier u : Nat) : List (Nat × Nat) :=
  (s.eccReg slice).retire.filter fun r => r.1 == tier && (mapMa s.cfg slice tier (r.2 * 256)).1 == u

/-- Logical units of a tier whose entries reach the limit; on a full list, the one with the most (R367). -/
def State.overLimit (s : State) (slice : Nat) : Option (Nat × Nat) :=
  let e := s.eccReg slice
  let all := (List.range (unitCount s.cfg slice 1)).map (fun u => (1, u)) ++ (List.range (unitCount s.cfg slice 2)).map (fun u => (2, u))
  match all.find? fun x => e.retireLimit ≤ (s.entriesOf slice x.1 x.2).length with
  | some x => some x
  | none =>
    if e.retire.length < 16384 then none
    else
      let n (x : Nat × Nat) : Nat := (s.entriesOf slice x.1 x.2).length
      some (all.foldl (fun b x => if n b < n x then x else b) (all.headD (1, 0)))

/-- A logical unit with too many retired units is retired, and its entries leave the list (R367). -/
def State.retireUnit (s : State) (slice : Nat) : State :=
  match s.overLimit slice with
  | none => s
  | some (tier, u) =>
    let gone := s.entriesOf slice tier u
    let s := match s.physOf slice tier u with
      | some c => (s.retireCtl c).1
      | none => s
    s.modEccReg slice fun e => { e with retire := e.retire.filter fun r => !gone.contains r, savePending := true }

/-- A 256 B unit enters the retire list; where that fills it, or brings its logical unit to the limit, that unit is retired. -/
def State.addRetired (s : State) (slice tier m : Nat) : State :=
  (s.modEccReg slice fun e => { e with retire := (tier, m) :: e.retire, savePending := true }).retireUnit slice

/-- A home that trips or reads uncorrectable while it overlaps suspects puts 256 B units on the retire list (R366):
those of `units`, or every overlapping one where it is none. -/
def State.retireOverlap (s : State) (i : Item) (h : Home) (trigger : Nat) (units : Option (List Nat)) : State :=
  let slice := s.itemSlice i
  if 2 < h.tier then s
  else
    let sp := homeSpan s.cfg slice h
    let hits := (s.eccReg slice).suspects.filter fun x => x.tier == h.tier && x.ma < sp.2 && sp.1 < x.ma + x.len
    if hits.isEmpty then s
    else
      let mine := (List.range ((sp.2 - sp.1 + 255) / 256)).map (sp.1 / 256 + ·)
      let hit := mine.filter fun m => hits.any fun x => x.ma < (m + 1) * 256 && m * 256 < x.ma + x.len
      let chosen := match units with
        | none => hit
        | some us => hit.filter us.contains
      let new := chosen.filter fun m => !(s.eccReg slice).retire.contains (h.tier, m)
      let s := s.modEccReg slice fun e =>
        { e with suspects := e.suspects.filter fun x => !hits.contains x,
                 retiredUnits := e.retiredUnits + BitVec.ofNat 16 new.length }
      new.foldl (fun s m => s.addRetired slice h.tier m) (s.tripRecord i h 1 0x000C trigger new.length (2 ^ 64 - 1))

/-! ### Tallies and trips (11 R363, R364) -/

/-- The table slot selected for an encode class on a slice, where it is valid (05 R150). -/
def State.selected (s : State) (slice cls : Nat) : Option (Nat × Nat × TansTable) :=
  match tabFind (s.cn slice).encSel cls with
  | none => none
  | some k =>
    let t := tabGet ({} : TSlot) (s.cn slice).slots k
    if t.state != 2 then none else t.table.map fun tb => (k, t.gen, tb)

/-- The logical content of a pool page, poison lines as zeros (R356). -/
def State.pageData (s : State) (n : Nat) : Bytes := memReadN s.pool.mem (n * 4096) 4096

/-- Strength of the blocks of a page's extent. -/
def State.pageStrength (s : State) (n : Nat) : Nat := ((s.extentOf (n * 4096)).map (·.2.policy.strength)).getD 2

/-- A block stored by a slice's Condensers is counted (CND_CNT). -/
def State.countBlock (s : State) (slice : Nat) (b : Block) : State :=
  s.modCnd slice fun c =>
    match b.coder with
    | 0 => { c with zeroBlocks := c.zeroBlocks + 1 }
    | 1 => { c with zrunBlocks := c.zrunBlocks + 1 }
    | 2 => { c with tansBlocks := c.tansBlocks + 1 }
    | _ => { c with rawBlocks := c.rawBlocks + 1 }

/-- A block as a Condenser of a slice codes it (05 R150, R152): stored RAW where its own decode differs. -/
def State.condenseOn (s : State) (slice cls ps kind fmt : Nat) (typed : Bool) (data : Bytes) : Block × State :=
  let b := condense ps kind fmt typed (s.selected slice cls) data
  let good := match decodeBlock (s.cn slice).slots b with
    | .ok out => out == data && (pageDecode b.sectors b.strength []).isSome
    | _ => false
  if good then (b, s)
  else (mkBlock 3 ps kind fmt typed 0 0 data data, s.modCnd slice fun c => { c with verifyFail := true, verifyCount := c.verifyCount + 1 })

/-- A page coded for a home below T1. -/
def State.condensePage (s : State) (n : Nat) : Block × State :=
  s.condenseOn (s.sliceOf (n * 4096)) 0 (s.pageStrength n) 0 0 false (s.pageData n)

/-- A new place in T2 for an item that leaves T1, with its block. -/
def State.toT2 (s : State) (i : Item) (h : Home) : Option Home × State :=
  match i, h.blk with
  | .page n, none =>
    let (b, s) := s.condensePage n
    match s.alloc (s.itemSlice i) 2 (b.sectors * 256) with
    | some a => (some { tier := 2, ma := a.1, skips := a.2, blk := some b }, s)
    | none => (none, s)
  | _, _ =>
    let short := match i with
      | .page _ => false
      | _ => h.tier != 2 && s.quotaLeft (s.itemTenant i) 2 < s.itemNeed i h
    if short then (none, s)
    else ((s.alloc (s.itemSlice i) 2 (homeLen h)).map fun a => { tier := 2, ma := a.1, skips := a.2, blk := h.blk }, s)

/-- A move begins (01 R22): a home in T3 or T4 is read or written over the fabric or the tray port. -/
def State.beginMove (s : State) (i : Item) (d : Home) (kind : Nat) : State :=
  let mv : Move := { item := i, dest := d, kind := kind, began := s.tbc }
  let s := s.setPool { s.pool with moves := s.pool.moves ++ [mv] }
  let s := match s.homeOf i with
    | some h => if 2 < h.tier then s.farRead i h else s
    | none => s
  if 2 < d.tier then s.farWrite i d else s

/-- A new home of the same tier for an item that trips. -/
def State.sameTier (s : State) (slice : Nat) (h : Home) : Option Home :=
  match h.tier, h.blk with
  | 3, some b => s.placeT3 slice b
  | 4, some b => s.placeT4 slice b
  | _, _ => (s.alloc slice h.tier (homeLen h)).map fun a => { h with ma := a.1, skips := a.2 }

/-- A home trips (R364): its content moves to a new home of the tier, or to T2, or stays. `units` are the 256 B units
that held corrected symbols. -/
def State.trip (s : State) (i : Item) (units : List Nat) : State :=
  match s.entOf i, s.homeOf i with
  | some e, some h =>
    let slice := s.itemSlice i
    let lim := s.eccReg slice
    if (s.moveOf i).isSome || (e.heavy < lim.heavyLimit && e.any < lim.anyLimit) then s
    else
      let trigger := if lim.heavyLimit ≤ e.heavy then 0 else 1
      let (d, s) := match s.sameTier slice h with
        | some d => (some d, s)
        | none => if h.tier != 2 && (s.itemPlace i).1 != 0 then s.toT2 i h else (none, s)
      let s := match d with
        | some d => (s.beginMove i d 2).modEccReg slice fun e => { e with tallyMoves := e.tallyMoves + 1 }
        | none => s
      let s := s.tripRecord i h 0 0x000B trigger 0 ((d.map (·.ma)).getD (2 ^ 64 - 1))
      s.retireOverlap i h trigger (some units)
  | _, _ => s

/-- A corrected read of a home (R363). -/
def State.corrected (s : State) (i : Item) (heavy : Bool) (units : List Nat) : State :=
  let s := s.modEnt i fun e => { e with any := min 15 (e.any + 1), heavy := if heavy then min 15 (e.heavy + 1) else e.heavy }
  let s := s.modEccReg (s.itemSlice i) fun e => { e with corrected := e.corrected + 1 }
  s.trip i units

/-- A home is freed: it enters the suspect list where it tripped or was read uncorrectable (R365). -/
def State.freeHome (s : State) (slice : Nat) (h : Home) (bad : Bool) : State := if bad then s.suspect slice h else s

/-- An uncorrectable read of a block home (R358, R359, R365, R366); an ACTIVATION block is freed with it. -/
def State.uncorrectable (s : State) (i : Item) (source : Nat) : State :=
  match s.homeOf i with
  | none => s
  | some h =>
    let s := s.modEccReg (s.itemSlice i) fun e => { e with uncorrectable := e.uncorrectable + 1 }
    let s := s.poisonItem i source
    let s := if (s.homeOf i).isNone then s.freeHome (s.itemSlice i) h true else s.modEnt i fun e => { e with bad := true }
    s.retireOverlap i h 2 none

/-- An uncorrectable line of a page homed in T1 (R358). -/
def State.uncorrectableLine (s : State) (line : Nat) : State :=
  let i := Item.page (line / 64)
  match s.homeOf i with
  | none => s
  | some h =>
    let s := s.modEccReg (s.itemSlice i) fun e => { e with uncorrectable := e.uncorrectable + 1 }
    let s := (s.poisonLine line).modEnt i fun e => { e with bad := true }
    s.retireOverlap i h 2 none

/-- A map entry is written in both copies of the map region, in SYS_CLASS (09 R282, 10 R316). -/
def State.mapTraffic (s : State) (slice : Nat) : State := s.moved slice 1 s.qos.sysClass (if hasParity s.cfg then 512 else 128)

/-- A new home stored for an item: its tallies restart (R363) and the old home is freed. -/
def State.storeHome (s : State) (i : Item) (h : Home) (tripped : Bool) : State :=
  let slice := s.itemSlice i
  let old := s.entOf i
  let s := match old with
    | some e => match e.home with
      | some o => s.freeHome slice o (e.bad || tripped)
      | none => s
    | none => s
  (s.mapTraffic slice).modEnt i fun e => { e with home := some h, heavy := 0, any := 0, bad := false }

/-! ### Failed decodes (05 R163-R167) -/

/-- A decode that fails (R164-R167): the record, the EYE_ERR bits, and the block uncorrectable at its home. `source`: 0
Eyepiece, 1 Prism decoder, 2 Condenser. -/
def State.decodeFailed (s : State) (i : Item) (b : Block) (r : DecRes) (source unit wsource : Nat) : State :=
  let slice := s.itemSlice i
  let loc := s.locator i
  let mk (cause produced held : Nat) : Bytes :=
    flds [(1, slice), (1, source), (1, unit), (1, cause), (1, b.coder + 16),
      (1, b.fmt + (if b.typed then 16 else 0) + 32 * b.kind), (2, b.slot + 64 * b.gen), (4, b.logical), (4, produced),
      (8, loc), (8, s.tbc), (2, held)]
  let eye (k : Nat) (s : State) : State :=
    s.modCnd slice fun c => { c with eyeErr := c.eyeErr ||| BitVec.ofNat 5 (2 ^ k), eyeCount := c.eyeCount + 1 }
  let s := match r with
    | .ok _ => s
    | .badLength long p => (eye (b2n long) s).recordLim 2 0x0009 slice ms (mk (b2n long) p)
    | .badCheck c p => (eye (2 + c) s).recordLim 2 0x000A slice ms (mk c p)
  s.uncorrectable i wsource

/-- The logical content of an item's block, decoded on its slice; a failure has its consequences (R166). -/
def State.decodeItem (s : State) (i : Item) (b : Block) (source unit wsource : Nat) : Option Bytes × State :=
  match decodeBlock (s.cn (s.itemSlice i)).slots b with
  | .ok out => (some out, s)
  | r => (none, s.decodeFailed i b r source unit wsource)

/-! ### Reads of blocks (11 R349, R353, R363) -/

/-- The 256 B unit of MA that holds a byte of a home. -/
def State.unitOfByte (s : State) (slice : Nat) (h : Home) (k : Nat) : Nat :=
  let step (a : Nat × Option Nat) (p : Nat × Nat × Nat) : Nat × Option Nat :=
    if a.2.isSome then a else if k < a.1 + p.2.2 then (a.1, some (p.1 + (k - a.1))) else (a.1 + p.2.2, none)
  (((homePieces s.cfg slice h).foldl step (0, none)).2.getD h.ma) / 256

/-- A block read from its home with bits in error on the media: the line code in T1, then the page code. Symbols and bits
corrected, none where the block is uncorrectable; the consequences of either. -/
def State.blockRead (s : State) (i : Item) (h : Home) (b : Block) (bs : List Nat) (wsource : Nat) : Option Nat × State :=
  if bs.isEmpty then (some 0, s)
  else
    let e := homeErrors h.tier b.sectors bs
    match pageDecode b.sectors b.strength e.1 with
    | none => (none, s.uncorrectable i wsource)
    | some n =>
      if n + e.2 = 0 then (some 0, s)
      else
        let units := ((bs.filter (· < 2048 * b.sectors)).map fun k => s.unitOfByte (s.itemSlice i) h (k / 8)).eraseDups
        (some (n + e.2), s.corrected i (strengthT b.strength ≤ 2 * n) units)

/-- An item's block read from its home and decoded on its slice. -/
def State.readItem (s : State) (i : Item) (h : Home) (b : Block) (bs : List Nat) (source unit wsource : Nat) : Option Bytes × State :=
  match s.blockRead i h b bs wsource with
  | (none, s) => (none, s)
  | (some _, s) => s.decodeItem i b source unit wsource

end Sys2Proof.Machine
end

