-- ==== Sys2Proof/Machine/Queue.lean ====
section
/-! DEFINITION. Bank queues, their admission and the issue of commands (10 R317-R321, 09 R288). -/
namespace Sys2Proof.Machine
open Sys2Proof

/-- Controller cycles of a time in ns: 1.5 GHz in T1, 1.2 GHz in T2. -/
def cyclesOf (tier ns : Nat) : Nat := if tier = 1 then ns * 3 / 2 else ns * 6 / 5

/-- Time in ns after which so many cycles have passed. -/
def nsOf (tier cycles : Nat) : Nat := if tier = 1 then (cycles * 2 + 2) / 3 else (cycles * 5 + 5) / 6

/-- Entries of a bank, oldest first. -/
def bankQueue (q : List QEnt) (bank : Nat) : List QEnt := q.filter fun e => e.bank == bank

/-- A request of a class may enter a bank queue (09 R288). -/
def State.mayEnter (s : State) (q : List QEnt) (bank cls : Nat) : Bool :=
  let b := bankQueue q bank
  let held (k : Nat) : Nat := (b.filter fun e => e.cls == k).length
  let reserved := (List.range 16).foldl (fun n k => n + ((s.cls k).qMin - held k)) 0
  b.length < 16 && (held cls < (s.cls cls).qMin || (held cls < (s.cls cls).qMax && b.length + reserved < 16))

/-- WR_HIGH, WR_LOW, AGE_CAP and IDLE_CYCLES of a controller's tier. -/
def State.sched (s : State) (c : Ctl) : Nat × Nat × Nat × Nat :=
  let r := s.drcReg c.slice
  if c.tier = 1 then (r.wrHigh1, r.wrLow1, r.age1, r.idle1) else (r.wrHigh2, r.wrLow2, r.age2, r.idle2)

def writesIn (q : List QEnt) : Nat := (q.filter (·.write)).length

/-- An entry that enters its bank queue: a read that matches a pending write puts the bank in in-order mode (R320), and
enough writes start the write drain (R319). -/
def State.intoQueue (s : State) (c : Ctl) (e : QEnt) : State :=
  s.modChan c fun x =>
    let hit := (bankQueue x.queue e.bank).reverse.find? fun w => w.write && w.row == e.row
    let x := match e.write, hit with
      | false, some w =>
        { x with inOrder := tabSet x.inOrder e.bank w.id,
                 inOrderEntries := if (tabFind x.inOrder e.bank).isSome then x.inOrderEntries else x.inOrderEntries + 1 }
      | _, _ => x
    let q := x.queue ++ [e]
    { x with queue := q, drain := x.drain || (s.sched c).1 ≤ writesIn q }

/-- A command that a controller issues, among the last 64 it keeps (R336). -/
def State.issue (s : State) (c : Ctl) (cmd bank row : Nat) : State :=
  s.modChan c fun x =>
    let l := x.cmds ++ [{ tbc := s.tbc, cmd := cmd, bank := bank, row := row }]
    { x with cmds := l.drop (l.length - 64) }

/-- A channel in self-refresh leaves it when a request arrives (17 R572). -/
def State.leaveSelfRefresh (s : State) (c : Ctl) : State :=
  if (s.chan c).selfRefresh then (s.issue c 7 0 0).modChan c fun x => { x with selfRefresh := false } else s

/-- A request takes its place in its bank queue; that is as far as a write owes its host (R317). -/
def State.enter (s : State) (c : Ctl) (e : QEnt) : State :=
  let s := (s.leaveSelfRefresh c).intoQueue c e
  if e.write then s.jobStep e.job else s

/-- A request bound for a controller: it enters its bank queue, or waits in the ingress queue of its slice and class behind those
that wait there (09 R288). A controller out of service takes none. -/
def State.enqueue (s : State) (c : Ctl) (e : QEnt) : State :=
  if s.chanState c != 2 then s.jobStep e.job
  else
    let e := { e with id := s.drc.nextEnt }
    let s := s.setDrc { s.drc with nextEnt := s.drc.nextEnt + 1 }
    let behind := s.drc.ingress.any fun x => (ctlOf x.1).slice == c.slice && x.2.cls == e.cls
    if !behind && s.mayEnter (s.chan c).queue e.bank e.cls then s.enter c e
    else s.setDrc { s.drc with ingress := s.drc.ingress ++ [(ctlKey c, e)] }

/-- The bank, row and controller entries of a stretch of a home. -/
def State.entriesFor (s : State) (slice : Nat) (h : Home) (off len : Nat) (write : Bool) (cls : Nat) : List (Ctl × QEnt) :=
  ((homePieces s.cfg slice h).filter fun p => p.1 < h.ma + off + len && h.ma + off < p.1 + p.2.2).filterMap fun p =>
    let (u, L) := mapMa s.cfg slice h.tier (max p.1 (if h.blk.isNone then h.ma + off else p.1))
    let (b, r) := bankRow s.cfg h.tier L
    (s.physOf slice h.tier u).map fun c => (c, { bank := b, row := r, laddr := L, write := write, cls := cls, arrival := s.tbc })

/-- Accesses to a stretch of a home, queued at the controllers they reach and counted in the class's use (09 R285). -/
def State.access (s : State) (slice : Nat) (h : Home) (off len : Nat) (write : Bool) (cls : Nat) : State :=
  if 2 < h.tier then s
  else
    let s := if write then s.wrote slice h off len cls else s.moved slice h.tier cls (if h.blk.isNone then len else homeLen h)
    (s.entriesFor slice h off len write cls).foldl (fun s e => s.enqueue e.1 e.2) s

/-- The entries of a host access, queued as one job. -/
def State.queueJob (s : State) (j : Job) (es : List (Ctl × QEnt)) : State :=
  let (k, s) := s.addJob { j with left := es.length }
  if es.isEmpty then s.endJob k false else es.foldl (fun s e => s.enqueue e.1 { e.2 with job := some k }) s

/-- A host's read of a stretch of a home in T1 or T2, answered with `data`, none for poison, once its entries are issued (R336). -/
def State.readJob (s : State) (slice : Nat) (h : Home) (off len : Nat) (r : RReq) (data : Option Bytes) : State :=
  let s := s.moved slice h.tier r.cls (if h.blk.isNone then len else homeLen h)
  s.queueJob { left := 0, tier := h.tier, read := some r, data := data } (s.entriesFor slice h off len false r.cls)

/-- A host's write of a stretch of a home in T1 or T2, completed once its entries are in their bank queues (R317). Each entry of a T1
line names the line. -/
def State.writeJob (s : State) (slice : Nat) (h : Home) (off len : Nat) (w : WReq) : State :=
  let s := s.wrote slice h off len w.cls
  let es := (s.entriesFor slice h off len true w.cls).map fun e =>
    (e.1, { e.2 with link := w.link, pbr := w.pbr, line := if h.blk.isNone then some (w.line * 64) else none })
  s.queueJob { left := 0, tier := h.tier, write := some w } es

/-- A stretch of a home lies on a frozen controller. -/
def State.homeFrozen (s : State) (slice : Nat) (h : Home) (off len : Nat) : Option Ctl :=
  if 2 < h.tier then none
  else ((s.entriesFor slice h off len false 0).find? fun e => s.frozen e.1).map (·.1)

/-- The request has waited longer than AGE_CAP x 256 controller cycles (R318). -/
def State.isUrgent (s : State) (c : Ctl) (e : QEnt) : Bool :=
  (s.sched c).2.2.1 * 256 < cyclesOf c.tier (s.tbc - e.arrival)

/-- The request that a bank would issue (R318-R320), none where it may issue none now. -/
def State.choose (s : State) (c : Ctl) (bank : Nat) (drain : Bool) : Option QEnt :=
  let x := s.chan c
  let b := bankQueue x.queue bank
  if (tabFind x.inOrder bank).isSome then b.head?
  else
    let urgent := b.filter (s.isUrgent c)
    let pick := if drain then b.filter (·.write) else b.filter fun e => !e.write
    let pick := if pick.isEmpty && !drain then [] else pick
    match urgent with
    | e :: _ => some e
    | [] => match pick.find? fun e => tabFind x.openRows bank == some e.row with
      | some e => some e
      | none => pick.head?

/-- The controller's banks in rotation after the one last picked. -/
def rotation (last n : Nat) : List Nat := (List.range n).map fun k => (last + 1 + k) % n

/-- Requests of a slice's ingress queues that may enter now do, each class in arrival order (09 R288). -/
def State.drainIngress (s : State) (slice : Nat) : State :=
  (s.drc.ingress.foldl (fun (a : State × List Nat) x =>
    let c := ctlOf x.1
    if c.slice != slice || a.2.contains x.2.cls then a
    else if a.1.chanState c == 2 && a.1.mayEnter (a.1.chan c).queue x.2.bank x.2.cls then
      ((a.1.setDrc { a.1.drc with ingress := a.1.drc.ingress.erase x }).enter c x.2, a.2)
    else (a.1, x.2.cls :: a.2)) (s, [])).1

/-- A bank's open row closes. -/
def State.closeRow (s : State) (c : Ctl) (bank : Nat) : State :=
  match tabFind (s.chan c).openRows bank with
  | none => s
  | some r => (s.issue c 3 bank r).modChan c fun x => { x with openRows := tabDel x.openRows bank }

/-- The refresh-management command of a marked bank (R326). -/
def State.markRfm (s : State) (c : Ctl) (bank : Nat) : State :=
  match tabFind (s.chan c).marks bank with
  | none => s
  | some _ => ((s.closeRow c bank).issue c 5 bank 0).modChan c fun x =>
      { x with marks := tabDel x.marks bank, rfmRand := x.rfmRand + 1 }

/-- The refresh-management command that the standard requires from the activate count (R327). -/
def State.ownRfm (s : State) (c : Ctl) (bank : Nat) : State :=
  if tabGet 0 (s.chan c).raa bank < Config.rfmThreshold c.tier then s
  else ((s.closeRow c bank).issue c 5 bank 0).modChan c fun x => { x with raa := tabDel x.raa bank }

/-- An activate: counted, toward a mark and toward the standard's own count; a marked bank receives its command before
its fourth following activate (R326, R327). -/
def State.activate (s : State) (c : Ctl) (bank row : Nat) : State :=
  let s := if 3 ≤ (tabGet (0, 0) (s.chan c).marks bank).1 then s.markRfm c bank else s
  let s := s.ownRfm c bank
  (s.issue c 0 bank row).modChan c fun x =>
    { x with openRows := tabSet x.openRows bank row, acts := x.acts + 1, lastAccess := tabSet x.lastAccess bank s.tbc,
             marks := x.marks.map fun m => if m.1 = bank then (m.1, (m.2.1 + 1, m.2.2)) else m,
             raa := tabMod 0 x.raa bank (· + 1), draws := tabMod 0 x.draws bank (· + 1) }

/-- Some bank may issue a read now, the write drain apart (R319). -/
def State.readIssuable (s : State) (c : Ctl) : Bool :=
  (List.range (if c.tier = 1 then 64 else 32)).any fun b => (s.choose c b false).any fun e => !e.write

/-- Column of a local address in 64 B units (R312). -/
def columnOf (tier laddr : Nat) : Nat := if tier = 1 then bits laddr 9 6 else bits laddr 10 6

/-- One controller cycle (R318-R321): the picked bank precharges, activates or carries out its request. -/
def bankIssue (c : Ctl) (s : State) : State :=
  let x := s.chan c
  if s.chanState c != 2 || x.queue.isEmpty then s.drainIngress c.slice
  else
    let w := writesIn x.queue
    let (hi, lo, _, idle) := s.sched c
    let reads := x.queue.length - w
    let drain := if x.drain then !(w ≤ lo && 0 < reads) && 0 < w else 0 < w && (decide (hi ≤ w) || !s.readIssuable c)
    let s := s.modChan c fun x => { x with drain := drain }
    let n := if c.tier = 1 then 64 else 32
    let urgentBanks := (List.range n).filter fun b => (bankQueue x.queue b).any (s.isUrgent c)
    let cand := (rotation x.lastBank n).filter fun b => (urgentBanks.isEmpty || urgentBanks.contains b) && (s.choose c b drain).isSome
    match cand with
    | [] => s.drainIngress c.slice
    | b :: _ =>
      match s.choose c b drain with
      | none => s
      | some e =>
        let s := s.modChan c fun x => { x with lastBank := b }
        match tabFind x.openRows b with
        | none => s.activate c b e.row
        | some r =>
          if r != e.row then
            (s.issue c 3 b r).modChan c fun x => { x with openRows := tabDel x.openRows b }
          else
            let s := (s.issue c (if e.write then 2 else 1) b (columnOf c.tier e.laddr)).modChan c fun x =>
              { x with queue := x.queue.erase e, lastAccess := tabSet x.lastAccess b s.tbc,
                       inOrder := if e.write && tabFind x.inOrder b == some e.id then tabDel x.inOrder b else x.inOrder,
                       openRows := if idle = 0 then tabDel x.openRows b else x.openRows, srIdle := s.pwr.srIdleUs }
            (if e.write then s else s.jobStep e.job).drainIngress c.slice

/-- The oldest request of a bank becomes urgent once it has waited so long (R318). -/
def requestUrgent (c : Ctl) (bank : Nat) (s : State) : State :=
  match bankQueue (s.chan c).queue bank with
  | e :: _ => s.until (e.arrival + nsOf c.tier ((s.sched c).2.2.1 * 256) + 1)
  | [] => s

/-- A bank without a queued request precharges after IDLE_CYCLES without an access (R321). -/
def bankIdle (c : Ctl) (bank : Nat) (s : State) : State :=
  let x := s.chan c
  match tabFind x.openRows bank with
  | none => s
  | some r =>
    if s.chanState c != 2 || !(bankQueue x.queue bank).isEmpty then s
    else
      let s := s.until (tabGet 0 x.lastAccess bank + nsOf c.tier (s.sched c).2.2.2)
      (s.issue c 3 bank r).modChan c fun x => { x with openRows := tabDel x.openRows bank }

end Sys2Proof.Machine
end

