-- ==== Sys2Proof/Machine/Pool.lean ====
section
/-! DEFINITION. Pool memory: reads and writes at the home (01 R22-R24, 06 R172, R194), the Condenser's work and capacity
pressure (06 R199-R206), moves, heat and migration (06 R185-R194), the Loupe cache (06 R195-R198). -/
namespace Sys2Proof.Machine
open Sys2Proof

/-! ### Heat (06 R185, R186) -/

/-- The entry brought to the slice's present epoch: its heat halves for each period elapsed, at most eight. -/
def decayed (m : MigSlice) (e : Ent) : Ent :=
  let el := (m.periods % 16 + 16 - e.epoch) % 16
  { e with heat := e.heat >>> min 8 el, epoch := m.periods % 16 }

/-- An access sampled by a draw (R185): a read adds 1, a write 2. -/
def State.sampleHeat (s : State) (i : Item) (add : Nat) : State :=
  let (v, s) := s.draw
  let m := s.mig (s.itemSlice i)
  if v % 2 ^ m.sampleK != 0 then s
  else s.modEnt i fun e => let e := decayed m e; { e with heat := min 255 (e.heat + add) }

/-- Present heat of an item. -/
def State.heatOf (s : State) (i : Item) : Nat :=
  match s.entOf i with
  | some e => (decayed (s.mig (s.itemSlice i)) e).heat
  | none => 0

/-! ### Capacity pressure (06 R199-R206) -/

def drawKey (t slice : Nat) : Nat := t * 8 + slice
def State.drawOf (s : State) (t slice : Nat) : Draw := tabGet {} s.pool.draws (drawKey t slice)
def State.modDraw (s : State) (t slice : Nat) (f : Draw → Draw) : State :=
  s.setPool { s.pool with draws := tabMod {} s.pool.draws (drawKey t slice) f }

/-- Sectors of OVERFLOW_QUOTA that a tenant uses, over all slices. -/
def State.overflowUsed (s : State) (t : Nat) : Nat :=
  (List.range 8).foldl (fun n k => n + (s.drawOf t k).overflow) 0

/-- Sectors of a slice's drawable reserve, and those that tenants draw. -/
def State.drawable (s : State) (slice : Nat) : Nat := ((s.mig slice).reserveMib - (s.mig slice).floorMib) * 4096
def State.drawnOn (s : State) (slice : Nat) : Nat :=
  s.pool.draws.foldl (fun n d => if d.1 % 8 = slice then n + d.2.reserve else n) 0

/-- Sectors that a tenant may still draw from a slice's reserve (R199). -/
def State.reserveLeft (s : State) (t slice : Nat) : Nat :=
  let left := s.drawable slice - s.drawnOn slice
  let own := (s.drawOf t slice).reserve
  min left ((left + own) * s.cfg.reserveTenantPct / 100 - own)

/-- Writes of a tenant held on a slice. -/
def State.heldOn (s : State) (t slice : Nat) : Nat :=
  (s.pool.held.filter fun w => s.sliceOf (w.line * 64) == slice && s.itemTenant (.page (w.line / 64)) == t).length

/-- The payload of a CAPACITY_PRESSURE record (R206). -/
def State.pressure (s : State) (t slice stage base lines : Nat) : Bytes :=
  flds [(2, t), (1, slice), (1, stage), (4, 0), (8, base), (8, s.overflowUsed t * 256), (8, (s.drawOf t slice).reserve * 256),
    (4, s.heldOn t slice), (4, lines), (8, s.tbc)]

/-- A stage change: its record and the management vector of the tenant's VF (R206, 12 R400). -/
def State.stage (s : State) (t slice stage base : Nat) : State :=
  (s.record (if stage = 2 then 1 else 0) 0x000F (s.pressure t slice stage base 0)).signal (.vf t) 3

/-- The tenant draws on the reserve no more and has no held write: RELIEVED (R204). -/
def State.relieved (s : State) (t slice base : Nat) : State :=
  let d := s.drawOf t slice
  if d.stageReserve && d.reserve = 0 && s.heldOn t slice = 0 then
    (s.modDraw t slice fun d => { d with stageReserve := false }).stage t slice 4 base
  else s

/-- Sectors of an overrun: stored bytes beyond the reservation. -/
def State.excess (s : State) (base : Nat) (e : Extent) : Nat :=
  (s.extentStored base e - s.extentReservation base e + 255) / 256

def drawnTotal (e : Extent) : Nat := e.drawn.foldl (fun n d => n + d.2) 0

/-- Sectors that a block of `new` sectors in place of `old` draws: its excess over the reservation and what is drawn (R200). -/
def State.drawNeed (s : State) (base : Nat) (e : Extent) (old new : Nat) : Nat :=
  if new ≤ old then 0
  else (s.extentStored base e + 256 * new - 256 * old - s.extentReservation base e + 255) / 256 - drawnTotal e

/-- The draw for a block (R200); none where the write must be held. -/
def State.drawFor (s : State) (base : Nat) (e : Extent) (slice old new : Nat) : Option State :=
  let need := s.drawNeed base e old new
  if need = 0 then some s
  else
    let t := e.owner
    let ov := min need ((s.quota t).overflow * 4096 - s.overflowUsed t)
    let rs := need - ov
    if s.reserveLeft t slice < rs then none
    else
      let d := s.drawOf t slice
      let s1 := s.modDraw t slice fun d => { d with overflow := d.overflow + ov, reserve := d.reserve + rs, lastExtent := base }
      let s1 := s1.setPool { s1.pool with extents := tabSet s1.pool.extents base { e with drawn := tabMod 0 e.drawn slice (· + need) } }
      let s1 := if ov != 0 && d.overflow = 0 then s1.stage t slice 0 base else s1
      some (if rs != 0 && d.reserve = 0 then (s1.modDraw t slice fun d => { d with stageReserve := true }).stage t slice 1 base else s1)

/-- One pass over what is drawn for an extent: its reserve draws, or those on OVERFLOW_QUOTA. What is left to repay, and what stays
drawn by slice. -/
def repayPass (t base : Nat) (reserve : Bool) (a : State × Nat × Tab Nat) : State × Nat × Tab Nat :=
  a.2.2.foldl (fun (b : State × Nat × Tab Nat) d =>
    let (s, left, kept) := b
    let w := s.drawOf t d.1
    let n := min left (min d.2 (if reserve then w.reserve else w.overflow))
    let s := s.modDraw t d.1 fun w => if reserve then { w with reserve := w.reserve - n } else { w with overflow := w.overflow - n }
    (s.relieved t d.1 base, left - n, if d.2 = n then kept else kept ++ [(d.1, d.2 - n)])) (a.1, a.2.1, [])

/-- Charges are repaid as far as an extent's overrun has shrunk: the reserve of every slice first, then OVERFLOW_QUOTA (R204). -/
def State.repay (s : State) (base : Nat) : State :=
  match tabFind s.pool.extents base with
  | none => s
  | some e =>
    let surplus := drawnTotal e - s.excess base e
    if surplus = 0 then s
    else
      let (s, _, kept) := repayPass e.owner base false (repayPass e.owner base true (s, surplus, e.drawn))
      match tabFind s.pool.extents base with
      | none => s
      | some e => s.setPool { s.pool with extents := tabSet s.pool.extents base { e with drawn := kept } }

def State.repayItem (s : State) (i : Item) : State :=
  match i with
  | .page n => match s.extentOf (n * 4096) with
    | some (base, _) => s.repay base
    | none => s
  | _ => s

/-! ### Reads at the home -/

/-- Class of a host's requests (09 R282). -/
def State.hostCls (s : State) (h : Nat) : Nat := ((s.hostRec h).map (·.cls)).getD s.qos.sysClass

/-- A line carries a write that is held or not yet stored (06 R194, R201). -/
def State.lineBusy (s : State) (line : Nat) : Bool :=
  (s.pool.held.any fun w => w.line == line) || (s.pool.coding.any fun w => w.line == line) ||
  (s.pool.far.any fun w => w.2.line == line) || (s.drc.waitWrites.any fun w => w.2.line == line) ||
  (s.pool.moves.any fun m => m.held.any fun w => w.line == line) ||
  ((List.range 8).any fun k => (s.eccReg k).waitWrites.any fun w => w.line == line)

def State.waitRead (s : State) (r : RReq) : State := s.setPool { s.pool with waiting := s.pool.waiting ++ [r] }

def State.lineData (s : State) (line : Nat) : Bytes := memReadN s.pool.mem (line * 64) 64

/-- A read of a line of a page homed in T1, with the symbols in error on the media (11 R348). -/
def State.readT1 (s : State) (r : RReq) (h : Home) (flips : List Flip) : State :=
  let line := r.dpa / 64
  let i := Item.page (r.dpa / 4096)
  let slice := s.sliceOf r.dpa
  let off := 64 * (line % 64)
  match s.homeFrozen slice h off 64 with
  | some c =>
    if (s.chan c).poisoning then s.respondRead r 1 none
    else s.setDrc { s.drc with waitReads := s.drc.waitReads ++ [(ctlKey c, r)] }
  | none =>
    match lineDecode flips with
    | none => (s.uncorrectableLine line).readJob slice h off 64 r none
    | some (left, n) =>
      let s := if n = 0 then s else s.corrected i false [(h.ma + off) / 256]
      s.readJob slice h off 64 r (some (applyFlips (s.lineData line) left))

/-- A Loupe copy serves a read and becomes the latest used. -/
def State.loupeHit (s : State) (n : Nat) : State :=
  let top := s.pool.loupe.foldl (fun m c => max m c.used) 0
  (s.setPool { s.pool with loupe := s.pool.loupe.map fun c => if c.page == n then { c with used := top + 1 } else c }).modMig
    (s.sliceOf (n * 4096)) fun m => { m with hits := m.hits + 1 }

/-- A read that misses begins the fill of its page where LPE_CTL lets it (06 R196, R207). -/
def State.loupeMiss (s : State) (slice n tier cls : Nat) : State :=
  let m := s.mig slice
  let s := s.modMig slice fun m => { m with misses := if m.lpeEnable then m.misses + 1 else m.misses }
  if !m.lpeEnable || s.bistOn slice [2] || !bit m.lpeFill (tier - 2) || (s.pool.fills.any fun f => f.1 == n) then s
  else s.setPool { s.pool with fills := s.pool.fills ++ [(n, cls)] }

/-- A read of a line of a page stored as a block: from the Loupe copy, the medium with the bits in error there, or by the fabric or
a tray. -/
def State.readBlock (s : State) (r : RReq) (h : Home) (flips : List Flip) : State :=
  let line := r.dpa / 64
  let n := r.dpa / 4096
  let slice := s.sliceOf r.dpa
  if (s.mig slice).lpeEnable && s.pool.loupe.any fun c => c.page == n then
    (s.loupeHit n).respondRead r h.tier (some (s.lineData line))
  else
    let s := s.loupeMiss slice n h.tier r.cls
    if h.tier = 2 then
      match s.homeFrozen slice h 0 (homeLen h) with
      | some c =>
        if (s.chan c).poisoning then s.respondRead r 2 none
        else s.setDrc { s.drc with waitReads := s.drc.waitReads ++ [(ctlKey c, r)] }
      | none =>
        match h.blk with
        | none => s.readJob slice h 0 (homeLen h) r (some (s.lineData line))
        | some b =>
          match s.readItem (.page n) h b (flipBits flips) 1 0 0 with
          | (some out, s) => s.readJob slice h 0 (homeLen h) r (some (slice' out line))
          | (none, s) => s.readJob slice h 0 (homeLen h) r none
    else if s.farOk h then (s.farRead (.page n) h).waitRead r
    else (s.uncorrectable (.page n) 0).respondRead r h.tier none
where
  slice' (out : Bytes) (line : Nat) : Bytes := slice out (64 * (line % 64)) 64

/-- A read of a pool line at its home (01 R22, 06 R172, 11 R356). -/
def State.readAt (s : State) (r : RReq) (flips : List Flip) : State :=
  let line := r.dpa / 64
  if !s.up (s.sliceOf r.dpa) then s.respondRead r 2 none
  else if s.lineBusy line then s.waitRead r
  else if s.linePoison line then s.respondRead r 1 none
  else match s.homeOf (.page (r.dpa / 4096)) with
    | none => s.respondRead r 2 (some (List.replicate 64 0))
    | some h => if h.tier = 1 then s.readT1 r h flips else s.readBlock r h flips

/-- A read of a pool line as it arrives: sampled for heat on a slice that serves (06 R185). -/
def State.serveRead (s : State) (r : RReq) (flips : List Flip) : State :=
  (if s.up (s.sliceOf r.dpa) then s.sampleHeat (.page (r.dpa / 4096)) 1 else s).readAt r flips

/-- Reads that no write and no fabric read holds up any longer are served, oldest first. -/
def State.wake (s : State) : State :=
  s.pool.waiting.foldl (fun s r =>
    if s.lineBusy (r.dpa / 64) || s.farBusy (.page (r.dpa / 4096)) then s
    else (s.setPool { s.pool with waiting := s.pool.waiting.erase r }).readAt r []) s

/-! ### Writes at the home -/

def fullBe : Nat := 2 ^ 64 - 1

/-- The region that an extent of a DPA belongs to, when it is SHARED_PUBLISHED. -/
def State.regionOf (s : State) (dpa : Nat) : Option (Nat × Region) :=
  match s.extentOf dpa with
  | some (_, e) => if e.policy.sharing = 2 then e.region.bind fun r => (s.region r).map fun g => (r, g) else none
  | none => none

/-- A write from a host reaches the home of a page: its publish record and the conflict it may add (07 R235, R236). -/
def State.published (s : State) (w : WReq) : State :=
  match w.link, s.regionOf (w.line * 64) with
  | none, _ => s
  | _, none => s
  | _, some (r, g) =>
    let n := w.line / 64
    let p := s.page n
    let cnt (h : Nat) : Nat := tabGet 0 g.counts h % 2 ^ 21
    let g' : Region :=
      if p.pubValid && p.pubWriter != w.host && p.pubCount == cnt p.pubWriter then
        if g.conflicts.any fun c => c.1 == n && c.2.1 == p.pubWriter && c.2.2.1 == w.host then g
        else if g.conflicts.length < 256 then { g with conflicts := g.conflicts ++ [(n, p.pubWriter, w.host, s.tbc)] }
        else { g with overflow := true }
      else g
    (s.setDir { s.dir with regions := tabSet s.dir.regions r g' }).modPage n fun p =>
      { p with pubWriter := w.host, pubValid := true, pubCount := cnt w.host }

/-- A partial write to a poisoned line is discarded (07 R217). -/
def State.discards (s : State) (w : WReq) : Bool := w.be != fullBe && s.linePoison w.line

/-- A write that touches bytes 0 to 31 of a cursor line: the evaluation that follows it is due (04 R104). -/
def State.touchLine (s : State) (w : WReq) : State :=
  if w.be % 2 ^ 32 != 0 && s.eng.cursors.any fun e => !e.2.unbound && (e.2.extent + e.2.lineOff) / 64 == w.line then
    s.setEng { s.eng with cursors := s.eng.cursors.map fun e =>
      if (e.2.extent + e.2.lineOff) / 64 == w.line then (e.1, { e.2 with due := true }) else e }
  else s

/-- The data of a write at its line: a full-line write clears the line's poison, a poisoned write sets it (07 R217). -/
def State.land (s : State) (w : WReq) : State :=
  let s := s.touchLine w
  if w.poison then s.poisonLine w.line
  else
    let s := s.setPool { s.pool with mem := memWriteBe s.pool.mem (w.line * 64) w.be w.data }
    if w.be = fullBe then s.modPage (w.line / 64) fun p => { p with poison := maskBit p.poison (w.line % 64) false } else s

/-- A tenant has room in T1 (R188): free quota, and a charge below T1_HIGH_PCT of it. -/
def State.roomT1 (s : State) (t slice len : Nat) : Bool :=
  len ≤ s.quotaLeft t 1 && s.charge t 1 * 100 < (s.mig slice).t1High * s.quotaBytes t 1

/-- The T2 part of a REMOTE_OK extent's reservation has room for a block. -/
def State.roomT2Part (s : State) (base : Nat) (e : Extent) (len : Nat) : Bool :=
  let inT2 := (s.pagesIn base e.len).foldl (fun n p => match p.2.ent.home with
    | some h => if h.tier = 2 then n + homeLen h else n
    | none => n) 0
  inT2 + len ≤ e.t2Part

/-- A block may be stored anew at an old T2 home: it lies clear of frozen controllers, retired units of 256 B and logical units
(11 R366, 10 R314), and segments that take no new homes (10 R328, R330). -/
def State.reusable (s : State) (slice : Nat) (o : Home) : Bool :=
  let sp := homeSpan s.cfg slice o
  let seg := o.ma / segBytes s.cfg slice
  (s.homeFrozen slice o 0 (homeLen o)).isNone &&
  ((homePieces s.cfg slice o).all fun p => (s.physOf slice 2 p.2.1).isSome) &&
  !((s.eccReg slice).retire.any fun r => r.1 == 2 && sp.1 < (r.2 + 1) * 256 && r.2 * 256 < sp.2) &&
  bit (s.drcReg slice).keep seg && !bit (s.drcReg slice).evac seg

/-- Where a page's block goes when it leaves T1, is written first, or is coded afresh: `old` is its present home below
T1. A block keeps its tier; otherwise T2 comes first, and T3 and T4 where the extent is REMOTE_OK (R188). -/
def State.placeBlock (s : State) (n : Nat) (b : Block) (old : Option Home) : Option Home :=
  let slice := s.sliceOf (n * 4096)
  let len := b.sectors * 256
  let t2 : Option Home := (s.alloc slice 2 len).map fun a => { tier := 2, ma := a.1, skips := a.2, blk := some b }
  let again : Option Home := match old with
    | some o => if o.tier = 2 && len ≤ homeLen o && s.reusable slice o then some { o with blk := some b } else none
    | none => none
  match s.extentOf (n * 4096) with
  | none => none
  | some (base, e) =>
    let far := if e.policy.remoteOk then s.placeFar slice b true else none
    match old.map (·.tier) with
    | some 2 => t2 <|> again <|> far
    | some 3 => far <|> t2
    | some 4 => far <|> t2
    | _ => if e.policy.remoteOk && !s.roomT2Part base e len then far <|> t2 else t2 <|> far

/-- A write at a page homed in T1, or with none and placed there: stored at once; none where it must wait or has no place
in T1. -/
def State.writeT1 (s : State) (w : WReq) (h : Home) : State :=
  let n := w.line / 64
  let slice := s.sliceOf (n * 4096)
  let off := 64 * (w.line % 64)
  match s.homeFrozen slice h off 64 with
  | some c =>
    if (s.chan c).poisoning then ((s.poisonLine w.line).complete w 1)
    else s.setDrc { s.drc with waitWrites := s.drc.waitWrites ++ [(ctlKey c, w)] }
  | none =>
    if s.stripeWaits slice h off then s.modEccReg slice fun e => { e with waitWrites := e.waitWrites ++ [w] }
    else
      ((s.published w).land w).writeJob slice h off 64 w

/-- A write coded into its page's block and stored (05 R150, 06 R200); none where it must be held: it finds no sectors or no place,
or under `strict` it would deepen an overrun at all (R201). -/
def State.storeCoded (s : State) (w : WReq) (base : Nat) (e : Extent) (strict : Bool) : Option State :=
  let n := w.line / 64
  let slice := s.sliceOf (n * 4096)
  let old := s.homeOf (.page n)
  let s1 := (s.published w).land w
  let (b, s1) := s1.condensePage n
  let was := (old.map (homeLen · / 256)).getD 0
  match if strict && s1.drawNeed base e was b.sectors != 0 then none else s1.drawFor base e slice was b.sectors with
  | none => none
  | some s1 =>
    match s1.placeBlock n b old with
    | none => none
    | some h =>
      let s1 := ((s1.storeHome (.page n) h false).countBlock slice b).loupeDrop n
      let s1 := if h.tier = 3 then
          (s1.setPool { s1.pool with far := s1.pool.far ++ [(n, w)] }).farWrite (.page n) h
        else if h.tier = 4 then (s1.farWrite (.page n) h).complete w 4
        else s1.writeJob slice h 0 (homeLen h) w
      some (s1.repay base)

/-- A write stored at its home, or none where it must be held: for want of sectors, under `strict` behind its tenant's held writes
(R201), or in a PIN_T1 extent for want of a place in T1 (R171). -/
def State.tryStore (s : State) (w : WReq) (strict : Bool) : Option State :=
  let n := w.line / 64
  let slice := s.sliceOf (n * 4096)
  match s.extentOf (w.line * 64) with
  | none => some (s.complete w 2)
  | some (base, e) =>
    if s.discards w then
      some ((s.modDirReg slice fun d => { d with partialPoison := d.partialPoison + 1 }).complete w 2)
    else match s.homeOf (.page n) with
      | some h =>
        if h.tier = 1 then some ((s.loupeDrop n).writeT1 w h)
        else match s.homeFrozen slice h 0 (homeLen h) with
          | some c =>
            if (s.chan c).poisoning then some (((s.poisonLine w.line).loupeDrop n).complete w 2)
            else some (s.setDrc { s.drc with waitWrites := s.drc.waitWrites ++ [(ctlKey c, w)] })
          | none =>
            if 2 < h.tier && !s.farOk h then some (((s.poisonLine w.line).loupeDrop n).complete w h.tier)
            else s.storeCoded w base e strict
      | none =>
        let pin := e.policy.placement == 0
        let t1 := if pin || (e.policy.placement == 1 && s.roomT1 e.owner slice 4096) then s.alloc slice 1 4096 else none
        match t1 with
        | some a =>
          let h : Home := { tier := 1, ma := a.1 }
          some ((s.storeHome (.page n) h false).writeT1 w h)
        | none => if pin then none else s.storeCoded w base e strict

/-- A write is held (R201): the first of its tenant on the slice is a stage. -/
def State.hold (s : State) (w : WReq) : State :=
  let t := s.itemTenant (.page (w.line / 64))
  let slice := s.sliceOf (w.line * 64)
  let first := s.heldOn t slice = 0
  let s := s.setPool { s.pool with held := s.pool.held ++ [w] }
  if first then s.stage t slice 2 (((s.extentOf (w.line * 64)).map (·.1)).getD 0) else s

/-- A write waits behind a move of its page (R194); a host's is counted. -/
def State.holdAtMove (s : State) (w : WReq) : State :=
  let n := w.line / 64
  let s := s.setPool { s.pool with moves := s.pool.moves.map fun m =>
    if m.item == (Item.page n) then { m with held := m.held ++ [w], firstHeld := m.firstHeld <|> some s.tbc } else m }
  if w.link.isSome then s.modMig (s.sliceOf (w.line * 64)) fun m => { m with heldWrites := m.heldWrites + 1 } else s

/-- A write is stored, or held; while its tenant has a held write, one that deepens an overrun is held (R201). -/
def State.storeOrHold (s : State) (w : WReq) : State :=
  match s.tryStore w (s.tenantHeld (s.itemTenant (.page (w.line / 64)))) with
  | some s => s
  | none => s.hold w

/-- A write enters at its home: behind a held write of its line, behind a move of its page, at a Condenser, or stored at
once in T1 (06 R194, R201, 05 R150). -/
def State.enterWrite (s : State) (w : WReq) : State :=
  let n := w.line / 64
  let slice := s.sliceOf (w.line * 64)
  if !s.up slice then s.complete w 2
  else if s.pool.held.any fun x => x.line == w.line then s.hold w
  else if (s.moveOf (.page n)).isSome then s.holdAtMove w
  else
    let inT1 := match s.homeOf (.page n) with
      | some h => h.tier == 1
      | none => match s.extentOf (n * 4096) with
        | some (_, e) => e.policy.placement == 0 || (e.policy.placement == 1 && s.roomT1 e.owner slice 4096)
        | none => true
    if inT1 || s.discards w then s.storeOrHold w
    else s.setPool { s.pool with coding := s.pool.coding ++ [w] }

/-- A write as it arrives: sampled for heat on a slice that serves (06 R185). -/
def State.applyWrite (s : State) (w : WReq) : State :=
  (if s.up (s.sliceOf (w.line * 64)) then s.sampleHeat (.page (w.line / 64)) 2 else s).enterWrite w

/-- CONDENSER_CODE_BLOCK: the oldest write of a page at the Condensers is coded and stored, or held. -/
def codeBlock (n : Nat) (s : State) : State :=
  match s.pool.coding.find? fun w => w.line / 64 == n with
  | none => s
  | some w =>
    let s := s.setPool { s.pool with coding := s.pool.coding.erase w }
    if s.pool.held.any fun x => x.line == w.line then s.hold w
    else if (s.moveOf (.page n)).isSome then s.holdAtMove w
    else (s.storeOrHold w).wake

/-- Held writes of a slice, oldest first, each tried on its own behind older ones of its line (R202). -/
def reexamine (slice : Nat) (s : State) : State :=
  (s.pool.held.foldl (fun s w =>
    if s.sliceOf (w.line * 64) != slice then s
    else if (s.pool.held.find? fun x => x.line == w.line) != some w || (s.moveOf (.page (w.line / 64))).isSome then s
    else
      let t := s.itemTenant (.page (w.line / 64))
      let base := ((s.extentOf (w.line * 64)).map (·.1)).getD 0
      match (s.setPool { s.pool with held := s.pool.held.erase w }).tryStore w false with
      | some s => s.relieved t slice base
      | none => s) s).wake

/-- The held write of a slice whose HOLD_LIMIT ends first, among those first on their line. -/
def State.firstExpiring (s : State) (slice : Nat) : Option (WReq × Nat) :=
  let due (w : WReq) : Nat := w.arrival + (s.quota (s.itemTenant (.page (w.line / 64)))).holdLimit * ms
  let c := s.pool.held.filter fun w =>
    s.sliceOf (w.line * 64) == slice && (s.pool.held.find? fun x => x.line == w.line) == some w
  match c with
  | [] => none
  | w :: l => let w := l.foldl (fun b x => if due x < due b then x else b) w; some (w, due w)

/-- A limited record is due to be written, not withheld (00 R603). -/
def State.limitOpen (s : State) (code scope gap : Nat) : Bool :=
  match tabFind s.mbx.limits (code + 64 * scope) with
  | some (t, _) => t + gap ≤ s.tbc
  | none => true

/-- A held write reaches its HOLD_LIMIT (R203, R206). -/
def holdExpiry (slice : Nat) (s : State) : State :=
  match s.firstExpiring slice with
  | none => s
  | some (w, due) =>
    let s := s.until due
    let t := s.itemTenant (.page (w.line / 64))
    let base := ((s.extentOf (w.line * 64)).map (·.1)).getD 0
    let s := s.setPool { s.pool with held := s.pool.held.erase w }
    let s := ((s.poisonLine w.line).loupeDrop (w.line / 64)).complete w 2
    let s := s.modDraw t slice fun d => { d with poisoned := d.poisoned + 1, lastExtent := base }
    let scope := 64 + drawKey t slice
    let lines := (s.drawOf t slice).poisoned
    let s := if s.limitOpen 0x000F scope ms then
        ((s.recordLim 1 0x000F scope ms fun _ => s.pressure t slice 3 base lines).modDraw t slice
          fun d => { d with poisoned := 0 }).signal (.vf t) 3
      else s
    (s.relieved t slice base).wake

/-! ### Moves (01 R22, 06 R188-R194) -/

/-- A move goes away; its held writes are applied where the page now stands. -/
def State.endMove (s : State) (m : Move) : State :=
  let s := s.setPool { s.pool with moves := s.pool.moves.erase m }
  (m.held.foldl (fun s w => s.enterWrite w) s).wake

/-- A KV block that changes tier carries its charge along (06 R181). -/
def State.kvCharge (s : State) (i : Item) (from_ into : Nat) : State :=
  match i with
  | .kv h _ _ _ _ =>
    match s.model h with
    | none => s
    | some m =>
      let raw := rawSectors m.kvStrength * 256
      let m' : Model := if from_ = 1 && into = 2 then { m with kvT1 := m.kvT1 - raw, kvT2 := m.kvT2 + raw }
        else if from_ = 2 && into = 1 then { m with kvT1 := m.kvT1 + raw, kvT2 := m.kvT2 - raw } else m
      s.setEng { s.eng with models := tabSet s.eng.models h m' }
  | _ => s

/-- The source of a move can be read and its destination written: neither lies on a frozen controller (10 R337). -/
def State.moveClear (s : State) (i : Item) (h d : Home) : Bool :=
  let slice := s.itemSlice i
  (s.homeFrozen slice h 0 (homeLen h)).isNone && (s.homeFrozen slice d 0 (homeLen d)).isNone

/-- Class of a move's traffic (09 R282): of the cursor that a staging promotion or its paired demotion serves, SYS_CLASS of a
rebuild, else of the owning tenant. -/
def State.moveCls (s : State) (m : Move) : Nat :=
  if m.kind = 5 then s.qos.sysClass
  else match m.cursor.bind (tabFind s.eng.cursors) with
    | some c => c.cls
    | none => (s.tq (s.itemTenant m.item)).cls

/-- A move whose new home is written switches the map entry and frees the old home (R22). -/
def moveSwitch (i : Item) (s : State) : State :=
  match s.moveOf i, s.homeOf i with
  | some m, some h =>
    let slice := s.itemSlice i
    if s.farBusy i then s
    else if !s.moveClear i h m.dest || (2 < h.tier && !s.farOk h) then s.endMove m
    else
      let cls := s.moveCls m
      -- a page promoted to T1 is decoded first; a block moves unchanged
      let good := match m.dest.blk, h.blk with
        | none, some b => s.decodeItem i b 1 0 1
        | _, _ => (some [], s)
      match good with
      | (none, s) => s.endMove m
      | (some _, s) =>
        let drawn := match i, m.dest.tier with
          | .page n, t => if 2 ≤ t then
              match s.extentOf (n * 4096) with
              | some (base, e) =>
                if e.policy.placement = 0 then some s
                else s.drawFor base e slice (if 2 ≤ h.tier then homeLen h / 256 else 0) (homeLen m.dest / 256)
              | none => some s
            else some s
          | _, _ => some s
        match drawn with
        | none => s.endMove m
        | some s =>
          let s := (s.access slice h 0 (homeLen h) false cls).access slice m.dest 0 (homeLen m.dest) true cls
          let s := s.storeHome i m.dest (m.kind == 2)
          let s := s.modEnt i fun e => { e with movedAt := some (s.mig slice).periods }
          let s := s.kvCharge i h.tier m.dest.tier
          let s := match i with
            | .page n => s.loupeDrop n
            | _ => s
          let s := match m.dest.blk, h.blk with
            | some b, none => s.countBlock slice b
            | some b, some _ => if m.kind = 4 then s.countBlock slice b else s
            | _, _ => s
          let s := s.modMig slice fun g =>
            if m.kind = 0 then { g with promotions := g.promotions + 1 }
            else if m.kind = 1 then { g with demotions := g.demotions + 1 } else g
          (s.endMove m).repayItem i
  | some m, none => s.endMove m
  | none, _ => s

/-- A move that has not switched within 4 µs of its first held write is cancelled (R194). -/
def moveCancel (i : Item) (s : State) : State :=
  match s.moveOf i with
  | none => s
  | some m =>
    match m.firstHeld with
    | none => s
    | some t =>
      ((s.until (t + 4 * us)).modMig (s.itemSlice i) fun g => { g with cancelled := g.cancelled + 1 }).endMove m

/-! ### The migration scanner (06 R188-R191, 08 R270, 10 R330) -/

/-- A cursor is bound to a model. -/
def State.cursorOn (s : State) (h : Nat) : Bool := s.eng.cursors.any fun c => c.2.model == h && !c.2.unbound

/-- Heat moves of an item are open to it: a pool page, or an item of a model without a bound cursor (R190). -/
def State.heatMoves (s : State) (i : Item) : Bool :=
  match i with
  | .page _ => true
  | .tile h _ => !s.cursorOn h
  | .kv h _ _ _ _ => !s.cursorOn h
  | .act _ _ _ _ | .mapLine _ _ _ => false

/-- The home lies in a segment under evacuation, a draining window or a draining tray. -/
def State.leaves (s : State) (slice : Nat) (h : Home) : Bool :=
  match h.tier with
  | 1 => false
  | 2 => bit (s.drcReg slice).evac (h.ma / segBytes s.cfg slice)
  | 3 => (s.pw h.unit).state == 1
  | _ => (tabGet ({} : Tray) s.fab.trays h.unit).drain

/-- Tenants above T1_HIGH_PCT of their T1 quota are drained until they are below T1_LOW_PCT (R189). -/
def State.drainMark (s : State) (t slice : Nat) : State :=
  let c := s.charge t 1 * 100
  let q := s.quotaBytes t 1
  let m := s.mig slice
  if m.t1High * q < c then s.setPool { s.pool with draining := if s.pool.draining.contains t then s.pool.draining else s.pool.draining ++ [t] }
  else if c < m.t1Low * q then s.setPool { s.pool with draining := s.pool.draining.filter (· != t) } else s

/-- The order of victims: PREFER_T2 before AUTO before PREFER_T1, lowest heat first within each (R184, R189). -/
def State.victimRank (s : State) (i : Item) : Nat :=
  (match (s.itemPlace i).1 with | 3 => 0 | 2 => 1000 | _ => 2000) + s.heatOf i

/-- An item in T1 that a demotion may take: any placement but PIN_T1. -/
def State.demotable (s : State) (i : Item) : Bool :=
  (s.itemPlace i).1 != 0 && (s.moveOf i).isNone && s.heatMoves i && (s.homeOf i).any fun h => h.tier == 1

/-- An item is the next victim of its tenant on its slice (R189). -/
def State.isVictim (s : State) (i : Item) : Bool :=
  let t := s.itemTenant i
  s.pool.draining.contains t && (s.itemPlace i).1 != 0 &&
  !(s.items.any fun j => j != i && s.itemTenant j == t && s.itemSlice j == s.itemSlice i && s.demotable j && s.victimRank j < s.victimRank i)

/-- Where an item that leaves T1 goes: a page through a Condenser, a tile or KV block unchanged into free T2 quota. -/
def State.demoteTo (s : State) (i : Item) (h : Home) : Option Home × State :=
  match i with
  | .page n =>
    match s.extentOf (n * 4096) with
    | none => (none, s)
    | some (base, e) =>
      let (b, s) := s.condensePage n
      if (s.drawFor base e (s.itemSlice i) 0 b.sectors).isNone then (none, s) else (s.placeBlock n b none, s)
  | _ =>
    if s.quotaLeft (s.itemTenant i) 2 < s.itemNeed i h then (none, s)
    else ((s.alloc (s.itemSlice i) 2 (homeLen h)).map fun a => { h with tier := 2, ma := a.1, skips := a.2, unit := 0 }, s)

/-- Where an item that is promoted goes. -/
def State.promoteTo (s : State) (i : Item) (h : Home) : Option Home :=
  let len := match i with | .page _ => 4096 | _ => homeLen h
  (s.alloc (s.itemSlice i) 1 len).map fun a => { tier := 1, ma := a.1, blk := match i with | .page _ => none | _ => h.blk }

/-- The item moved within MIN_RESIDENCE decay periods (R191). -/
def State.inResidence (s : State) (i : Item) : Bool :=
  match (s.entOf i).bind (·.movedAt) with
  | some p => let m := s.mig (s.itemSlice i); decide (m.periods < p + m.minResidence)
  | none => false

/-- Where the scanner promotes an item to, when its heat asks for it and there is room (R188). -/
def State.promotion (s : State) (i : Item) : Option Home :=
  match s.homeOf i with
  | none => none
  | some h =>
    let m := s.mig (s.itemSlice i)
    let pl := (s.itemPlace i).1
    let heat := s.heatOf i
    if h.tier = 1 || (s.moveOf i).isSome || !s.heatMoves i || s.inResidence i || !((pl == 1 && 1 ≤ heat) || (pl == 2 && m.promoteHeat ≤ heat)) ||
        !s.roomT1 (s.itemTenant i) (s.itemSlice i) (s.itemNeed i h) then none
    else s.promoteTo i h

/-- The scanner demotes an item by its heat, or as PREFER_T2 (R188). -/
def State.coldIn (s : State) (i : Item) : Bool :=
  let pl := (s.itemPlace i).1
  let page := match i with | .page _ => true | _ => false
  s.demotable i && !s.inResidence i && ((pl == 2 && s.heatOf i ≤ (s.mig (s.itemSlice i)).demoteHeat) || (pl == 3 && page))

/-- The scanner's next promotion of a slice is no other item's: none of higher heat is due (R193). -/
def State.promotesFirst (s : State) (i : Item) : Bool :=
  !(s.items.any fun j => s.itemSlice j == s.itemSlice i && s.heatOf i < s.heatOf j && (s.promotion j).isSome)

/-- A demotion of an item is next on its slice: no promotion is due, and no demotion of lower heat (R193). -/
def State.demotesFirst (s : State) (i : Item) : Bool :=
  !(s.items.any fun j => s.itemSlice j == s.itemSlice i && ((s.promotion j).isSome || (s.heatOf j < s.heatOf i && s.coldIn j)))

/-- An item leaves a segment under evacuation, a draining window or a draining tray (08 R270, 10 R330). -/
def State.leave (s : State) (i : Item) (h : Home) : State :=
  let slice := s.itemSlice i
  let (pl, _) := s.itemPlace i
  if h.tier = 2 then
    match s.alloc slice 2 (homeLen h) with
    | some a => s.beginMove i { h with ma := a.1, skips := a.2 } 3
    | none => s
  else
    let up := if (pl == 1 || (pl == 2 && (s.mig slice).promoteHeat ≤ s.heatOf i)) && s.roomT1 (s.itemTenant i) slice 4096 then s.promoteTo i h else none
    match up with
    | some d => s.beginMove i d 9
    | none => match s.toT2 i h with
      | (some d, s) => s.beginMove i d 9
      | (none, s) => s

/-- The scanner visits an item: its entry is brought to the present epoch, a trip that found no home is tried again (11 R364), and a
move begins where one is due. -/
def migrationScan (i : Item) (s : State) : State :=
  match s.entOf i with
  | none => s
  | some _ =>
    let slice := s.itemSlice i
    let s := s.modEnt i (decayed (s.mig slice))
    match s.homeOf i with
    | none => s
    | some h =>
      let s := (s.drainMark (s.itemTenant i) slice).trip i []
      if (s.moveOf i).isSome then s
      else if s.leaves slice h then s.leave i h
      else if !(s.mig slice).migEnable || !s.heatMoves i then s
      else if h.tier = 1 then
        if s.demotesFirst i && (s.isVictim i || s.coldIn i) then
          match s.demoteTo i h with
          | (some d, s) => s.beginMove i d 1
          | (none, s) => s
        else s
      else if s.promotesFirst i then
        match s.promotion i with
        | some d => s.beginMove i d 0
        | none => s
      else s

/-- The promotion of one slice (R202): of the overrunning extent's pages below T1 there, highest heat first, then lowest DPA. -/
def State.reliefOn (s : State) (base : Nat) (e : Extent) (slice : Nat) : State :=
  let mine (dpa : Nat) : Bool := s.sliceOf dpa == slice
  let held := s.pool.held.any fun w => mine (w.line * 64) && base ≤ w.line * 64 && w.line * 64 < base + e.len
  let c := (s.pagesIn base e.len).filter fun p =>
    (p.2.ent.home.any fun h => 2 ≤ h.tier) && (s.moveOf (.page p.1)).isNone && mine (p.1 * 4096)
  if !held then s
  else match c with
    | [] => s
    | p :: l =>
      let b := l.foldl (fun b x => if s.heatOf (.page b.1) < s.heatOf (.page x.1) then x else b) p
      let i := Item.page b.1
      if !s.roomT1 e.owner slice 4096 then s
      else match b.2.ent.home.bind (s.promoteTo i) with
        | some d => s.beginMove i d 8
        | none => s

/-- While writes are held, each owning slice promotes a page of the overrunning extent to T1 (R202). -/
def reliefPromotion (base : Nat) (s : State) : State :=
  match tabFind s.pool.extents base with
  | none => s
  | some e => if e.policy.placement = 3 then s else s.upSlices.foldl (fun s n => s.reliefOn base e n) s

/-- Once per DECAY_MS a slice advances its epoch; changes of SAMPLE_K and DECAY_MS take effect (R186, R187). -/
def epochAdvance (slice : Nat) (s : State) : State :=
  let m := s.mig slice
  let s := s.until (m.lastEpoch + m.decayMs * ms)
  s.modMig slice fun m =>
    { m with periods := m.periods + 1, lastEpoch := s.tbc, sampleK := m.sampleKNext, decayMs := m.decayMsNext }

/-! ### The Loupe cache (06 R195-R197, 09 R289) -/

/-- Ways of a slice's Loupe cache in service (18 R580). -/
def State.loupeWays (s : State) (slice : Nat) : Nat :=
  ((List.range 16).filter fun w => !bit (tabGet 0 s.bst.loupeWays slice) w).length

/-- The victim of a fill of a class: none where the page is served without one; some none for an invalid way. -/
def State.loupeVictim (s : State) (slice set cls : Nat) : Option (Option Copy) :=
  let inSet := s.pool.loupe.filter fun c => s.sliceOf (c.page * 4096) == slice && Config.loupeSet c.page % 512 == set
  let count (k : Nat) : Nat := (inSet.filter fun c => c.cls == k).length
  let oldest (l : List Copy) : Option Copy := match l with
    | [] => none
    | c :: l => some (l.foldl (fun b x => if x.used < b.used then x else b) c)
  if inSet.length < s.loupeWays slice then some none
  else
    let two := if count cls < (s.cls cls).maxWays then oldest (inSet.filter fun c => (s.cls c.cls).minWays < count c.cls) else none
    match two with
    | some c => some (some c)
    | none => match oldest (inSet.filter fun c => c.cls == cls) with
      | some c => some (some c)
      | none => none

/-- LOUPE_FILL: a fill in progress completes, under the LPE_CTL with which it began (R207): the page, whose home is a block, is
installed as a clean copy (R196). -/
def loupeFill (n cls : Nat) (s : State) : State :=
  if !(s.pool.fills.contains (n, cls)) then s
  else
    let s := s.setPool { s.pool with fills := s.pool.fills.erase (n, cls) }
    match s.homeOf (.page n) with
    | none => s
    | some h =>
      let slice := s.sliceOf (n * 4096)
      if h.tier < 2 || (s.pool.loupe.any fun c => c.page == n) then s
      else
        match s.loupeVictim slice (Config.loupeSet n % 512) cls with
        | none => s.setQos { s.qos with fillSkips := s.qos.fillSkips + 1 }
        | some v =>
          let l := match v with
            | some c => s.pool.loupe.erase c
            | none => s.pool.loupe
          let top := s.pool.loupe.foldl (fun m c => max m c.used) 0
          (s.setPool { s.pool with loupe := l ++ [{ page := n, cls := cls, used := top + 1 }] }).modMig slice
            fun m => { m with fills := m.fills + 1 }

/-- Every copy of a slice is invalidated. -/
def State.loupeFlush (s : State) (slice : Nat) : State :=
  let gone := s.pool.loupe.filter fun c => s.sliceOf (c.page * 4096) == slice
  (s.setPool { s.pool with loupe := s.pool.loupe.filter fun c => s.sliceOf (c.page * 4096) != slice
                           fills := s.pool.fills.filter fun f => s.sliceOf (f.1 * 4096) != slice }).modMig slice
    fun m => { m with invalidations := m.invalidations + BitVec.ofNat 16 gone.length }

/-! ### Block reads with bit errors on the media (11 R353, R363, 05 R163) -/

/-- A block read from its home with bits in error: the codes, then the decoder. -/
def blockDecode (i : Item) (source unit : Nat) (bs : List Nat) (s : State) : State :=
  match s.homeOf i with
  | none => s
  | some h =>
    match h.blk with
    | none => s
    | some b =>
      if (s.homeFrozen (s.itemSlice i) h 0 (homeLen h)).isSome || (2 < h.tier && !s.farOk h) then s
      else (s.readItem i h b bs source unit (if source = 0 then 0 else 1)).2

end Sys2Proof.Machine
end

