-- ==== Sys2Proof/Machine/Coherence.lean ====
section
/-! DEFINITION. CXL.mem requests of hosts (09 R279-R291), the directory of SHARED_COHERENT extents (07 R212-R223),
publishes (07 R230-R239) and lost hosts (07 R225-R228). -/
namespace Sys2Proof.Machine
open Sys2Proof

/-! ### Intake of a request (09 R279, R280, R291, 12 R388, R405, 15 R510) -/

/-- The host ID of a request on a link (09 R279): its PBR ID on a CXL 3.1 link, else the record with DIRECT. -/
def State.hostId (s : State) (link : Nat) (pbr : Option Nat) : Option Nat :=
  if !s.rst.memoryActive then none
  else
    let direct := (s.qos.hosts.find? fun r => r.2.direct && r.2.port == link).map (·.1)
    match pbr with
    | some h =>
      if (s.port link).cxlGen = 3 then (match s.hostRec h with
        | some r => if r.port = link then some h else none
        | none => none)
      else direct
    | none => direct

/-- What becomes of a request as it arrives: it goes no further, it is unassigned, or it is a host's. -/
inductive Intake where
  | stop (s : State)
  | unassigned (s : State)
  | host (s : State) (h cls : Nat)

/-- A request arrives on a link. One that its bucket holds waits at the port, at most 64 of a host, the rest in the receive buffer
(R291); one that the bucket has let go passes with the class it arrived with (R281). -/
def intake (i : Instr) (link : Nat) (pbr : Option Nat) (poison : Bool) (s : State) : Intake :=
  let p := s.port link
  if !linkFitted s.cfg link || p.link != 2 || p.cxlGen = 0 then .stop s
  else if p.frozen then
    .stop (s.modPort link fun p => { p with discarded := p.discarded + 1, frozenDiscarded := p.frozenDiscarded + 1 })
  else
    let again := match s.hostId link pbr with
      | some h => match s.hostRec h with | some r => !r.granted.isEmpty | none => false
      | none => false
    let s := if poison && !again then (s.modPort link fun p => { p with poisonRecv := p.poisonRecv + 1 }).poisonEvent link else s
    match s.hostId link pbr with
    | none => .unassigned (s.setQos { s.qos with unassigned := s.qos.unassigned + 1 })
    | some h =>
      match s.hostRec h with
      | none => .unassigned s
      | some r =>
        let put (r : HostRec) (s : State) : State := s.setQos { s.qos with hosts := tabSet s.qos.hosts h r }
        match r.granted with
        | k :: ks => .host (put { r with granted := ks } s) h k
        | [] =>
          if r.limit = 0 then .host s h r.cls
          else
            let now := bucketNow r s.tbc
            if token ≤ now && r.held.isEmpty then
              .host (put { r with tokens := now - token, tokensAt := s.tbc, emptySince := if now < 2 * token then some s.tbc else none } s) h r.cls
            else if r.held.length < 64 then
              let s := put { r with held := r.held ++ [(i, r.cls, r.limit)], tokens := now, tokensAt := s.tbc,
                                    emptySince := if now < token then r.emptySince <|> some s.tbc else none } s
              .stop (s.setQos { s.qos with bucketHolds := s.qos.bucketHolds + 1 })
            else .stop (put { r with recv := r.recv ++ [i] } s)

/-- HOST_BUCKET_REFILL: the bucket has 64 B again, and the first request it holds goes on; the first of the receive buffer is held in
its turn. -/
def bucketRefill (h : Nat) (s : State) : State :=
  match s.hostRec h with
  | none => s
  | some r =>
    match r.held with
    | [] => s
    | (i, k, lim) :: rest =>
      let s := s.until (s.tbc + (token - bucketNow r s.tbc + lim - 1) / max 1 lim)
      let now := max token (bucketNow r s.tbc) - token
      let more := (r.recv.take 1).map fun x => (x, r.cls, r.limit)
      let r' : HostRec := { r with tokens := now, tokensAt := s.tbc, held := rest ++ more, recv := r.recv.drop 1, granted := r.granted ++ [k],
                                   emptySince := if now < token then r.emptySince <|> some s.tbc else none }
      (s.setQos { s.qos with hosts := tabSet s.qos.hosts h r', bucketHolds := s.qos.bucketHolds + BitVec.ofNat 16 more.length }).requeue [i]

/-- Bytes of the device that a decoder maps. -/
def HdmDec.span (d : HdmDec) : Nat := d.size / 2 ^ bits d.ctl 7 4

/-- The committed decoders of a link with the first DPA of each: they follow one another, with their skips between (R391). -/
def Port.decoders (p : Port) : List (Nat × HdmDec) :=
  ((p.hdm.filter fun d => bit d.2.ctl 10).foldl (fun (a : List (Nat × HdmDec) × Nat) d =>
    (a.1 ++ [(a.2 + d.2.skip, d.2)], a.2 + d.2.skip + d.2.span)) ([], 0)).1

/-- A request decoded to a DPA can have come in on a link: one of its committed decoders maps the DPA. A link without one has its
requests decoded outside the model (01 R15; log 9). -/
def Port.decodes (p : Port) (dpa : Nat) : Bool := p.decoders.isEmpty || p.decoders.any fun d => d.1 ≤ dpa && dpa < d.1 + d.2.span

/-- The extent that a host may reach at a DPA: decoded on its link, added for it, on a slice that serves, and on an older link within its
static range (01 R15, 09 R280, 12 R389, 15 R522). -/
def State.reach (s : State) (link h dpa : Nat) : Option (Nat × Extent) :=
  match s.extentOf dpa with
  | none => none
  | some (b, e) =>
    let inStatic := (s.port link).cxlGen = 3 || (match (s.port link).static with
      | some (a, n) => a ≤ dpa && dpa < a + n
      | none => false)
    if e.hosts.contains h && s.up (s.sliceOf dpa) && inStatic && (s.port link).decodes dpa then some (b, e) else none

def State.countOut (s : State) : State := s.setQos { s.qos with outOfExtent := s.qos.outOfExtent + 1 }

/-! ### The directory (07 R212-R223) -/

def State.dent (s : State) (line : Nat) : Option DEnt := tabFind s.dir.ents line
def State.setDent (s : State) (line : Nat) (e : DEnt) : State :=
  s.setDir { s.dir with ents := tabSet s.dir.ents line { e with age := s.dir.ages }, ages := s.dir.ages + 1 }
def State.keepDent (s : State) (line : Nat) (e : DEnt) : State := s.setDir { s.dir with ents := tabSet s.dir.ents line e }
def State.delDent (s : State) (line : Nat) : State := s.setDir { s.dir with ents := tabDel s.dir.ents line }

/-- A read that the directory has served and that is not yet answered. -/
def State.lineUnanswered (s : State) (line : Nat) : Bool :=
  let mine (r : RReq) : Bool := r.grant != 0 && r.dpa / 64 == line
  s.pool.waiting.any mine || (s.drc.waitReads.any fun r => mine r.2) || s.drc.jobs.any fun j => j.2.read.any mine

/-- A request is being served for a line: its entry is in RECALL, the line waits for the way of a victim, or a read of it is not
yet answered (R214). -/
def State.lineServing (s : State) (line : Nat) : Bool :=
  (match s.dent line with | some e => e.state == 3 | none => false) ||
  (s.dir.ents.any fun e => match e.2.req with | some q => q.line == line | none => false) || s.lineUnanswered line

/-- The link that carries a host's traffic. -/
def State.hostLink (s : State) (h : Nat) : Nat := ((s.hostRec h).map (·.port)).getD 8

/-- Back-Invalidate is enabled on a host's link (12 R390). -/
def State.biOn (s : State) (h : Nat) : Bool :=
  let p := s.port (s.hostLink h)
  p.cxlGen == 3 && p.biEnabled

/-- Members of the share group of a line that are not fenced. -/
def State.members (s : State) (line : Nat) : List Nat :=
  (((s.extentOf (line * 64)).map (·.2.hosts)).getD []).filter fun h => !s.dir.fenced.contains h

/-- Holders of a line in S: the listed sharers, or under COARSE every member. -/
def State.sharers (s : State) (line : Nat) (e : DEnt) : List Nat := if e.coarse then s.members line else e.sharers

def rreq (q : DReq) (grant : Nat) : RReq :=
  { link := q.link.getD 8, pbr := q.pbr, host := q.host, dpa := q.line * 64, grant := grant, arrival := q.arrival, cls := q.qcls }

def wreqOf (q : DReq) : WReq :=
  { link := q.link, pbr := q.pbr, host := q.host, line := q.line, data := q.data, be := q.be, poison := q.poison,
    arrival := q.arrival, cls := q.qcls }

/-- The write of a request is applied at the home, or its data are read there. -/
def State.dirWrite (s : State) (q : DReq) : State := s.applyWrite (wreqOf q)
def State.dirRead (s : State) (q : DReq) (grant : Nat) : State := s.serveRead (rreq q grant) q.flips

def State.countFence (s : State) (dpa : Nat) : State :=
  s.modDirReg (s.sliceOf dpa) fun d => { d with fenceDrops := d.fenceDrops + 1 }

/-- A request of a fenced host is answered: a read with poison, a write completes and is discarded (R225). -/
def State.fencedAnswer (s : State) (q : DReq) : State :=
  let s := s.countFence (q.line * 64)
  if q.cls ≤ 2 then s.respondRead (rreq q 0) 2 none else s.complete (wreqOf q) 2

/-- A recall begins (R215): snoops leave for its targets. -/
def State.recall (s : State) (line : Nat) (e : DEnt) (targets : List Nat) (kind cause : Nat) (q : Option DReq) : State :=
  let slice := s.sliceOf (line * 64)
  let s := s.keepDent line { e with state := 3, prior := e.state, targets := targets, snoop := kind, issued := s.tbc,
                                    limitMs := (s.dirReg slice).recallMs, cause := cause, req := q, gotI := false }
  let s := s.modDirReg slice fun d => { d with recalls := d.recalls + 1 }
  targets.foldl (fun s h => s.send (s.hostLink h) (.snoop (s.hostLink h) h (line * 64) kind)) s

/-- A sharer more: the fourth makes the entry COARSE (R213). -/
def addSharer (e : DEnt) (h : Nat) : DEnt :=
  if e.coarse || e.sharers.contains h then e
  else if e.sharers.length < 3 then { e with sharers := e.sharers ++ [h] } else { e with coarse := true, sharers := [] }

/-- A set's ways on a slice, less the rows that failed (18 R580). -/
def State.dirWays (s : State) (slice set : Nat) : Nat :=
  16 - ((s.dirReg slice).excludedRows.filter fun r => r / 16 == set).length

def State.setEnts (s : State) (line : Nat) : List (Nat × DEnt) :=
  s.dir.ents.filter fun e => s.sliceOf (e.1 * 64) == s.sliceOf (line * 64) && Config.dirSet e.1 % 2 ^ 21 == Config.dirSet line % 2 ^ 21

/-- The victim of a full set: S before E, the oldest first (R218). -/
def dirVictim (l : List (Nat × DEnt)) : Option (Nat × DEnt) :=
  let oldest (l : List (Nat × DEnt)) : Option (Nat × DEnt) := match l with
    | [] => none
    | x :: xs => some (xs.foldl (fun b y => if y.2.age < b.2.age then y else b) x)
  match oldest (l.filter fun e => e.2.state == 1) with
  | some v => some v
  | none => oldest (l.filter fun e => e.2.state == 2)

def State.uncached (s : State) (line : Nat) : State :=
  s.modDirReg (s.sliceOf (line * 64)) fun d => { d with uncached := d.uncached + 1 }

/-- A read that needs a new entry: it takes a free way, or waits for a victim's, or goes without a copy (R218, R219). -/
def State.newEntry (s : State) (q : DReq) (e : DEnt) (grant : Nat) : State :=
  let set := s.setEnts q.line
  if set.length < s.dirWays (s.sliceOf (q.line * 64)) (Config.dirSet q.line % 2 ^ 21) then
    (s.setDent q.line e).dirRead q grant
  else match dirVictim set with
    | none => (s.uncached q.line).dirRead q 3
    | some (v, ve) =>
      let s := s.modDirReg (s.sliceOf (q.line * 64)) fun d => { d with evictions := d.evictions + 1 }
      let t := if ve.state = 2 then [ve.owner] else s.sharers v ve
      -- a COARSE victim whose members are all fenced has no host to recall
      if t.isEmpty then ((s.delDent v).setDent q.line e).dirRead q grant else s.recall v ve t 0 1 (some q)

/-- The line's extent is leaving SHARED_COHERENT: no copy is granted any longer (R229). -/
def State.leavesShare (s : State) (line : Nat) : Bool :=
  match s.dir.change, s.extentOf (line * 64) with
  | some (b, _), some (b', _) => b == b'
  | _, _ => false

/-- The line lies in a SHARED_COHERENT extent. -/
def State.coherent (s : State) (line : Nat) : Bool := (s.extentOf (line * 64)).any fun e => e.2.policy.sharing == 1

/-- One request served by the state of its line (R215). A fenced host is refused (R225); a line that has left SHARED_COHERENT while
the request waited gets no entry (R229). -/
def State.dirServe (s : State) (q : DReq) : State :=
  let h := q.host
  if s.dir.fenced.contains h then s.fencedAnswer q
  else if !s.coherent q.line then (if q.cls ≤ 2 then s.dirRead q 0 else s.dirWrite q) else
  -- without Back-Invalidate a member is granted no copy, and every read of it counts (R210)
  let (q, s) := if q.cls ≤ 2 && !s.biOn h then ({ q with cls := 2 }, s.uncached q.line) else (q, s)
  let q := if (q.cls = 0 || q.cls = 1) && s.leavesShare q.line then { q with cls := 2 } else q
  match s.dent q.line with
  | none =>
    match q.cls with
    | 0 => s.newEntry q { state := 1, sharers := [h] } 1
    | 1 => s.newEntry q { state := 2, owner := h } 2
    | 2 => s.dirRead q 3
    | _ => s.dirWrite q
  | some e =>
    match e.state with
    | 1 =>
      match q.cls with
      | 0 => (s.setDent q.line (addSharer e h)).dirRead q 1
      | 1 =>
        let t := (s.sharers q.line e).filter (· != h)
        if t.isEmpty then (s.setDent q.line { state := 2, owner := h }).dirRead q 2 else s.recall q.line e t 0 0 (some q)
      | 2 => s.dirRead q 3
      | _ =>
        let t := s.sharers q.line e
        if t.isEmpty then (s.delDent q.line).dirWrite q else s.recall q.line e t 0 0 (some q)
    | 2 =>
      if e.owner = h then
        match q.cls with
        | 0 => (s.setDent q.line { state := 1, sharers := [h] }).dirRead q 1
        | 1 => s.dirRead q 2
        | 2 => s.dirRead q 3
        | _ => (s.delDent q.line).dirWrite q
      else s.recall q.line e [e.owner] (match q.cls with | 0 => 1 | 2 => 2 | _ => 0) 0 (some q)
    | 4 =>
      if e.owner = h then
        match q.cls with
        | 0 => (s.delDent q.line).newEntry q { state := 1, sharers := [h] } 1
        | 1 => (s.delDent q.line).newEntry q { state := 2, owner := h } 2
        | 2 => (s.delDent q.line).dirRead q 3
        | _ => (s.modDirReg (s.sliceOf (q.line * 64)) fun d => { d with orphanWb := d.orphanWb + 1 }).complete (wreqOf q) 1
      else if q.cls ≤ 2 then s.dirRead q 3 else s.dirWrite q
    | _ => s

/-- A request arrives at the directory: served, or behind those of its line (R214). -/
def State.dirRequest (s : State) (q : DReq) : State :=
  if s.lineServing q.line || s.dir.waiting.any fun x => x.line == q.line then s.setDir { s.dir with waiting := s.dir.waiting ++ [q] }
  else s.dirServe q

/-- Waiting requests of a line go on until one needs a recall. -/
def State.dirPump (line : Nat) : Nat → State → State
  | 0, s => s
  | fuel + 1, s =>
    if s.lineServing line then s
    else match s.dir.waiting.find? fun x => x.line == line with
      | none => s
      | some q => ((s.setDir { s.dir with waiting := s.dir.waiting.erase q }).dirServe q).dirPump line fuel

def State.dirNext (s : State) (line : Nat) : State := s.dirPump line (s.dir.waiting.length + 1)

/-- Requests that wait for a line go on once its read is answered (R214). -/
def State.dirSettle (s : State) : State := ((s.dir.waiting.map (·.line)).eraseDups).foldl (fun s l => s.dirNext l) s

/-- Every target of a recall has answered, or counts as answered: the request it serves is carried out (R215). `orphan`
keeps the entry for a former owner whose answer never came (R220). -/
def State.recallEnd (s : State) (line : Nat) (orphan : Bool) : State :=
  match s.dent line with
  | none => s
  | some e =>
    let owner := e.owner
    let s := if orphan then s.keepDent line { state := 4, owner := owner, age := e.age } else s.delDent line
    let s := match e.req with
      | none => s
      | some q =>
        if s.dir.fenced.contains q.host then
          (match e.cause, e.prior, q.cls with
          | 0, 2, 0 => if orphan || e.gotI then s else s.setDent line { state := 1, sharers := [owner] }
          | 0, 2, 2 => if orphan then s else s.setDent line { state := 2, owner := owner }
          | _, _, _ => s).fencedAnswer q |>.dirNext q.line
        else if e.cause = 1 then (s.dirServe q).dirNext q.line
        else if orphan then s.dirServe q
        else if e.prior = 1 then
          (if q.cls = 1 then (s.setDent line { state := 2, owner := q.host }).dirRead q 2 else s.dirWrite q)
        else match q.cls with
          | 0 => (s.setDent line { state := 1, sharers := if e.gotI then [q.host] else [owner, q.host].eraseDups }).dirRead q 1
          | 1 => (s.setDent line { state := 2, owner := q.host }).dirRead q 2
          | 2 => (s.setDent line { state := 2, owner := owner }).dirRead q 3
          | _ => s.dirWrite q
    s.dirNext line

/-- A RECALL_TIMEOUT record (R223). -/
def State.timeoutRecord (s : State) (line : Nat) (e : DEnt) (h : Nat) (poisoned : Bool) : State :=
  let slice := s.sliceOf (line * 64)
  s.recordLim 1 0x0005 slice ms fun held =>
    flds [(1, slice), (1, e.prior), (1, b2n poisoned), (1, e.cause), (2, h), (2, held), (8, line * 64),
      (4, (s.tbc - e.issued) / 1000), (8, s.tbc)]

/-- A recall's target gives no answer (R220): the line of an owner is poisoned and its entry becomes ORPHAN, but for a
change of sharing, whose entries are freed (R229); a sharer is dropped. -/
def State.recallDrop (s : State) (line h : Nat) : State :=
  match s.dent line with
  | none => s
  | some e =>
    if e.state != 3 || !e.targets.contains h then s
    else
      let s := s.modDirReg (s.sliceOf (line * 64)) fun d => { d with timeouts := d.timeouts + 1 }
      if e.prior = 2 then
        let s := (s.poisonLine line).loupeDrop (line / 64)
        (s.timeoutRecord line e h true).recallEnd line (e.cause != 2)
      else
        let e' : DEnt := { e with targets := e.targets.filter (· != h), sharers := e.sharers.filter (· != h) }
        let s := (s.timeoutRecord line e h false).keepDent line e'
        if e'.targets.isEmpty then s.recallEnd line false else s

/-- RECALL_TIMEOUT: every host that has not answered a recall within its limit. -/
def recallTimeout (line : Nat) (s : State) : State :=
  match s.dent line with
  | none => s
  | some e =>
    if e.state != 3 then s
    else e.targets.foldl (fun s h => s.recallDrop line h) (s.until (e.issued + e.limitMs * ms))

/-- BIRSP: a host answers a recall; a late answer is discarded and counted (R216, R221). -/
def birsp (h line : Nat) (invalid : Bool) (s : State) : State :=
  let late (s : State) : State := s.modDirReg (s.sliceOf (line * 64)) fun d => { d with lateBirsp := d.lateBirsp + 1 }
  match s.dent line with
  | none => late s
  | some e =>
    if e.state != 3 || !e.targets.contains h then late s
    else
      let e' : DEnt := { e with targets := e.targets.filter (· != h), gotI := e.gotI || invalid }
      let s := s.keepDent line e'
      if e'.targets.isEmpty then s.recallEnd line false else s

/-! ### Requests of hosts -/

/-- The response to a read that is refused: poison (09 R280). -/
def State.refuseRead (s : State) (link : Nat) (pbr : Option Nat) (h cls dpa : Nat) : State :=
  s.respondRead { link := link, pbr := pbr, host := h, dpa := dpa, arrival := s.tbc, cls := cls } 2 none

def nobody : Nat := 0xFFFFFFFF

/-- A read of a host: `cls` 0 RD_S, 1 RD_E, 2 RD_I or a read that asks for no copy. -/
def readRequest (i : Instr) (link : Nat) (pbr : Option Nat) (dpa cls : Nat) (flips : List Flip) (s : State) : State :=
  match intake i link pbr false s with
  | .stop s => s
  | .unassigned s => s.refuseRead link pbr nobody 0 dpa
  | .host s h k =>
    match s.reach link h dpa with
    | none => s.countOut.refuseRead link pbr h k dpa
    | some (_, e) =>
      if e.policy.sharing != 0 && s.dir.fenced.contains h then (s.countFence dpa).refuseRead link pbr h k dpa
      else if e.policy.sharing = 1 then
        s.dirRequest { cls := cls, link := some link, pbr := pbr, host := h, line := dpa / 64, arrival := s.tbc, qcls := k, flips := flips }
      else s.serveRead { link := link, pbr := pbr, host := h, dpa := dpa, arrival := s.tbc, cls := k } flips

/-- A write of a host that reaches the pool, or none where it is refused: discarded, it completes normally (09 R280). -/
def writeTake (i : Instr) (link : Nat) (pbr : Option Nat) (dpa : Nat) (data : Bytes) (be : Nat) (poison : Bool) (s : State)
    (go : State → Extent → DReq → State) : State :=
  match intake i link pbr poison s with
  | .stop s => s
  | .unassigned s => s.respondWrite link pbr nobody 0 dpa 2
  | .host s h k =>
    match s.reach link h dpa with
    | none => s.countOut.respondWrite link pbr h k dpa 2
    | some (_, e) =>
      if e.policy.sharing != 0 && s.dir.fenced.contains h then (s.countFence dpa).respondWrite link pbr h k dpa 2
      else go s e { cls := 3, link := some link, pbr := pbr, host := h, line := dpa / 64, data := data, be := be, poison := poison,
                    arrival := s.tbc, qcls := k }

/-- A write of a line of a SHARED_COHERENT extent: a WB where it comes from the owner of the line, taken as the data of a recall where
that is under way (R214-R216), else a WR. -/
def State.cohWrite (s : State) (keep : Bool) (q : DReq) : State :=
  match s.dent q.line with
  | some d =>
    if d.state = 2 && d.owner = q.host && !s.lineServing q.line then
      (if keep then s.setDent q.line { state := 1, sharers := [q.host] } else s.delDent q.line).dirWrite q
    else if d.state = 3 && d.prior = 2 && d.owner = q.host then
      (s.keepDent q.line { d with gotI := d.gotI || !keep }).dirWrite q
    else s.dirRequest q
  | none => s.dirRequest q

/-- A write from a host, which keeps no copy. -/
def writeRequest (i : Instr) (link : Nat) (pbr : Option Nat) (dpa : Nat) (data : Bytes) (be : Nat) (poison : Bool) (s : State) : State :=
  writeTake i link pbr dpa data be poison s fun s e q => if e.policy.sharing = 1 then s.cohWrite false q else s.dirWrite q

/-- A write-back (R215, R216): from the owner of a line, from a recalled owner, or handled as any write. -/
def wbRequest (i : Instr) (link : Nat) (pbr : Option Nat) (dpa : Nat) (data : Bytes) (keep : Bool) (s : State) : State :=
  writeTake i link pbr dpa data fullBe false s fun s e q => if e.policy.sharing = 1 then s.cohWrite keep q else s.dirWrite q

/-- A clean eviction notice (R215). -/
def evictRequest (i : Instr) (link : Nat) (pbr : Option Nat) (dpa : Nat) (s : State) : State :=
  match intake i link pbr false s with
  | .stop s => s
  | .unassigned s => s
  | .host s h _ =>
    match s.reach link h dpa with
    | none => s.countOut
    | some (_, e) =>
      if e.policy.sharing != 1 then s
      else if s.dir.fenced.contains h then s.countFence dpa
      else
        let line := dpa / 64
        match s.dent line with
        | none => s
        | some d =>
          match d.state with
          | 1 =>
            if d.coarse then s
            else
              let l := d.sharers.filter (· != h)
              if l.isEmpty then s.delDent line else s.keepDent line { d with sharers := l }
          | 2 => if d.owner = h then s.delDent line else s
          | 4 => if d.owner = h then s.delDent line else s
          | _ => s

/-! ### Publishes (07 R230-R239) -/

/-- Hosts of a region: the share group of its extents. -/
def State.regionHosts (s : State) (r : Nat) : List Nat :=
  ((s.pool.extents.find? fun e => e.2.region == some r).map (·.2.hosts)).getD []

/-- A publish or query of a fenced host is counted at the slice of its region's lowest page (R225, log 96). -/
def State.countPubFence (s : State) (r : Nat) : State :=
  s.countFence (((s.pool.extents.find? fun e => e.2.region == some r).map (·.1)).getD 0)

/-- RESULT of a publish or query before it runs: 0 OK, 1 NOT_REGION, 2 NOT_MEMBER, 3 HOST_LOST (R238). -/
def State.pubCheck (s : State) (h r : Nat) : Nat :=
  if (s.region r).isNone then 1 else if !(s.regionHosts r).contains h then 2 else if s.dir.fenced.contains h then 3 else 0

def State.pubSlot (s : State) (h : Nat) : PubSlot := tabGet {} s.dir.slots h
def State.modSlot (s : State) (h : Nat) (f : PubSlot → PubSlot) : State :=
  s.setDir { s.dir with slots := tabMod {} s.dir.slots h f }

/-- A doorbell write that has reached the slot's logic, accepted on the link that carries the host's traffic (R237, R238). -/
def State.rung (s : State) (link h r : Nat) (query : Bool) : State :=
  match s.hostRec h with
  | none => s
  | some rec_ =>
    if rec_.port != link then s
    else if (s.pubSlot h).busy then s.modSlot h fun x => { x with overrun := true }
    else
      let res := s.pubCheck h r
      if res != 0 then
        (if res = 3 then s.countPubFence r else s).modSlot h fun x => { x with result := res, conflict := false, conflicts := 0 }
      else if query then
        s.modSlot h fun x => { x with result := 0, conflict := false, conflicts := 0, version := ((s.region r).map (·.version)).getD 0 }
      else
        let s := s.modSlot h fun x => { x with busy := true }
        s.setDir { s.dir with publishes := s.dir.publishes ++ [{ host := h, region := r, via := none, arrival := s.tbc }] }

/-- A doorbell write on a link, whatever FM_LINKS holds (R237, 19 R599). -/
def pubDoorbell (link h r : Nat) (query : Bool) (s : State) : State :=
  if !s.linkOpen link || (s.fn (.pf0 link)).d3hot then s.dropIo link else (s.touch (.pf0 link)).rung link h r query

/-- Writes of a host to a region that have arrived and are not yet at their home (R231, R232). -/
def State.pubWaits (s : State) (p : Pub) : Bool :=
  let mine (w : WReq) : Bool := w.host == p.host && w.arrival ≤ p.arrival && (s.regionOf (w.line * 64)).any fun r => r.1 == p.region
  s.pool.held.any mine || s.pool.coding.any mine || (s.pool.far.any fun w => mine w.2) || (s.pool.moves.any fun m => m.held.any mine) ||
  (s.drc.waitWrites.any fun w => mine w.2) || ((List.range 8).any fun k => (s.eccReg k).waitWrites.any mine)

/-- PUBLISH_CONFLICT records of a publish: at most 64, the first with the count of the rest (R236). -/
def State.conflictRecords (s : State) (r version : Nat) (g : Region) : State :=
  let l := g.conflicts.take 64
  let rest := g.conflicts.length - l.length
  (l.zipIdx.foldl (fun s c =>
    let ((n, a, b, t), k) := c
    s.record 1 0x0004 (flds [(2, r), (2, a), (2, b), (1, if k = 0 then b2n g.overflow else 0), (1, 0), (8, n * 4096), (8, version),
      (4, if k = 0 then rest else 0), (8, t)])) s)

/-- PUBLISH_FENCE_DONE: the fences of the host's oldest publish of the region are complete (R232). -/
def publishDone (r h : Nat) (s : State) : State :=
  match s.dir.publishes.find? fun p => p.region == r && p.host == h with
  | none => s
  | some p =>
    match s.region r with
    | none => s
    | some g =>
      if s.pubWaits p then s
      else
        let v := g.version + 1
        let n := min 64 g.conflicts.length
        let s := s.conflictRecords r v g
        let g' : Region := { g with version := v, counts := tabMod 0 g.counts h (· + 1), conflicts := [], overflow := if n = 0 then g.overflow else false }
        let s := s.setDir { s.dir with publishes := s.dir.publishes.erase p, regions := tabSet s.dir.regions r g' }
        match p.via with
        | some v' => s.respond v' 0xC031 .success (flds [(8, v), (2, n)])
        | none => s.modSlot h fun x => { x with busy := false, result := 0, conflict := n != 0, conflicts := n, version := v }

/-- PUBLISH through a mailbox (R239, 13 R452). -/
def publishCmd (v : Iface) (inp : Bytes) (s : State) : Reply :=
  let h := fld inp 0 2
  let r := fld inp 2 2
  let carried := match v with
    | .pf0 l => (s.hostRec h).any fun x => x.port == l
    | _ => true
  if !carried || s.pubCheck h r != 0 then fail (if carried && s.pubCheck h r = 3 then s.countPubFence r else s) .invalidInput
  else if bit (fld inp 4 1) 0 then ok s (flds [(8, ((s.region r).map (·.version)).getD 0), (2, 0)])
  else
    { ret := .success, later := true,
      st := s.setDir { s.dir with publishes := s.dir.publishes ++ [{ host := h, region := r, via := some v, arrival := s.tbc }] } }

/-! ### Lost hosts (07 R225-R228) -/

/-- Pending publishes of a host end with result HOST_LOST and take no version. -/
def State.dropPublishes (s : State) (h : Nat) : State :=
  let mine := s.dir.publishes.filter fun p => p.host == h
  let s := s.setDir { s.dir with publishes := s.dir.publishes.filter fun p => p.host != h }
  mine.foldl (fun s p => match p.via with
    | some v => s.respond v 0xC031 .invalidInput []
    | none => s.modSlot h fun x => { x with busy := false, result := 3, conflict := false, conflicts := 0 }) s

/-- Every recall that targets a host ends at once, as at its timeout (R225). -/
def State.endRecalls (s : State) (h : Nat) : Nat × State :=
  let lines := (s.dir.ents.filter fun e => e.2.state == 3 && e.2.targets.contains h).map (·.1)
  (lines.length, lines.foldl (fun s l => s.recallDrop l h) s)

/-- Requests of a host that wait at the directory are answered as those of a fenced host (R225). -/
def State.fenceWaiting (s : State) (h : Nat) : State :=
  let mine := s.dir.waiting.filter fun q => q.host == h
  mine.foldl (fun s q => s.fencedAnswer q) (s.setDir { s.dir with waiting := s.dir.waiting.filter fun q => q.host != h })

/-- HOST_LOST (R225, R227). -/
def hostLostCmd (inp : Bytes) (s : State) : Reply :=
  let h := fld inp 0 2
  let act := fld inp 2 1
  if 1024 ≤ h || 1 < act then fail s .invalidInput
  else if act = 0 then
    if s.dir.sweep.isSome then fail s .busy
    else
      let t0 := s.tbc
      let s := s.setDir { s.dir with fenced := if s.dir.fenced.contains h then s.dir.fenced else s.dir.fenced ++ [h] }
      let (n, s) := (s.fenceWaiting h).endRecalls h
      let s := s.dropPublishes h
      started (s.setDir { s.dir with sweep := some { host := h, started := t0, recallsEnded := n } }) [h]
  else if s.dir.sweep.any fun w => w.host == h then fail s .invalidInput
  else ok (s.setDir { s.dir with fenced := s.dir.fenced.filter (· != h) })

/-- HOST_LOST_DONE: every slice has swept its directory (R225, R228). -/
def hostLostDone (s : State) : State :=
  match s.dir.sweep with
  | none => s
  | some w =>
    let h := w.host
    -- recalls of the host that began during the sweep end with it
    let s := (s.endRecalls h).2
    let es := s.dir.ents.filter fun e => e.2.state == 2 && e.2.owner == h
    let ss := s.dir.ents.filter fun e => e.2.state == 1 && !e.2.coarse && e.2.sharers.contains h
    let os := s.dir.ents.filter fun e => e.2.state == 4 && e.2.owner == h
    let s := es.foldl (fun s e => ((s.poisonLine e.1).loupeDrop (e.1 / 64)).delDent e.1) s
    let s := ss.foldl (fun s e =>
      let l := e.2.sharers.filter (· != h)
      if l.isEmpty then s.delDent e.1 else s.keepDent e.1 { e.2 with sharers := l }) s
    let s := os.foldl (fun s e => s.delDent e.1) s
    let mask := s.upSlices.foldl (fun m n => m + 2 ^ n) 0
    let s := s.record 0 0x0006 (flds [(2, h), (1, mask), (1, 0), (4, es.length), (4, ss.length), (4, os.length), (4, w.recallsEnded),
      (8, w.started), (8, s.tbc)])
    (s.setDir { s.dir with sweep := none }).bgDoneOp 0xC032 .success []

/-! ### Meanings -/

def execHostRead (link : Nat) (pbr : Option Nat) (dpa : Nat) (flips : List Flip) (s : State) : Host.Outcome State Fault Refusal :=
  .next (readRequest (.hostRead link pbr dpa flips) link pbr dpa 2 flips s)

def execHostWrite (link : Nat) (pbr : Option Nat) (dpa : Nat) (data : Bytes) (be : Nat) (poison : Bool) (s : State) :
    Host.Outcome State Fault Refusal :=
  .next (writeRequest (.hostWrite link pbr dpa data be poison) link pbr dpa data be poison s)

def execLoupeFill (page cls : Nat) (s : State) : Host.Outcome State Fault Refusal := .next (loupeFill page cls s)
def execCondenserCodeBlock (page : Nat) (s : State) : Host.Outcome State Fault Refusal := .next (codeBlock page s).dirSettle
def execHeldWriteReexamine (slice : Nat) (s : State) : Host.Outcome State Fault Refusal := .next (reexamine slice s).dirSettle
def execHoldLimitExpiry (slice : Nat) (s : State) : Host.Outcome State Fault Refusal := .next (holdExpiry slice s).dirSettle
def execOverrunReliefPromotion (base : Nat) (s : State) : Host.Outcome State Fault Refusal := .next (reliefPromotion base s)
def execEpochAdvance (slice : Nat) (s : State) : Host.Outcome State Fault Refusal := .next (epochAdvance slice s)
def execMigrationScan (item : Item) (s : State) : Host.Outcome State Fault Refusal := .next (migrationScan item s)
def execMoveSwitch (item : Item) (s : State) : Host.Outcome State Fault Refusal := .next (moveSwitch item s).dirSettle
def execMoveCancel (item : Item) (s : State) : Host.Outcome State Fault Refusal := .next (moveCancel item s).dirSettle

def execRdS (link : Nat) (pbr : Option Nat) (dpa : Nat) (s : State) : Host.Outcome State Fault Refusal :=
  .next (readRequest (.rdS link pbr dpa) link pbr dpa 0 [] s)
def execRdE (link : Nat) (pbr : Option Nat) (dpa : Nat) (s : State) : Host.Outcome State Fault Refusal :=
  .next (readRequest (.rdE link pbr dpa) link pbr dpa 1 [] s)
def execRdI (link : Nat) (pbr : Option Nat) (dpa : Nat) (s : State) : Host.Outcome State Fault Refusal :=
  .next (readRequest (.rdI link pbr dpa) link pbr dpa 2 [] s)
def execWb (link : Nat) (pbr : Option Nat) (dpa : Nat) (data : Bytes) (keep : Bool) (s : State) : Host.Outcome State Fault Refusal :=
  .next (wbRequest (.wb link pbr dpa data keep) link pbr dpa data keep s)
def execEvict (link : Nat) (pbr : Option Nat) (dpa : Nat) (s : State) : Host.Outcome State Fault Refusal :=
  .next (evictRequest (.evict link pbr dpa) link pbr dpa s)
def execBirsp (host dpa : Nat) (invalid : Bool) (s : State) : Host.Outcome State Fault Refusal := .next (birsp host (dpa / 64) invalid s)
def execRecallTimeout (dpa : Nat) (s : State) : Host.Outcome State Fault Refusal := .next (recallTimeout (dpa / 64) s)
def execDirPubDb (link slot region : Nat) (s : State) : Host.Outcome State Fault Refusal := .next (pubDoorbell link slot region false s)
def execDirPubQuery (link slot region : Nat) (s : State) : Host.Outcome State Fault Refusal := .next (pubDoorbell link slot region true s)
def execPublishFenceDone (region host : Nat) (s : State) : Host.Outcome State Fault Refusal := .next (publishDone region host s)

def rowPublish : Row := { op := 0xC031, thru := 5, lo := 5, hi := 5 }
def execPublish (via : Iface) (inp : Bytes) (s : State) : Host.Outcome State Fault Refusal :=
  .next (mbxCall rowPublish (.publish via inp) via inp.length s (publishCmd via inp))
def execPublishQuery (via : Iface) (inp : Bytes) (s : State) : Host.Outcome State Fault Refusal :=
  .next (mbxCall rowPublish (.publishQuery via inp) via inp.length s (publishCmd via inp))

def rowHostLost : Row := { op := 0xC032, thru := 8, lo := 3, hi := 3 }
def execHostLostLost (via : Iface) (inp : Bytes) (s : State) : Host.Outcome State Fault Refusal :=
  .next (mbxCall rowHostLost (.hostLostLost via inp) via inp.length s (hostLostCmd inp))
def execHostLostDone (s : State) : Host.Outcome State Fault Refusal := .next (hostLostDone s)
def execHostLostReinstate (via : Iface) (inp : Bytes) (s : State) : Host.Outcome State Fault Refusal :=
  .next (mbxCall rowHostLost (.hostLostReinstate via inp) via inp.length s (hostLostCmd inp))

def execHostBucketRefill (host : Nat) (s : State) : Host.Outcome State Fault Refusal := .next (bucketRefill host s)
def execBankCommandIssue (ctl : Ctl) (s : State) : Host.Outcome State Fault Refusal := .next (bankIssue ctl s).dirSettle
def execBankIdlePrecharge (ctl : Ctl) (bank : Nat) (s : State) : Host.Outcome State Fault Refusal := .next (bankIdle ctl bank s)
def execRequestUrgent (ctl : Ctl) (bank : Nat) (s : State) : Host.Outcome State Fault Refusal := .next (requestUrgent ctl bank s)

end Sys2Proof.Machine
end

