-- ==== Sys2Proof/Machine/Clock.lean ====
section
/-! DEFINITION. Changes of the engine clock: the step in force, FREQ_SET, deferral and completion (16 R548-R552). -/
namespace Sys2Proof.Machine
open Sys2Proof

/-- A DRAM controller of the slice is in training (10 R334). -/
def State.training (s : State) (slice : Nat) : Bool :=
  s.drc.chans.any fun e => (ctlOf e.1).slice == slice && e.2.override == some 1

/-- What defers a change on a slice (R550): 0 nothing, 1 TRAINING, 2 SLICE_RESET. -/
def State.deferral (s : State) (slice : Nat) : Nat :=
  if s.training slice then 1 else if (s.sl slice).state = 2 || (s.sl slice).state = 3 then 2 else 0

/-- The step that ought to be in force: the lower frequency of the two (R548). -/
def State.wantedStep (s : State) (slice : Nat) : Nat := max (s.ck slice).reqStep (s.ck slice).thrStep

/-- FREQ_SET completes when every slice of its mask has applied or cancelled its change (R552). -/
def State.freqDone (s : State) : State :=
  match s.clk.op with
  | none => s
  | some o =>
    if o.applied ||| o.cancelled = o.mask then
      let reason := (o.reasons.head?.map (·.2)).getD 0
      (s.setClk { s.clk with op := none }).bgDone o.via 0xC068 .success (flds [(1, o.applied), (1, o.cancelled), (1, reason)])
    else s

/-- A slice's part of the running FREQ_SET ends: applied with reason 0, else cancelled. -/
def State.freqPart (s : State) (slice reason : Nat) : State :=
  match s.clk.op with
  | none => s
  | some o =>
    if !bit o.mask slice || bit (o.applied ||| o.cancelled) slice then s
    else
      let o' : FreqOp := if reason = 0 then { o with applied := setBit o.applied slice true }
        else { o with cancelled := setBit o.cancelled slice true, reasons := tabSet o.reasons slice reason }
      (s.setClk { s.clk with op := some o' }).freqDone

/-- A change of the step in force: on a parked slice at once, else it waits for its release (R550, R551). -/
def State.retarget (s : State) (slice : Nat) : State :=
  let w := s.wantedStep slice
  if w = (s.ck slice).effStep then
    (s.modCk slice fun c => { c with pending := false, deferCause := 0, relock := false }).freqPart slice 0
  else
    let d := s.deferral slice
    if d = 0 && (s.sl slice).parked then
      (s.modCk slice fun c => { c with effStep := w, changes := c.changes + 1, pending := false, deferCause := 0 }).freqPart slice 0
    else s.modCk slice fun c => { c with pending := true, deferCause := d }

/-- A waiting change is cancelled: the slice keeps its step (R550, R552). -/
def State.freqCancel (s : State) (slice reason : Nat) : State :=
  if (s.ck slice).pending && !(s.ck slice).relock then
    (s.modCk slice fun c => { c with pending := false, deferCause := 0, reqStep := c.priorStep }).freqPart slice reason
  else s

/-- A training on a slice has ended with a controller frozen, a stack failed or a unit retired. -/
def State.trainingFailed (s : State) (slice : Nat) : State :=
  if (s.ck slice).deferCause = 1 then s.freqCancel slice 1 else s

/-- FREQ_SET (R552). A slice that is not in service is cancelled with reason 2. -/
def freqSetCmd (v : Iface) (inp : Bytes) (s : State) : Reply :=
  let mask := fld inp 0 1
  let step := fld inp 1 1
  if 4 < step || 2 ^ s.cfg.slices ≤ mask then fail s .invalidInput
  else
    { ret := .backgroundStarted, st := s, after := fun s =>
        let s := s.setClk { s.clk with op := some { via := v, mask := mask } }
        let s := ((List.range 8).filter (bit mask)).foldl (fun s n =>
          if s.up n then
            (s.modCk n fun c => { c with priorStep := if c.pending then c.priorStep else c.reqStep, reqStep := step }).retarget n
          else s.freqPart n 2) s
        s.freqDone }

/-- A training begins on a slice: a change that waits there is deferred (R550). -/
def State.trainingDefers (s : State) (slice : Nat) : State :=
  if (s.ck slice).pending && !(s.ck slice).relock then s.modCk slice fun c => { c with deferCause := 1 } else s

/-- ENG_FREQ_CHANGE: a released change stops the clock and relocks the PLL; one that something defers by now waits again (R549, R550). -/
def freqChange (slice : Nat) (s : State) : State :=
  let c := s.ck slice
  if c.pending && c.deferCause = 0 && !c.relock then
    let d := s.deferral slice
    s.modCk slice fun c => if d = 0 then { c with relock := true } else { c with deferCause := d }
  else s

/-- ENG_FREQ_CHANGE_DONE: work resumes at the new step (R549). -/
def freqChangeDone (slice : Nat) (s : State) : State :=
  if (s.ck slice).relock then
    let w := s.wantedStep slice
    (s.modCk slice fun c => { c with effStep := w, changes := c.changes + 1, pending := false, relock := false,
                                     priorStep := c.reqStep }).freqPart slice 0
  else s

/-- FREQ_CHANGE_DEFER_END: what deferred a change holds no longer (R550). -/
def freqDeferEnd (slice : Nat) (s : State) : State :=
  if (s.ck slice).pending && (s.ck slice).deferCause != 0 then
    if s.up slice then s.retarget slice else s.freqCancel slice 2
  else s

def rowFreqSet : Row := { op := 0xC068, thru := 8, lo := 2, hi := 2 }
def execFreqSet (via : Iface) (inp : Bytes) (s : State) : Host.Outcome State Fault Refusal :=
  .next (mbxCall rowFreqSet (.freqSet via inp) via inp.length s (freqSetCmd via inp))
def execEngFreqChange (slice : Nat) (s : State) : Host.Outcome State Fault Refusal := .next (freqChange slice s)
def execFreqChangeDeferEnd (slice : Nat) (s : State) : Host.Outcome State Fault Refusal := .next (freqDeferEnd slice s)

end Sys2Proof.Machine
end

