-- ==== Sys2Proof/Machine/Dram.lean ====
section
/-! DEFINITION. DRAM controllers: refresh and row disturbance (10 R322-R327), partial-array segments (10 R328-R330),
training, freeze, thaw and retirement (10 R331-R343), self-refresh (17 R572). -/
namespace Sys2Proof.Machine
open Sys2Proof

/-! ### Capacities (01 R29, 06 R184) -/

/-- Segments of a slice that are refreshed. -/
def State.keptSegments (s : State) (slice : Nat) : Nat := ((List.range 8).filter (bit (s.drcReg slice).keep)).length

/-- Available T2 of a slice in bytes under a mask of kept segments: retired units and masked segments excluded. -/
def State.availT2With (s : State) (slice kept : Nat) : Nat :=
  (unitCount s.cfg slice 2 - s.retiredT2 slice) * 2 ^ 32 * kept

/-- Available T2 of the slices in service. -/
def State.availT2 (s : State) : Nat := s.upSlices.foldl (fun n k => n + s.availT2With k (s.keptSegments k)) 0

/-- Available T1: the MA space of the slices in service without the retired units and both copies of the map region (06 R174). -/
def State.availT1 (s : State) : Nat :=
  s.upSlices.foldl (fun n k =>
    n + (93 - (s.drc.retired.filter fun r => r / 256 == k && r % 256 / 128 == 0).length) * dataRows s.cfg * 65536 -
      2 * (s.cfg.mapWords * 4)) 0

/-- The device reserve in bytes (06 R199). -/
def State.deviceReserve (s : State) : Nat := s.upSlices.foldl (fun n k => n + (s.mig k).reserveMib * 2 ^ 20) 0

/-- T2 of committed lend windows in bytes (08 R262). -/
def State.lentT2 (s : State) : Nat :=
  (s.fab.lw.filter fun w => w.2.valid && w.2.tier == 2).foldl (fun n w => n + w.2.size * 2 ^ 30) 0

/-- Sum of a quota of every tenant in bytes. -/
def State.quotaSum (s : State) (f : Quota → Nat) : Nat := s.pool.quotas.foldl (fun n q => n + f q.2 * 2 ^ 20) 0

/-! ### Refresh and row disturbance -/

/-- Banks of a controller. -/
def banksOf (tier : Nat) : Nat := if tier = 1 then 64 else 32

/-- The refresh rate of a controller in multiples of the 1x rate (R323, R325): doubled for its stack or package, more where MR4 of
the package asked for more at the last poll. -/
def State.refreshRate (s : State) (c : Ctl) : Nat :=
  let d := s.drcReg c.slice
  if c.tier = 1 then (if bit d.t1Doubled (c.unit / 32) then 2 else 1)
  else if bit d.t2Doubled (c.unit / 4) then ((d.mr4.drop (c.unit / 4 * 4)).take 4).foldl max 2 else 1

/-- A due refresh of a bank (R322), the banks spread evenly over the refresh interval: postponed while the bank has a request to the
open row pending, within the limit; else it and those owed are issued, after the open row closes (R321). A frozen controller keeps
refreshing (R325). -/
def refresh (c : Ctl) (bank : Nat) (s : State) : State :=
  let st := s.chanState c
  let x := s.chan c
  if (st != 2 && st != 3 && st != 5) || x.selfRefresh then s
  else
    let every := Config.refreshNs c.tier (s.refreshRate c)
    let due := (tabFind x.refAt bank).getD (every * bank / banksOf c.tier)
    let s := (s.until due).modChan c fun x => { x with refAt := tabSet x.refAt bank (due + every) }
    let want := match tabFind x.openRows bank with
      | some r => (bankQueue x.queue bank).any fun e => e.row == r
      | none => false
    let owed := tabGet 0 x.postponed bank
    if st = 2 && want && owed < Config.postponeLimit c.tier then
      s.modChan c fun x => { x with postponed := tabSet x.postponed bank (owed + 1) }
    else
      let s := s.closeRow c bank
      let s := (List.range (owed + 1)).foldl (fun s _ => s.issue c 4 bank 0) s
      s.modChan c fun x => { x with postponed := tabDel x.postponed bank }

/-- The draw of an activate (R326): the generator moves on to it, and a draw that hits marks the bank; a bank already marked stays
as it is. -/
def rfmMark (c : Ctl) (bank draw : Nat) (s : State) : State :=
  let k := (s.drcReg c.slice).rfmK
  let n := tabGet 0 (s.chan c).draws bank
  if s.chanState c != 2 || n = 0 then s
  else
    let s := s.modChan c fun x =>
      { x with lfsr := BitVec.ofNat 32 draw, draws := if n = 1 then tabDel x.draws bank else tabSet x.draws bank (n - 1) }
    if draw % 2 ^ k != 0 || (tabFind (s.chan c).marks bank).isSome then s
    else s.modChan c fun x => { x with marks := tabSet x.marks bank (0, s.tbc) }

/-- A marked bank receives its command: once three activates have followed, or within 2 microseconds (R326). -/
def rfmDue (c : Ctl) (bank : Nat) (s : State) : State :=
  match tabFind (s.chan c).marks bank with
  | none => s
  | some (n, at0) =>
    if s.chanState c != 2 then s
    else (if 3 ≤ n then s else s.until (at0 + 2 * us)).markRfm c bank

/-! ### Temperature (R323-R325) -/

/-- What a poll makes of the refresh of stacks and packages: the new masks and cool counts. -/
def pollStack (temps : List Nat) (d : DrcSlice) : DrcSlice :=
  temps.zipIdx.foldl (fun d t =>
    let (c, i) := t
    if bit d.t1Doubled i then
      let n := if c ≤ 82 then tabGet 0 d.cool1 i + 1 else 0
      if 2 ≤ n then { d with t1Doubled := setBit d.t1Doubled i false, cool1 := tabDel d.cool1 i }
      else { d with cool1 := tabSet d.cool1 i n }
    else if 85 < c then { d with t1Doubled := setBit d.t1Doubled i true, cool1 := tabDel d.cool1 i } else d) d

def pollPackage (rates : List Nat) (d : DrcSlice) : DrcSlice :=
  rates.zipIdx.foldl (fun d t =>
    { d with t2Doubled := setBit d.t2Doubled t.2 (1 < t.1), t2Over := setBit d.t2Over t.2 (2 < t.1) }) d

/-- The poll of a slice: MR4 of every channel, the hottest result of each package (R323); a tier whose refresh changes is rescaled (R324, log 17). -/
def pollRefresh (slice : Nat) (temps mr4 : List Nat) (s : State) : State :=
  let d := s.drcReg slice
  let s := s.until (d.lastPoll + d.tempPollMs * ms)
  let rates := (List.range 6).map fun j => if (packages s.cfg).contains j then ((mr4.drop (4 * j)).take 4).foldl max 0 else 0
  let s := s.modDrcReg slice fun d => { pollPackage rates (pollStack (temps.take 3) d) with lastPoll := s.tbc, mr4 := mr4 }
  if !s.up slice then s
  else
    let n := s.drcReg slice
    let s := s.rescaleTier slice (if n.t1Doubled != 0 then 0 else 1) 1
    s.rescaleTier slice (if n.t2Doubled != 0 then 0 else 1) 2

/-! ### Requests that wait at a controller -/

/-- Requests to lent sectors that wait for a frozen controller are taken up again, before the commands that wait. -/
def State.lentAgain (s : State) : State :=
  (s.setFab { s.fab with lendWait := [] }).requeue (s.fab.lendWait.map fun m => if m.opcode = 1 then .rd m else .wr m)

/-- Reads and writes that wait at a controller go on. -/
def State.releaseCtl (s : State) (c : Ctl) : State :=
  let s := s.lentAgain
  let k := ctlKey c
  let rs := s.drc.waitReads.filter fun r => r.1 == k
  let ws := s.drc.waitWrites.filter fun w => w.1 == k
  let s := s.setDrc { s.drc with waitReads := s.drc.waitReads.filter fun r => r.1 != k,
                                 waitWrites := s.drc.waitWrites.filter fun w => w.1 != k }
  let s := ws.foldl (fun s w => s.enterWrite w.2) s
  (rs.foldl (fun s r => s.readAt r.2 []) s).wake

/-- The items whose homes use a local address of a controller's logical unit. -/
def State.itemsAt (s : State) (c : Ctl) (laddr : Nat) : List Item :=
  match s.servedBy c with
  | none => []
  | some (slice, u) => s.items.filter fun i => match s.homeOf i with
    | some h => h.tier == c.tier && s.itemSlice i == slice &&
        (homePieces s.cfg slice h).any fun p =>
          p.2.1 == u && (let L := (mapMa s.cfg slice h.tier p.1).2; decide (L ≤ laddr) && decide (laddr < L + p.2.2))
    | none => false

/-- A write that is lost: its line, or its item, becomes poison (R336). -/
def State.loseWrite (s : State) (c : Ctl) (e : QEnt) : State :=
  (match e.line with
  | some d => (s.poisonLine (d / 64)).loupeDrop (d / 4096)
  | none => (s.itemsAt c e.laddr).foldl (fun s i => s.poisonItem i 3) s).jobStep e.job

/-- What is queued at a controller, in its bank queues and the ingress queues. -/
def State.queuedAt (s : State) (c : Ctl) : List QEnt :=
  (s.chan c).queue ++ (s.drc.ingress.filter fun e => e.1 == ctlKey c).map (·.2)

/-- The reads and writes that wait at a controller complete with poison. -/
def State.poisonWaiting (s : State) (c : Ctl) : State :=
  let s := s.lentAgain
  let k := ctlKey c
  let rs := s.drc.waitReads.filter fun r => r.1 == k
  let ws := s.drc.waitWrites.filter fun w => w.1 == k
  let s := s.setDrc { s.drc with waitReads := s.drc.waitReads.filter fun r => r.1 != k,
                                 waitWrites := s.drc.waitWrites.filter fun w => w.1 != k }
  let s := rs.foldl (fun s r => s.respondRead r.2 c.tier none) s
  ws.foldl (fun s w => ((s.poisonLine w.2.line).loupeDrop (w.2.line / 64)).complete w.2 c.tier) s

/-! ### Freeze (R335, R336, R343) -/

/-- The DRC_FROZEN payload. -/
def State.frozenPayload (s : State) (c : Ctl) (cause : Nat) (addr : Option Nat) : Bytes :=
  let all := s.queuedAt c
  flds [(1, c.slice), (1, c.tier), (1, c.unit), (1, cause), (2, ((s.servedBy c).map (·.2)).getD 0xFFFF), (2, 0),
    (4, (all.filter fun e => !e.write).length), (4, (all.filter (·.write)).length), (8, s.tbc), (8, addr.getD (2 ^ 64 - 1))]

/-- One controller freezes; a copy of a map region on it serves no longer (R316). -/
def State.freezeCtl (s : State) (c : Ctl) (cause : Nat) (addr : Option Nat) : State :=
  if s.chanState c != 2 && s.chanState c != 5 then s
  else
    let p := s.frozenPayload c cause addr
    let cap := (s.sched c).2.2.1
    let s := (s.mapStale c true).modChan c fun x =>
      { x with override := some 3, freezeCause := cause, freezes := x.freezes + 1, frozenAt := some s.tbc, poisoning := false,
               snap := some { header := p, openRows := x.openRows, inOrder := x.inOrder, queue := x.queue, cmds := x.cmds,
                              lanes := x.lanes, cap := cap, at_ := s.tbc } }
    (s.record 2 0x000D p).signalError

/-- The controllers that a cause freezes: a command-bus cause of T1 takes both pseudo-channels of the HBM3E channel. -/
def frozenBy (c : Ctl) (cause : Nat) : List Ctl :=
  if cause = 1 && c.tier = 1 then [{ c with unit := c.unit / 2 * 2 }, { c with unit := c.unit / 2 * 2 + 1 }] else [c]

def controllerFreeze (c : Ctl) (cause : Nat) (addr : Option Nat) (s : State) : State :=
  if cause = 0 || 5 < cause then s
  else (frozenBy c cause).foldl (fun s x => s.freezeCtl x cause (if x == c then addr else none)) s

/-- 100 microseconds after the freeze, what is queued or waits completes with poison or is discarded (R336). -/
def freezePoison (c : Ctl) (s : State) : State :=
  let x := s.chan c
  match x.frozenAt with
  | none => s
  | some t =>
    if x.poisoning then s
    else
      let s := s.until (t + 100 * us)
      let all := s.queuedAt c
      let s := (s.setDrc { s.drc with ingress := s.drc.ingress.filter fun e => e.1 != ctlKey c }).modChan c fun x =>
        { x with poisoning := true, queue := [], inOrder := [], drain := false }
      let s := all.foldl (fun s e => if e.write then s.loseWrite c e else match e.job with
        | some k => s.endJob k true
        | none => s) s
      s.poisonWaiting c

/-- A controller is retired, what waits there goes on elsewhere, and a change of the engine clock learns of it. -/
def State.retireFully (s : State) (c : Ctl) : State × Nat :=
  let (s, r) := s.retireCtl c
  (s.releaseCtl c, r)

/-- A controller frozen for FREEZE_LIMIT is retired (R342). -/
def autoRetire (c : Ctl) (s : State) : State :=
  match (s.chan c).frozenAt with
  | none => s
  | some t =>
    if s.chanState c != 3 then s
    else ((s.until (t + (s.drcReg c.slice).freezeLimit * ms)).retireFully c).1

/-- A lane passes (R332). -/
def lanePass (l : Lane) : Bool := 20 ≤ l.rdEye && 20 ≤ l.wrEye && 6 ≤ l.vrefWin

/-- First code and length of the widest run of passing codes, the lowest of equal ones. -/
def widestRun (m n : Nat) : Nat × Nat :=
  let r := (List.range n).foldl (fun (a : Nat × Nat × Nat) k =>
    if bit m k then
      let c := a.2.2 + 1
      if a.2.1 < c then (k + 1 - c, c, c) else (a.1, a.2.1, c)
    else (a.1, a.2.1, 0)) (0, 0, 0)
  (r.1, r.2.1)

/-- The centre of a run of codes (R331). -/
def centre (r : Nat × Nat) : Nat := r.1 + (r.2 - 1) / 2

/-- What the sweeps of one training give (R331): a sweep that finds no passing code leaves none to centre the next on, and the lane
has no eye. -/
def swept (x : Sweeps) (repaired : Bool) : Lane :=
  let v := widestRun x.vref 256
  let r := widestRun x.rd2 128
  let w := widestRun x.wr2 128
  if (widestRun x.rd1 128).2 = 0 || (widestRun x.wr1 128).2 = 0 || v.2 = 0 then
    { rdDelay := 0, rdEye := 0, wrDelay := 0, wrEye := 0, vref := 0, vrefWin := 0, repaired := repaired }
  else { rdDelay := centre r, rdEye := r.2, wrDelay := centre w, wrEye := w.2, vref := centre v, vrefWin := v.2, repaired := repaired }

/-- The training of a lane: a failing HBM3E lane is repaired first where it can be (R332). -/
def trainLane (tier : Nat) (x : LaneRun) : Lane :=
  let a := swept x.first false
  if lanePass a || tier != 1 then a
  else match x.again with
    | some y => swept y true
    | none => a

/-- DRC_TRAIN_RES of a lane (R345). -/
def trainRes (l : Lane) : Nat :=
  l.rdDelay % 256 + 2 ^ 8 * (l.rdEye % 256) + 2 ^ 16 * (l.wrDelay % 256) + 2 ^ 24 * (l.wrEye % 256) + 2 ^ 32 * (l.vref % 256) +
  2 ^ 40 * (l.vrefWin % 256) + 2 ^ 48 * b2n (lanePass l) + 2 ^ 49 * b2n l.repaired

/-- Byte lanes of a controller of a tier. -/
def laneCount (tier : Nat) : Nat := if tier = 1 then 4 else 2

/-- The results of a lane's last training. One that passed at start-up without its sweeps being named has results that are free
within the pass limits (R331, R332, R334). -/
def State.laneOf (s : State) (c : Ctl) (k : Nat) : Option Lane :=
  let v (i : Nat) : Nat := Config.trainedLane (ctlKey c) k i
  let x := s.chan c
  if laneCount c.tier ≤ k then none
  else if x.lanes.isEmpty && 7 ≤ s.rst.phase && s.ctlFitted c then
    some { rdDelay := v 0 % 128, rdEye := 20 + v 1 % 109, wrDelay := v 2 % 128, wrEye := 20 + v 3 % 109, vref := v 4 % 256,
           vrefWin := 6 + v 5 % 250, repaired := c.tier == 1 && bit (v 6) 0 }
  else x.lanes[k]?

/-- A controller's training ends (R332, R340). Before it returns to service the copy of a map region on it is rewritten (R316); what
was queued at the freeze and has not met its poison goes on. -/
def trained (c : Ctl) (runs : List LaneRun) (s : State) : State :=
  let x := s.chan c
  if x.override != some 1 then s
  else
    let lanes := runs.map (trainLane c.tier)
    let pass := lanes.all lanePass
    let s := s.modChan c fun x => { x with lanes := lanes, thawing := none }
    match x.thawing with
    | some v =>
      if pass then
        let s := (s.mapRewrite c).modChan c fun x =>
          { x with override := none, snap := none, frozenAt := none, poisoning := false, openRows := [], lastTrack := s.tbc }
        (s.releaseCtl c).respond v 0xC071 .success []
      else
        let s := s.modChan c fun x => { x with override := some 3 }
        (s.trainingFailed c.slice).respond v 0xC071 .invalidInput []
    | none =>
      let s := s.modChan c fun x => { x with override := none }
      if pass then s.releaseCtl c else ((s.retireFully c).1).trainingFailed c.slice

/-- Drift tracking of a controller in service, every 100 ms (R333). -/
def drift (c : Ctl) (bad : Bool) (s : State) : State :=
  if s.chanState c != 2 then s
  else
    let s := s.until ((s.chan c).lastTrack + 100 * ms)
    let s := s.modChan c fun x => { x with lastTrack := s.tbc }
    if bad then s.freezeCtl c 5 none else s

/-! ### Dump, thaw, retirement by command (R339-R342, 13 R451) -/

def ctlIn (inp : Bytes) : Ctl := { slice := fld inp 0 1, tier := fld inp 1 1, unit := fld inp 2 1 }

/-- The snapshot of a frozen controller as bytes. -/
def snapBytes (c : Ctl) (p : Snap) : Bytes :=
  let n := banksOf c.tier
  let cap := p.cap * 256
  let bank (b : Nat) : Bytes :=
    if n ≤ b then le 4 0
    else
      let r := tabFind p.openRows b
      le 4 (b2n r.isSome + 2 * (r.getD 0 % 2 ^ 19) + 2 ^ 20 * (bankQueue p.queue b).length + 2 ^ 25 * b2n (tabFind p.inOrder b).isSome)
  let ent (e : QEnt) : Bytes :=
    let age := cyclesOf c.tier (p.at_ - e.arrival)
    flds [(8, e.laddr), (1, 1 + 2 * b2n e.write + 4 * b2n (cap < age) + 16 * e.cls), (3, 0), (4, min age (2 ^ 32 - 1))]
  let queue (b : Nat) : Bytes := slice ((bankQueue p.queue b).flatMap ent) 0 256
  let cmd (d : DCmd) : Bytes := flds [(8, d.tbc), (1, d.cmd), (1, d.bank), (2, 0), (4, d.row)]
  p.header ++ (List.range 64).flatMap bank ++ (List.range 64).flatMap queue ++ slice (p.cmds.flatMap cmd) 0 1024 ++
    slice (Config.memErrors (ctlKey c) p.at_) 0 64 ++ slice (p.lanes.flatMap fun l => le 8 (trainRes l)) 0 32

def freezeDumpCmd (v : Iface) (inp : Bytes) (s : State) : Reply :=
  let c := ctlIn inp
  let off := fld inp 4 4
  if s.restarting c.slice then fail s .busy
  else if s.chanState c != 3 then fail s .invalidInput
  else match (s.chan c).snap with
    | none => fail s .invalidInput
    | some p =>
      if 17792 < off then fail s .invalidInput
      else ok s (flds [(4, 17792), (4, off)] ++ ((snapBytes c p).drop off).take (ifaceLimit v - 8))

def thawCmd (v : Iface) (inp : Bytes) (s : State) : Reply :=
  let c := ctlIn inp
  if (s.chan c).thawing.isSome || s.restarting c.slice then fail s .busy
  else if s.chanState c != 3 then fail s .invalidInput
  else { ret := .success, later := true, st := (s.modChan c fun x => { x with override := some 1, thawing := some v }).trainingDefers c.slice }

def retireCmd (inp : Bytes) (s : State) : Reply :=
  let c := ctlIn inp
  let st := s.chanState c
  if (s.chan c).thawing.isSome || s.restarting c.slice then fail s .busy
  else if st = 0 || st = 4 then fail s .invalidInput
  else
    let (s, r) := s.retireFully c
    ok s (flds [(1, r)])

/-! ### Partial-array segments (R328-R330) -/

/-- A segment holds a home. -/
def State.segLive (s : State) (slice k : Nat) : Bool :=
  let n := segBytes s.cfg slice
  (s.used slice 2 0).any fun u => u.1 < (k + 1) * n && k * n < u.2

/-- A command of DRC_PASR_CMD runs until the time base next moves (log 35). -/
def State.pasrBusy (s : State) (slice : Nat) : Bool := (s.drcReg slice).busyAt == some s.tbc

/-- The result of a mask: 0 OK or a code of R329. -/
def State.maskResult (s : State) (slice keep : Nat) (force : Bool) : Nat :=
  let gone := (List.range 8).filter fun k => bit (s.drcReg slice).keep k && !bit keep k
  let left := (s.upSlices.filter (· != slice)).foldl (fun n k => n + s.availT2With k (s.keptSegments k)) 0 +
    s.availT2With slice ((List.range 8).filter (bit keep)).length
  if !force && gone.any (s.segLive slice) then 1
  else if left - s.deviceReserve < s.quotaSum (fun q => q.t2 + q.overflow) || left < s.lentT2 then 2
  else if s.pasrBusy slice then 3
  else if (List.range 24).any fun u => s.frozen { slice := slice, tier := 2, unit := u } then 4
  else 0

/-- Homes in segments that a forced mask takes are lost as the content of a failed unit. -/
def State.loseSegments (s : State) (slice keep : Nat) : State :=
  let n := segBytes s.cfg slice
  s.items.foldl (fun s i => match s.homeOf i with
    | some h =>
      if h.tier == 2 && s.itemSlice i == slice && !bit keep (h.ma / n) && bit (s.drcReg slice).keep (h.ma / n) then s.poisonItem i 3 else s
    | none => s) s

/-- A write of DRC_PASR_CMD: [7:0] KEEP, [15:8] EVAC, [16] FORCE, [17] APPLY_MASK, [18] APPLY_EVAC. -/
def pasrCmd (slice val : Nat) (s : State) : State :=
  if !s.up slice then s
  else
    let keep := bits val 7 0
    let mask := bit val 17
    let r := if mask then s.maskResult slice keep (bit val 16) else 0
    if r != 0 then s.modDrcReg slice fun d => { d with result := r }
    else
      let s := s.modDrcReg slice fun d => { d with busyAt := some s.tbc }
      let s := if mask then (s.loseSegments slice keep).modDrcReg slice fun d => { d with keep := keep } else s
      s.modDrcReg slice fun d => { d with result := 0, evac := if bit val 18 then bits val 15 8 else d.evac }

/-- A register of PF0 can be reached: the link carries traffic and the function is awake. -/
def State.pf0Open (s : State) (f : Func) : Bool :=
  match f with
  | .pf0 l => linkFitted s.cfg l && s.linkOpen l && !(s.fn f).d3hot
  | _ => false

/-- A write to a register of BAR0 (19 R594, R599): discarded on a frozen link, ignored unless FM_LINKS names the link. -/
def State.pf0Write (s : State) (f : Func) (go : State → State) : State :=
  if !s.pf0Open f then s.dropIo (funcLink s.cfg f)
  else if bit s.cfg.fmLinks (funcLink s.cfg f) then go (s.touch f) else s.touch f

/-! ### Self-refresh (17 R572) -/

def selfRefreshEntry (c : Ctl) (s : State) : State :=
  let x := s.chan c
  if c.tier != 2 || s.chanState c != 2 || !(s.queuedAt c).isEmpty || x.srIdle = 0 || !x.marks.isEmpty || x.selfRefresh then s
  else
    let last := x.lastAccess.foldl (fun m e => max m e.2) 0
    let s := s.until (last + x.srIdle * us)
    let s := x.openRows.foldl (fun s r => s.closeRow c r.1) s
    (s.issue c 6 0 0).modChan c fun x => { x with selfRefresh := true }

/-! ### Meanings -/

def execRefresh (ctl : Ctl) (bank : Nat) (s : State) : Host.Outcome State Fault Refusal := .next (refresh ctl bank s)
def execRfmMark (ctl : Ctl) (bank draw : Nat) (s : State) : Host.Outcome State Fault Refusal := .next (rfmMark ctl bank draw s)
def execRfmDue (ctl : Ctl) (bank : Nat) (s : State) : Host.Outcome State Fault Refusal := .next (rfmDue ctl bank s)
def execDriftTracking (ctl : Ctl) (bad : Bool) (s : State) : Host.Outcome State Fault Refusal := .next (drift ctl bad s)
def execControllerTrained (ctl : Ctl) (lanes : List LaneRun) (s : State) : Host.Outcome State Fault Refusal := .next (trained ctl lanes s).dirSettle
def execControllerFreeze (ctl : Ctl) (cause : Nat) (addr : Option Nat) (s : State) : Host.Outcome State Fault Refusal :=
  .next (controllerFreeze ctl cause addr s)
def execFreezePoisonTimeout (ctl : Ctl) (s : State) : Host.Outcome State Fault Refusal := .next (freezePoison ctl s).dirSettle
def execAutoRetire (ctl : Ctl) (s : State) : Host.Outcome State Fault Refusal := .next (autoRetire ctl s).dirSettle
def execSelfRefreshEntry (ctl : Ctl) (s : State) : Host.Outcome State Fault Refusal := .next (selfRefreshEntry ctl s)

def rowFreezeDump : Row := { op := 0xC070, thru := 5, lo := 8, hi := 8 }
def execDrcFreezeDump (via : Iface) (inp : Bytes) (s : State) : Host.Outcome State Fault Refusal :=
  .next (mbxCall rowFreezeDump (.drcFreezeDump via inp) via inp.length s (freezeDumpCmd via inp))
def rowThaw : Row := { op := 0xC071, thru := 5, lo := 3, hi := 3 }
def execDrcThaw (via : Iface) (inp : Bytes) (s : State) : Host.Outcome State Fault Refusal :=
  .next (mbxCall rowThaw (.drcThaw via inp) via inp.length s (thawCmd via inp))
def rowRetire : Row := { op := 0xC072, thru := 5, lo := 3, hi := 3 }
def execDrcRetireChannel (via : Iface) (inp : Bytes) (s : State) : Host.Outcome State Fault Refusal :=
  .next (mbxCall rowRetire (.drcRetireChannel via inp) via inp.length s (retireCmd inp)).dirSettle

def execApplyMask (fn : Func) (slice val : Nat) (s : State) : Host.Outcome State Fault Refusal :=
  .next (if bit val 17 then s.pf0Write fn (pasrCmd slice val) else s)
def execApplyEvac (fn : Func) (slice val : Nat) (s : State) : Host.Outcome State Fault Refusal :=
  .next (if bit val 18 then s.pf0Write fn (pasrCmd slice val) else s)

end Sys2Proof.Machine
end

