-- ==== Sys2Proof/Machine/Num.lean ====
section
/-! DEFINITION. Number formats, rounding, conversion and the vector unit (02). -/
namespace Sys2Proof.Machine
open Sys2Proof

/-- A value of a format: NaN, an infinity, or (-1)^neg * m * 2^e (02 R35). -/
inductive FNum where
  | nan
  | inf (neg : Bool)
  | fin (neg : Bool) (m : Nat) (e : Int)
  deriving DecidableEq, Repr

def numZero : FNum := .fin false 0 0

/-- Arithmetic flags of 02 R70 as bits: 1 NAN_SEEN, 2 OVERFLOW, 4 NAN_TO_ZERO, 8 INT_OVF. -/
abbrev Flags := Nat

def fNan : Flags := 1
def fOvf : Flags := 2
def fNanZero : Flags := 4
def fIntOvf : Flags := 8

/-- Widths of exponent and fraction, bias, and whether the top exponent is special (02 R36): 0 IEEE, 1 E4M3, 2 none. -/
def fmtParams (f : Nat) : Nat × Nat × Int × Nat :=
  match f with
  | 0 => (8, 23, 127, 0)
  | 1 => (8, 7, 127, 0)
  | 2 => (5, 10, 15, 0)
  | 3 => (5, 2, 15, 0)
  | 4 => (4, 3, 7, 1)
  | 5 => (3, 2, 3, 2)
  | 6 => (2, 3, 1, 2)
  | _ => (2, 1, 1, 2)

def isFloat (f : Nat) : Bool := f ≤ 7

/-- Bits of an element; TRIT5 is held five to a byte. -/
def fmtBits (f : Nat) : Nat :=
  match f with
  | 0 => 32 | 1 => 16 | 2 => 16 | 3 => 8 | 4 => 8 | 5 => 6 | 6 => 6 | 7 => 4 | 8 => 8 | 9 => 4 | _ => 8

/-- The signed value of a two's-complement code. -/
def signedOf (bits c : Nat) : Int := if c < 2 ^ (bits - 1) then (c : Int) else (c : Int) - 2 ^ bits

def numOfInt (i : Int) : FNum := .fin (decide (i < 0)) i.natAbs 0

/-- The value of a code (02 R35, R36, R39, R50). -/
def decodeNum (f c : Nat) : FNum :=
  if isFloat f then
    let (eb, mb, bias, sp) := fmtParams f
    let neg := (c >>> (eb + mb)) % 2 == 1
    let e := (c >>> mb) % 2 ^ eb
    let fr := c % 2 ^ mb
    if sp == 0 && e == 2 ^ eb - 1 then (if fr == 0 then .inf neg else .nan)
    else if sp == 1 && e == 2 ^ eb - 1 && fr == 2 ^ mb - 1 then .nan
    else if e == 0 then .fin neg fr (1 - bias - mb)
    else .fin neg (2 ^ mb + fr) ((e : Int) - bias - mb)
  else numOfInt (signedOf (fmtBits f) c)

/-- `m * 2^s` rounded to an integer, ties to even; `s` may be negative. -/
def roundShift (m : Nat) (s : Int) : Nat :=
  if 0 ≤ s then m <<< s.toNat
  else
    let k := (-s).toNat
    let q := m >>> k
    let r := m % 2 ^ k
    let half := 2 ^ (k - 1)
    if r > half || (r == half && q % 2 == 1) then q + 1 else q

/-- The exponent of the leading bit of a non-zero magnitude. -/
def topExp (m : Nat) (e : Int) : Int := (Nat.log2 m : Int) + e

/-- Exponent of the least significant place of the target's grid at a magnitude. -/
def gridExp (f : Nat) (m : Nat) (e : Int) : Int :=
  let (_, mb, bias, _) := fmtParams f
  max (topExp m e) (1 - bias) - mb

/-- A comparison of magnitudes `m * 2^e` and `n * 2^d`. -/
def magLt (m : Nat) (e : Int) (n : Nat) (d : Int) : Bool :=
  if e ≤ d then m < n <<< (d - e).toNat else m <<< (e - d).toNat < n

/-- Largest finite magnitude of a float format. -/
def maxFinite (f : Nat) : Nat × Int :=
  let (eb, mb, bias, sp) := fmtParams f
  if sp == 0 then (2 ^ (mb + 1) - 1, (2 ^ eb - 2 : Int) - bias - mb)
  else if sp == 1 then (2 ^ (mb + 1) - 2, (2 ^ eb - 1 : Int) - bias - mb)
  else (2 ^ (mb + 1) - 1, (2 ^ eb - 1 : Int) - bias - mb)

/-- Rounding to nearest even on a float grid (02 R51), with no range check. -/
def roundGrid (f : Nat) (neg : Bool) (m : Nat) (e : Int) : FNum :=
  if m = 0 then .fin neg 0 0
  else
    let q := gridExp f m e
    .fin neg (roundShift m (e - q)) q

/-- Rounding into FP32 (02 R51, R52): the accumulator and every vector result. -/
def rnd32 (x : FNum) : FNum × Flags :=
  match x with
  | .nan => (.nan, fNan)
  | .inf n => (.inf n, 0)
  | .fin n m e =>
    match roundGrid 0 n m e with
    | .fin n' m' e' =>
      let (mm, me) := maxFinite 0
      if magLt mm me m' e' then (.inf n', fOvf) else (.fin n' m' e', 0)
    | y => (y, 0)

/-- The code of a value that lies on the format's grid. -/
def encodeFloat (f : Nat) (x : FNum) : Nat :=
  let (eb, mb, bias, sp) := fmtParams f
  let sgn (n : Bool) : Nat := if n then 1 <<< (eb + mb) else 0
  match x with
  | .nan => if sp == 0 then ((2 ^ eb - 1) <<< mb) + 2 ^ (mb - 1) else if sp == 1 then 2 ^ (eb + mb) - 1 else 0
  | .inf n => sgn n + ((2 ^ eb - 1) <<< mb)
  | .fin n m e =>
    if m = 0 then sgn n
    else
      let t := topExp m e
      if t < 1 - bias then sgn n + roundShift m (e - (1 - bias - mb))
      else sgn n + ((t + bias).toNat <<< mb) + roundShift m (e - (t - mb)) % 2 ^ mb

def bits32 (x : FNum) : Nat := encodeFloat 0 x
def num32 (c : Nat) : FNum := decodeNum 0 c

/-- Exact sum. Opposite infinities give NaN; an exact zero is +0 unless both terms are -0. -/
def numAdd (x y : FNum) : FNum :=
  match x, y with
  | .nan, _ => .nan
  | _, .nan => .nan
  | .inf a, .inf b => if a == b then .inf a else .nan
  | .inf a, _ => .inf a
  | _, .inf b => .inf b
  | .fin a m e, .fin b n d =>
    let q := min e d
    let u : Int := (if a then -1 else 1) * (m <<< (e - q).toNat : Nat)
    let v : Int := (if b then -1 else 1) * (n <<< (d - q).toNat : Nat)
    let s := u + v
    if s = 0 then .fin (a && b) 0 0 else .fin (decide (s < 0)) s.natAbs q

def numNeg (x : FNum) : FNum :=
  match x with
  | .nan => .nan
  | .inf n => .inf (!n)
  | .fin n m e => .fin (!n) m e

/-- Exact product; 0 times an infinity is NaN (02 R56). -/
def numMul (x y : FNum) : FNum :=
  match x, y with
  | .nan, _ => .nan
  | _, .nan => .nan
  | .inf a, .inf b => .inf (a != b)
  | .inf a, .fin b n _ => if n = 0 then .nan else .inf (a != b)
  | .fin a m _, .inf b => if m = 0 then .nan else .inf (a != b)
  | .fin a m e, .fin b n d => .fin (a != b) (m * n) (e + d)

/-- The order of values, NaN below everything (02 R62). -/
def numLt (x y : FNum) : Bool :=
  match x, y with
  | .nan, .nan => false
  | .nan, _ => true
  | _, .nan => false
  | .inf a, .inf b => a && !b
  | .inf a, _ => a
  | _, .inf b => !b
  | .fin a m e, .fin b n d =>
    if m = 0 && n = 0 then false
    else if m = 0 then !b
    else if n = 0 then a
    else if a != b then a
    else if a then magLt n d m e else magLt m e n d

def numAbs (x : FNum) : FNum :=
  match x with
  | .nan => .nan
  | .inf _ => .inf false
  | .fin _ m e => .fin false m e

def isNan (x : FNum) : Bool := match x with | .nan => true | _ => false
def isFinite (x : FNum) : Bool := match x with | .fin _ _ _ => true | _ => false
def isZero (x : FNum) : Bool := match x with | .fin _ m _ => m == 0 | _ => false

/-- FP32 operations with their flags. -/
def add32 (x y : FNum) : FNum × Flags := rnd32 (numAdd x y)
def mul32 (x y : FNum) : FNum × Flags := rnd32 (numMul x y)

/-- Range bounds of the saturating targets (02 R52): greatest and least value. -/
def satBounds (f : Nat) : FNum × FNum :=
  match f with
  | 4 => (.fin false 448 0, .fin true 448 0)
  | 7 => (.fin false 6 0, .fin true 6 0)
  | 8 => (.fin false 127 0, .fin true 128 0)
  | _ => (.fin false 7 0, .fin true 8 0)

/-- Whether a target saturates (02 R52). -/
def saturates (f : Nat) : Bool := f == 4 || f == 7 || f == 8 || f == 9

/-- The code of an integer. -/
def intCode (f : Nat) (x : FNum) : Nat :=
  match x with
  | .fin n m e =>
    let v := roundShift m e
    if n then (2 ^ fmtBits f - v) % 2 ^ fmtBits f else v
  | _ => 0

/-- The code of a value on the grid of any output format. -/
def encodeAny (f : Nat) (x : FNum) : Nat := if isFloat f then encodeFloat f x else intCode f x

/-- NaN into a target (02 R52). -/
def nanInto (f : Nat) : Nat × Flags :=
  if f == 7 || f == 8 || f == 9 then (0, fNan ||| fNanZero) else (encodeFloat f .nan, fNan)

/-- Conversion of an FP32 value into an output format (02 R51 to R54): code and flags. -/
def convert (f : Nat) (x : FNum) : Nat × Flags :=
  match x with
  | .nan => nanInto f
  | .inf n =>
    if saturates f then (encodeAny f (if n then (satBounds f).2 else (satBounds f).1), fOvf)
    else (encodeFloat f (.inf n), 0)
  | .fin n m e =>
    if saturates f then
      let (hi, lo) := satBounds f
      if numLt hi x then (encodeAny f hi, fOvf)
      else if numLt x lo then (encodeAny f lo, fOvf)
      else if isFloat f then (encodeFloat f (roundGrid f n m e), 0)
      else (intCode f x, 0)
    else
      match roundGrid f n m e with
      | .fin n' m' e' =>
        let (mm, me) := maxFinite f
        if magLt mm me m' e' then (encodeFloat f (.inf n'), fOvf) else (encodeFloat f (.fin n' m' e'), 0)
      | y => (encodeFloat f y, 0)

/-- The 16-bit draw of stochastic rounding (02 R68, R69). -/
def stochDraw (seed layer op i : Nat) : Nat :=
  let w : BitVec 64 := BitVec.ofNat 64 seed ^^^ (BitVec.ofNat 64 (layer % 2 ^ 16) <<< 48)
    ^^^ (BitVec.ofNat 64 (op % 2 ^ 16) <<< 32)
  let z := w + BitVec.ofNat 64 (i + 1) * 0x9E3779B97F4A7C15#64
  let z := (z ^^^ (z >>> 30)) * 0xBF58476D1CE4E5B9#64
  let z := (z ^^^ (z >>> 27)) * 0x94D049BB133111EB#64
  let z := z ^^^ (z >>> 31)
  z.toNat % 2 ^ 16

/-- Stochastic conversion (02 R66, R67) with the draw `r`. -/
def convertStoch (f r : Nat) (x : FNum) : Nat × Flags :=
  match x with
  | .fin n m e =>
    let bound : FNum :=
      if saturates f then (if n then (satBounds f).2 else (satBounds f).1)
      else let (mm, me) := maxFinite f; .fin n mm me
    let past : Bool :=
      match bound with
      | .fin _ bm be => magLt bm be m e
      | _ => false
    if m = 0 then (encodeAny f (.fin (if isFloat f then n else false) 0 0), 0)
    else if past then (encodeAny f bound, fOvf)
    else
      let q : Int := if isFloat f then gridExp f m e else 0
      let s := e - q
      let whole := if 0 ≤ s then m <<< s.toNat else m >>> (-s).toNat
      let d := if 0 ≤ s then 0
        else
          let k := (-s).toNat
          let rem := m % 2 ^ k
          if k ≤ 16 then rem <<< (16 - k) else rem >>> (k - 16)
      let w := if d + r ≥ 65536 then whole + 1 else whole
      let passed : Bool :=
        match bound with
        | .fin _ bm be => magLt bm be w q
        | _ => false
      (encodeAny f (if passed then bound else .fin n w q), 0)
  | _ => convert f x

/-! ### Exact quotients and roots, rounded once -/

/-- `a / b` for finite operands with `b` non-zero: sixty-four guard bits and a sticky bit stand for the exact quotient. -/
def quoExact (a b : FNum) : FNum :=
  match a, b with
  | .fin s m e, .fin t n d =>
    if m = 0 then .fin (s != t) 0 0
    else
      let k := 128 + Nat.log2 n
      let q := (m <<< k) / n
      let st := if (m <<< k) % n = 0 then 0 else 1
      .fin (s != t) (2 * q + st) (e - d - k - 1)
  | _, _ => .nan

/-- `a / b` rounded once to the grid of a float format. -/
def quoRound (f : Nat) (a b : FNum) : FNum :=
  match quoExact a b with
  | .fin s m e => roundGrid f s m e
  | y => y

/-- One unit in the last place of an FP32 value. -/
def ulp32 (x : FNum) : FNum :=
  match x with
  | .fin _ m e => .fin false 1 (if m = 0 then -149 else gridExp 0 m e)
  | y => y

/-- The greater of two bounds. -/
def numMax (x y : FNum) : FNum := if numLt x y then y else x

/-- A result within a bound of the exact value `v` (02 R60): the value correctly rounded to FP32 gives the bound, and any finite FP32
value that lies within it, as an opaque function of the operation and its operands chooses (log 10), may take its place. -/
def freeNear (op a b : Nat) (v : FNum) (bound : FNum → FNum) : FNum × Flags :=
  let (q, fl) := rnd32 v
  let c := num32 (Config.vecError op a b % 2 ^ 32)
  if isFinite q && isFinite c && !numLt (bound q) (numAbs (numAdd c (numNeg v))) then (c, fl) else (q, fl)

/-- A bound in units of the last place of the correctly rounded result. -/
def ulps (n : Nat) (q : FNum) : FNum := numMul (numOfInt n) (ulp32 q)

/-- Operand and result classes of a divide: IEEE specials, else within 1 ulp (02 R60). -/
def div32 (x y : FNum) : FNum × Flags :=
  match x, y with
  | .nan, _ => (.nan, fNan)
  | _, .nan => (.nan, fNan)
  | .inf _, .inf _ => (.nan, fNan)
  | .inf a, .fin b _ _ => (.inf (a != b), 0)
  | .fin a _ _, .inf b => (.fin (a != b) 0 0, 0)
  | .fin a m _, .fin b n _ =>
    if n = 0 then (if m = 0 then (.nan, fNan) else (.inf (a != b), 0))
    else if m = 0 then (.fin (a != b) 0 0, 0)
    else freeNear 1 (bits32 x) (bits32 y) (quoExact x y) (ulps 1)

/-- Division correctly rounded, as QUANT divides an element by its scale (02 R65). -/
def divExact32 (x y : FNum) : FNum × Flags :=
  match x, y with
  | .fin _ _ _, .fin b n _ =>
    if n = 0 then (if isZero x then (.nan, fNan) else (.inf b, 0)) else rnd32 (quoRound 0 x y)
  | _, _ => (.nan, fNan)

/-- 1 / sqrt x within 1 ulp. -/
def rsqrt32 (x : FNum) : FNum × Flags :=
  match x with
  | .nan => (.nan, fNan)
  | .inf n => if n then (.nan, fNan) else (.fin false 0 0, 0)
  | .fin n m e =>
    if m = 0 then (.inf n, 0)
    else if n then (.nan, fNan)
    else
      let e2 := e - 200
      let (mm, ee) : Nat × Int := if e2 % 2 = 0 then (m <<< 200, e2) else (m <<< 201, e2 - 1)
      let r := Nat.sqrt mm
      freeNear 2 (bits32 x) 0 (quoExact (.fin false 1 0) (.fin false r (ee / 2))) (ulps 1)

/-! ### Transcendental functions: fixed point with 192 fraction bits, then the free error of the bound -/

def fxP : Nat := 192
def fxOne : Int := 2 ^ fxP
def fxMul (a b : Int) : Int := (a * b) / fxOne
def fxDiv (a b : Int) : Int := (a * fxOne) / b

/-- A finite value in fixed point. -/
def fxOf (x : FNum) : Int :=
  match x with
  | .fin n m e =>
    let s := e + (fxP : Int)
    let v : Nat := if 0 ≤ s then m <<< s.toNat else m >>> (-s).toNat
    if n then -(v : Int) else v
  | _ => 0

def numOfFx (a : Int) : FNum := .fin (decide (a < 0)) a.natAbs (-(fxP : Int))

/-- Sum of `n` terms, the next from the last by `step i t`. -/
def fxSeries (step : Nat → Int → Int) : Nat → Nat → Int → Int → Int
  | 0, _, _, acc => acc
  | n + 1, i, t, acc => fxSeries step n (i + 1) (step i t) (acc + t)

/-- atanh (1 / k) and arctan (1 / k). -/
def fxAtInv (alt : Bool) (k : Nat) : Nat → Nat → Int → Int → Int
  | 0, _, _, acc => acc
  | n + 1, i, t, acc =>
    let term := t / (2 * i + 1 : Int)
    fxAtInv alt k n (i + 1) (t / (k * k : Int)) (if alt && i % 2 == 1 then acc - term else acc + term)

def fxLn2 : Int := 2 * fxAtInv false 3 140 0 (fxOne / 3) 0
def fxPi : Int := 16 * fxAtInv true 5 160 0 (fxOne / 5) 0 - 4 * fxAtInv true 239 60 0 (fxOne / 239) 0

/-- exp of a fixed-point argument, as a value. -/
def fxExp (x : Int) : Int × Int :=
  let k := x / fxLn2
  let r := x - k * fxLn2
  (fxSeries (fun i t => fxMul t r / (i + 1 : Int)) 64 0 fxOne 0, k)

/-- exp of a fixed-point argument in fixed point (arguments below 2^7). -/
def fxExpFx (x : Int) : Int :=
  let (m, k) := fxExp x
  if 0 ≤ k then m * 2 ^ k.toNat else m / 2 ^ (-k).toNat

/-- Natural logarithm of a positive value. -/
def fxLn (m : Nat) (e : Int) : Int :=
  let t := Nat.log2 m
  let y : Int := if t ≤ fxP then (m <<< (fxP - t) : Nat) else (m >>> (t - fxP) : Nat)
  let z := fxDiv (y - fxOne) (y + fxOne)
  let z2 := fxMul z z
  let rec go : Nat → Nat → Int → Int → Int
    | 0, _, _, acc => acc
    | n + 1, i, p, acc => go n (i + 1) (fxMul p z2) (acc + p / (2 * i + 1 : Int))
  2 * go 130 0 z 0 + ((t : Int) + e) * fxLn2

def fxSigmoid (x : Int) : Int :=
  if 0 ≤ x then fxDiv fxOne (fxOne + fxExpFx (-x))
  else let t := fxExpFx x; fxDiv t (fxOne + t)

def fxTanh (x : Int) : Int := 2 * fxSigmoid (2 * x) - fxOne

/-- erf for arguments below 7 in magnitude. -/
def fxErf (x : Int) : Int :=
  let x2 := fxMul x x
  let rec go : Nat → Nat → Int → Int → Int
    | 0, _, _, acc => acc
    | n + 1, i, p, acc => go n (i + 1) (-(fxMul p x2) / (i + 1 : Int)) (acc + p / (2 * i + 1 : Int))
  let s := go 260 0 x 0
  fxDiv (2 * s) (Nat.sqrt (fxPi.toNat * 2 ^ fxP) : Int)

/-- sin and cos of a fixed-point angle, reduced modulo 2 pi. -/
def fxSinCos (a : Int) : Int × Int :=
  let r := a % (2 * fxPi)
  let r2 := fxMul r r
  let cos := fxSeries (fun i t => -(fxMul t r2) / ((2 * i + 1) * (2 * i + 2) : Int)) 60 0 fxOne 0
  let sin := fxSeries (fun i t => -(fxMul t r2) / ((2 * i + 2) * (2 * i + 3) : Int)) 60 0 r 0
  (sin, cos)

/-- exp within 2 ulp; exp of -infinity is +0 (02 R60, R62). -/
def exp32 (x : FNum) : FNum × Flags :=
  match x with
  | .nan => (.nan, fNan)
  | .inf n => if n then (numZero, 0) else (.inf false, 0)
  | .fin n m e =>
    if m = 0 then (.fin false 1 0, 0)
    else if topExp m e ≥ 8 then (if n then freeNear 3 (bits32 x) 0 numZero (ulps 2) else (.inf false, fOvf))
    else
      let (v, k) := fxExp (fxOf x)
      freeNear 3 (bits32 x) 0 (.fin false v.toNat (k - (fxP : Int))) (ulps 2)

/-- A result within the larger of 4 ulp and 2^-23 (02 R60). -/
def withAbs (op : Nat) (x : FNum) (v : FNum) : FNum × Flags :=
  freeNear op (bits32 x) 0 v fun q => numMax (ulps 4 q) (.fin false 1 (-23))

/-- Whether a magnitude is at least 2^k. -/
def big (k : Int) (x : FNum) : Bool := match x with | .fin _ m e => m != 0 && topExp m e ≥ k | _ => false

def sign32 (x : FNum) : Bool := match x with | .fin n _ _ => n | .inf n => n | .nan => false

def sigmoid32 (x : FNum) : FNum × Flags :=
  match x with
  | .nan => (.nan, fNan)
  | .inf n => (if n then numZero else .fin false 1 0, 0)
  | _ => if big 7 x then withAbs 4 x (if sign32 x then numZero else .fin false 1 0)
         else withAbs 4 x (numOfFx (fxSigmoid (fxOf x)))

/-- A value that the spec does not state: SiLU and GELU at -infinity (02 R60, R62; log 10). -/
def unstated (op : Nat) (x : FNum) : FNum × Flags :=
  let y := num32 (Config.vecError op (bits32 x) (bits32 x) % 2 ^ 32)
  (y, if isNan y then fNan else 0)

def silu32 (x : FNum) : FNum × Flags :=
  match x with
  | .nan => (.nan, fNan)
  | .inf n => if n then unstated 5 x else (.inf false, 0)
  | _ => if big 7 x then withAbs 5 x (if sign32 x then .fin true 0 0 else x)
         else withAbs 5 x (numMul x (numOfFx (fxSigmoid (fxOf x))))

def geluTanh32 (x : FNum) : FNum × Flags :=
  match x with
  | .nan => (.nan, fNan)
  | .inf n => if n then unstated 6 x else (.inf false, 0)
  | _ =>
    if big 4 x then withAbs 6 x (if sign32 x then .fin true 0 0 else x)
    else
      let a := fxOf x
      let c : Int := (Nat.sqrt ((2 * fxOne.toNat * 2 ^ fxP * 2 ^ fxP) / fxPi.toNat) : Nat)
      let inner := fxMul c (a + (fxMul (fxMul a a) a * 44715) / 1000000)
      withAbs 6 x (numMul x (numOfFx ((fxOne + fxTanh inner) / 2)))

def geluErf32 (x : FNum) : FNum × Flags :=
  match x with
  | .nan => (.nan, fNan)
  | .inf n => if n then unstated 7 x else (.inf false, 0)
  | _ =>
    if big 3 x then withAbs 7 x (if sign32 x then .fin true 0 0 else x)
    else
      let r2 : Int := (Nat.sqrt (2 * 2 ^ fxP * 2 ^ fxP) : Nat)
      withAbs 7 x (numMul x (numOfFx ((fxOne + fxErf (fxDiv (fxOf x) r2)) / 2)))

/-- base^(-2j/D) in FP32 with an error of at most 2 ulp (03 R610), with its flags; a base that is not positive and finite gives a
free value (log 10). -/
def ropeFreq (base : FNum) (j d : Nat) : FNum × Flags :=
  let free (k : Nat) : FNum × Flags :=
    let y := num32 (Config.vecError 8 k j % 2 ^ 32)
    (y, if isNan y then fNan else 0)
  match base with
  | .fin false m e =>
    if m = 0 then free 0
    else
      let x := -(fxLn m e * (2 * j : Int)) / (d : Int)
      let (v, k) := fxExp x
      freeNear 8 (bits32 base) (j + 65536 * d) (.fin false v.toNat (k - (fxP : Int))) (ulps 2)
  | _ => free (bits32 base)

/-- An exact value kept to a 48-bit significand (02 R61). -/
def keep48 (x : FNum) : FNum :=
  match x with
  | .fin n m e =>
    let t := Nat.log2 m
    if t ≤ 47 then x else .fin n (roundShift m (-((t - 47 : Nat) : Int))) (e + ((t - 47 : Nat) : Int))
  | y => y

/-- sin and cos of a rotary angle, each within 2^-21 (02 R60, R61). The spec states no bound for an angle of 2^24 or more; the
model keeps 2^-21 there (DESIGN CHOICE, log 97). -/
def ropeSinCos (pos : Nat) (freq : FNum) : (FNum × FNum) × Flags :=
  match freq with
  | .fin _ _ _ =>
    let (s, c) := fxSinCos (fxOf (keep48 (numMul (.fin false pos 0) freq)))
    let near (op : Nat) (v : Int) : FNum × Flags := freeNear op (bits32 freq) pos (numOfFx v) fun _ => .fin false 1 (-21)
    let (sn, f0) := near 9 s
    let (cs, f1) := near 10 c
    ((sn, cs), f0 ||| f1)
  | _ => ((.nan, .nan), fNan)

/-- A list in an order that a free key chooses (02 R58): insertion by `Config.sumKey`. -/
def freeInsert (draw : Nat) (p : Nat × FNum) : List (Nat × FNum) → List (Nat × FNum)
  | [] => [p]
  | q :: qs => if Config.sumKey draw p.1 < Config.sumKey draw q.1 then p :: q :: qs else q :: freeInsert draw p qs

def freeOrder (draw : Nat) (xs : List FNum) : List FNum :=
  ((xs.zipIdx.map fun p => (p.2, p.1)).foldl (fun acc p => freeInsert draw p acc) []).map (·.2)

/-- A sum rounded at each addition, in a free order. -/
def freeSum (draw : Nat) (xs : List FNum) : FNum × Flags :=
  (freeOrder draw xs).foldl (fun a x => let (v, fl) := add32 a.1 x; (v, a.2 ||| fl)) (numZero, 0)

/-- INT32 accumulation with saturation at each addition (02 R57), in the order given. -/
def satAdd (a b : Int) : Int × Flags :=
  let s := a + b
  if s > 2 ^ 31 - 1 then (2 ^ 31 - 1, fIntOvf) else if s < -(2 ^ 31) then (-(2 ^ 31), fIntOvf) else (s, 0)

end Sys2Proof.Machine
end

