-- ==== Sys2Proof/Machine/Image.lean ====
section
/-! DEFINITION. Model images: the header, the shard map, the tile directory, the table section and the layer section,
with every structural check of MODEL_LOAD (03 R75-R83, R604-R611). -/
namespace Sys2Proof.Machine
open Sys2Proof

/-! ### The header (R75) -/

/-- The header of a model image. -/
structure ImgHdr where
  layers : Nat
  tiles : Nat
  tables : Nat
  maxSeq : Nat
  maxCtx : Nat
  kvHeads : Nat
  headDim : Nat
  kvFmt : Nat
  kvSplit : Nat
  kvStrength : Nat
  qPerKv : Nat
  tensors : Nat
  layerOff : Nat
  layerEnd : Nat
  dirOff : Nat
  mapOff : Nat
  tabOff : Nat
  dataOff : Nat
  hidden : Nat
  deriving DecidableEq, Repr

/-- A range test. -/
def within (x lo hi : Nat) : Bool := lo ≤ x && x ≤ hi

/-- All bytes of a field are 0. -/
def zeros (b : Bytes) (off n : Nat) : Bool := (slice b off n).all (· == 0)

/-- The sections of an image, each as (start, end). -/
def imgSections (h : ImgHdr) : List (Nat × Nat) :=
  [(0, 256), (h.dirOff, h.dirOff + 24 * h.tiles), (h.mapOff, h.mapOff + 16 * h.tensors),
   (h.tabOff, h.tabOff + 4096 * h.tables), (h.layerOff, h.layerEnd)].filter fun x => x.1 < x.2

/-- Two intervals share no byte. -/
def apart (a b : Nat × Nat) : Bool := a.2 ≤ b.1 || b.2 ≤ a.1

def pairwiseApart : List (Nat × Nat) → Bool
  | [] => true
  | a :: l => l.all (apart a) && pairwiseApart l

/-- Where the layer section ends: at the lowest other section above it, or at the end of the image (R75). -/
def layerEndOf (img : Bytes) (off : Nat) : Nat :=
  let others := [fld img 56 8, fld img 64 8, fld img 80 8] ++ (if fld img 24 2 = 0 then [] else [fld img 72 8])
  (others.filter fun x => off < x).foldl min img.length

/-- The header as its fields stand. -/
def readImgHdr (img : Bytes) : ImgHdr :=
  { layers := fld img 16 4, tiles := fld img 20 4, tables := fld img 24 2, maxSeq := fld img 26 2, maxCtx := fld img 28 4,
    kvHeads := fld img 32 2, headDim := fld img 34 2, kvFmt := fld img 36 1, kvSplit := fld img 37 1, kvStrength := fld img 38 1,
    qPerKv := fld img 39 1, tensors := fld img 40 4, layerOff := fld img 48 8, layerEnd := layerEndOf img (fld img 48 8),
    dirOff := fld img 56 8, mapOff := fld img 64 8, tabOff := fld img 72 8, dataOff := fld img 80 8, hidden := fld img 88 4 }

/-- The header's fields are in range, its sections lie apart in the image, and its CRC matches (R75). A HIDDEN of 0 is refused
(DESIGN CHOICE, log 98). -/
def imgHdrOk (slices : Nat) (img : Bytes) : Bool :=
  let h := readImgHdr img
  256 ≤ img.length && fld img 0 4 == 0x4D494D50 && fld img 4 2 == 1 && fld img 6 2 == slices && fld img 8 8 == img.length &&
  within h.layers 1 4096 && h.tables ≤ 32 && within h.maxSeq 1 (16 * slices) && within h.maxCtx 16 1048576 && h.maxCtx % 16 == 0 &&
  within h.kvHeads 1 256 && [64, 128, 256].contains h.headDim && [1, 2, 3, 4].contains h.kvFmt && h.kvSplit ≤ 1 &&
  h.kvStrength ≤ 7 && within h.qPerKv 1 32 && within h.tensors 1 262144 && zeros img 44 4 && (h.tables != 0 || h.tabOff == 0) &&
  h.dataOff % 256 == 0 && h.hidden % 128 == 0 && h.hidden != 0 && zeros img 92 160 &&
  crc32c (img.take 252 ++ [0, 0, 0, 0] ++ img.drop 256) == fld img 252 4 &&
  h.layerOff + 128 * h.layers ≤ h.layerEnd && (imgSections h).all (fun x => x.2 ≤ img.length) && pairwiseApart (imgSections h)

/-! ### Tensors and tiles (R76, R77, R609) -/

def readTensor (img : Bytes) (h : ImgHdr) (i : Nat) : Tensor :=
  let o := h.mapOff + 16 * i
  { layer := fld img o 2, tensor := fld img (o + 2) 2, fmt := fld img (o + 4) 1 % 16, scale := fld img (o + 4) 1 / 16,
    shard := fld img (o + 5) 1, nBlocks := fld img (o + 6) 2, kBlocks := fld img (o + 8) 2, experts := fld img (o + 10) 2,
    mask := fld img (o + 12) 1 }

def tensorOk (slices : Nat) (img : Bytes) (h : ImgHdr) (i : Nat) : Bool :=
  let t := readTensor img h i
  t.layer < h.layers && t.tensor < 64 && (tileLogical t.fmt t.scale).isSome && t.shard ≤ 4 && 1 ≤ t.nBlocks && 1 ≤ t.kBlocks &&
  (if t.shard = 3 then within t.experts 1 1024 else t.experts == 1) && 0 < t.mask && t.mask < 2 ^ slices &&
  zeros img (h.mapOff + 16 * i + 13) 3

/-- Layer and tensor number ascend, and no pair appears twice. -/
def tensorsRise : List Tensor → Bool
  | a :: b :: l => (a.layer < b.layer || (a.layer == b.layer && a.tensor < b.tensor)) && tensorsRise (b :: l)
  | _ => true

/-- One entry of the tile directory. -/
structure TileDir where
  layer : Nat
  tensor : Nat
  expert : Nat
  n : Nat
  k : Nat
  slice : Nat
  place : Nat
  sectors : Nat
  off : Nat
  deriving DecidableEq, Repr

def readTileDir (img : Bytes) (h : ImgHdr) (i : Nat) : TileDir :=
  let o := h.dirOff + 24 * i
  { layer := fld img o 2, tensor := fld img (o + 2) 2, expert := fld img (o + 4) 2, n := fld img (o + 6) 2, k := fld img (o + 8) 2,
    slice := fld img (o + 10) 1, place := fld img (o + 11) 1, sectors := fld img (o + 12) 2, off := fld img (o + 16) 8 }

/-- The tensor of a number in a layer. -/
def findTensor (l : List Tensor) (layer tensor : Nat) : Option Tensor :=
  l.find? fun t => t.layer == layer && t.tensor == tensor

/-- The block header of a tile agrees with its entry and tensor (05 R162). -/
def tileHdrOk (tables strength sectors : Nat) (t : Tensor) (b : Block) : Bool :=
  !malformed b && b.kind == 3 && b.strength == strength && b.sectors == sectors && tileLogical t.fmt t.scale == some b.logical &&
  (!b.typed || b.fmt == t.fmt) && (b.coder != 2 || (b.slot < tables && b.gen == 0))

/-- An entry of the tile directory, without its shard (R75, R77, 05 R162). -/
def tileDirOk (img : Bytes) (h : ImgHdr) (ts : List Tensor) (i : Nat) : Bool :=
  let d := readTileDir img h i
  let e := (d.off, d.off + d.sectors * 256)
  match findTensor ts d.layer d.tensor with
  | none => false
  | some t =>
    (if t.shard = 3 then d.expert < t.experts else d.expert == 0xFFFF) && d.n < t.nBlocks && d.k < t.kBlocks &&
    bit t.mask d.slice && d.place < 64 && 0 < d.sectors && d.off % 256 == 0 && zeros img (h.dirOff + 24 * i + 14) 2 &&
    h.dataOff ≤ d.off && e.2 ≤ img.length && (imgSections h).all (apart e) &&
    (match parseBlock (slice img d.off (d.sectors * 256)) with
    | none => false
    | some b => tileHdrOk h.tables (bits d.place 5 3) d.sectors t b)

/-- The slice of KV head `k` under KV_SPLIT HEAD (R75). -/
def kvHome (slices k : Nat) : Nat := k % slices

/-- KV heads whose channels an n-block of a HEAD tensor holds, none where the tensor is not of a size that R609 admits. -/
def headsOfBlock (h : ImgHdr) (t : Tensor) (n : Nat) : Option (List Nat) :=
  let w := if t.nBlocks * 128 = h.kvHeads * h.headDim then some h.headDim
    else if t.nBlocks * 128 = h.kvHeads * h.qPerKv * h.headDim then some (h.headDim * h.qPerKv) else none
  w.map fun w => ((List.range 128).map fun c => (128 * n + c) / w).eraseDups

/-- Tiles of one slice take a contiguous range of blocks. -/
def contiguous (l : List (Nat × Nat)) : Bool :=
  l.all fun a => l.all fun b => l.all fun c => !(a.2 == b.2 && a.1 ≤ c.1 && c.1 ≤ b.1) || c.2 == a.2

/-- Equal blocks lie on equal slices. -/
def oneSlice (l : List (Nat × Nat)) : Bool := l.all fun a => l.all fun b => a.1 != b.1 || a.2 == b.2

/-- The tiles of a tensor keep its shard kind, and every position has exactly one tile per slice that needs it (R76, R77,
R609). -/
def shardOk (slices : Nat) (h : ImgHdr) (t : Tensor) (l : List TileDir) : Bool :=
  let rep := t.shard == 0
  let keys := l.map fun d => (d.expert, d.n, d.k, if rep then d.slice else 0)
  let count := (if t.shard = 3 then t.experts else 1) * t.nBlocks * t.kBlocks *
    (if rep then ((List.range 8).filter (bit t.mask)).length else 1)
  keys.length == count && keys.eraseDups.length == count &&
  (match t.shard with
  | 1 => oneSlice (l.map fun d => (d.n, d.slice)) && contiguous (l.map fun d => (d.n, d.slice))
  | 2 => oneSlice (l.map fun d => (d.k, d.slice)) && contiguous (l.map fun d => (d.k, d.slice))
  | 3 => oneSlice (l.map fun d => (d.expert, d.slice))
  | 4 => h.kvSplit == 0 && l.all fun d => match headsOfBlock h t d.n with
    | none => false
    | some hs => hs.all fun k => kvHome slices k == d.slice
  | _ => true)

/-! ### Ops (R82-R84, R604-R605, R610) -/

def readOp (img : Bytes) (o : Nat) : OpDesc :=
  let b1 := fld img (o + 1) 1
  let b2 := fld img (o + 2) 1
  let b4 := fld img (o + 4) 1
  { opcode := fld img o 1, stochastic := bit b1 0, routed := bit b1 1, combine := bit b1 2, fmt0 := b2 % 16, fmt1 := b2 / 16,
    dfmt := fld img (o + 3) 1 % 16, scale0 := b4 % 8, scale1 := b4 / 8 % 8, dscale := fld img (o + 5) 1 % 8, sub := fld img (o + 6) 2,
    src0 := fld img (o + 8) 4, src1 := fld img (o + 12) 4, dst := fld img (o + 16) 4, length := fld img (o + 20) 4,
    param0 := fld img (o + 24) 4, param1 := fld img (o + 28) 4 }

/-- Space and index of an operand reference (R83). -/
def refSpace (r : Nat) : Nat := r / 2 ^ 28
def refIdx (r : Nat) : Nat := r % 2 ^ 28

/-- Formats of sources and outputs, and of a MATMUL's activation (02 R34). -/
def sourceFmt (f : Nat) : Bool := [0, 1, 2, 3, 4, 7, 8, 9].contains f
def actFmt (f : Nat) : Bool := f != 0 && sourceFmt f

/-- Scale modes of a source that is not a TENSOR (02 R46). -/
def sourceScale (f m : Nat) : Bool := m == 0 || (m ≤ 3 && [3, 4, 7, 8, 9].contains f)

/-- Bytes of `n` elements of a format. -/
def elemBytes (f n : Nat) : Nat :=
  match f with
  | 0 => 4 * n
  | 1 => 2 * n
  | 2 => 2 * n
  | 7 => (n + 1) / 2
  | 9 => (n + 1) / 2
  | _ => n

/-- Elements of a scale group; 0 where there are no groups (02 R44). -/
def groupSize (mode : Nat) : Nat := match mode with | 1 => 32 | 2 => 16 | 3 => 16 | _ => 0

/-- Group scales of a row of `n` elements. -/
def groupCount (mode n : Nat) : Nat := if groupSize mode = 0 then 0 else (n + groupSize mode - 1) / groupSize mode

/-- Bytes of a row of a SCRATCH buffer (R606). -/
def rowLen (f mode n : Nat) : Nat := elemBytes f n + groupCount mode n

/-- A source operand: its space is one of `sp`, and its index, format and scale mode are admitted there. -/
def srcOk (sp : List Nat) (r f m len vec inRec : Nat) : Bool :=
  sp.contains (refSpace r) &&
  match refSpace r with
  | 1 => refIdx r ≤ 15 && rowLen f m len ≤ 65536
  | 2 => refIdx r == 0 && f == 0 && m == 0
  | 4 => refIdx r ≤ 3
  | 5 => m == 0 && 64 * refIdx r + elemBytes f len ≤ inRec
  | 7 => f == 0 && m == 0 && 64 * refIdx r + 4 * len ≤ vec
  | _ => false

/-- A destination operand. -/
def dstOk (sp : List Nat) (r f len outRec : Nat) : Bool :=
  sp.contains (refSpace r) &&
  match refSpace r with
  | 1 => refIdx r ≤ 15
  | 2 => refIdx r == 0 && f == 0
  | 6 => 64 * refIdx r + elemBytes f len ≤ outRec
  | _ => false

/-- Every format and scale field of an op names what its role admits (02 R34, R44, R46, R82), a field of an operand that the op does
not use among them; a TENSOR operand carries its tensor's. -/
def fieldsOk (p : OpDesc) : Bool :=
  sourceFmt p.fmt0 && sourceScale p.fmt0 p.scale0 && sourceFmt p.dfmt &&
  (if p.opcode = 1 then p.fmt1 ≤ 10 && p.scale1 ≤ 4 else sourceFmt p.fmt1 && sourceScale p.fmt1 p.scale1) &&
  (p.dscale == 0 || (p.opcode == 10 && sourceScale p.dfmt p.dscale))

/-- An op whose reserved bits are 0 and whose operands and parameters R82 to R84, R604, R605 and R610 allow. `ts` are the
tensors of its layer and `ops` the layer's ops. -/
def opOk (img : Bytes) (o : Nat) (h : ImgHdr) (ts : List Tensor) (ops : List OpDesc) (vec inRec outRec : Nat) : Bool :=
  let p := readOp img o
  let n := p.length
  let src0 (sp : List Nat) : Bool := srcOk sp p.src0 p.fmt0 p.scale0 n vec inRec
  let src1 (sp : List Nat) : Bool := srcOk sp p.src1 p.fmt1 p.scale1 n vec inRec
  let dst (sp : List Nat) : Bool := dstOk sp p.dst p.dfmt n outRec
  fld img (o + 1) 1 < 8 && fld img (o + 3) 1 < 16 && fld img (o + 4) 1 < 64 && fld img (o + 5) 1 < 8 &&
  fieldsOk p && (!p.stochastic || p.opcode == 10) && (!p.routed || p.opcode == 1) && (!p.combine || p.routed) &&
  match p.opcode with
  | 1 =>
    p.sub == 0 && n == 0 && src0 [1] && actFmt p.fmt0 && dst [1] && refSpace p.src1 == 0 &&
    (match ts.find? fun t => t.tensor == refIdx p.src1 with
    | none => false
    | some t => t.fmt == p.fmt1 && t.scale == p.scale1 && p.routed == (t.shard == 3)) && (!p.routed || p.param0 ≤ 3)
  | 2 => p.sub == 0 && n == 0 && src0 [1] && src1 [1] && refIdx p.src1 ≤ 14 && dst [1]
  | 3 => p.sub ≤ 1 && src0 [1, 2] && src1 [7] && dst [1, 2] && n ≤ h.hidden
  | 4 => p.sub ≤ 6 && src0 [1] && dst [1] && (if 5 ≤ p.sub then src1 [1] else p.src1 == 0)
  | 5 =>
    p.sub ≤ 1 && src0 [1] && p.src1 == 0 && p.dst == p.src0 && n % h.headDim == 0 && p.param1 % 2 == 0 &&
    within p.param1 2 h.headDim
  | 6 =>
    p.sub ≤ 2 && src0 [1] && p.src1 == 0 && refSpace p.dst == 4 && refIdx p.dst ≤ 3 && within p.param0 1 16 &&
    (ops.all fun q => !(q.opcode == 1 && q.routed && q.param0 == refIdx p.dst) ||
      match ts.find? fun t => t.tensor == refIdx q.src1 with
      | none => true
      | some t => p.param1 ≤ t.experts)
  | 7 =>
    if p.sub = 2 then src0 [5] && p.src1 == 0 && dst [1, 2] else p.sub ≤ 1 && src0 [1] && p.src1 == 0 && dst [1]
  | 8 => p.sub ≤ 1 && src0 [1, 4] && p.src1 == 0 && (p.dst == p.src0 || p.dst == 0)
  | 9 => p.sub == 0 && src0 [1, 2] && src1 [1, 2, 7] && dst [1, 2]
  | 10 =>
    p.sub == 0 && src0 [1, 2] && p.src1 == 0 && dst [1]
  | 11 => p.sub == 0 && src0 [1, 2] && p.src1 == 0 && dst [6]
  | _ => false

/-! ### Layers (R81, R611) -/

def readLayer (img : Bytes) (h : ImgHdr) (i : Nat) : Layer :=
  let o := h.layerOff + 128 * i
  let ops := (List.range (fld img (o + 2) 2)).map fun j => readOp img (h.layerOff + fld img (o + 4) 4 + 32 * j)
  { ops := ops, attn := fld img (o + 8) 2, ffn := fld img (o + 10) 2, post := fld img (o + 12) 2, inRec := fld img (o + 16) 4,
    outRec := fld img (o + 20) 4, vecs := slice img (h.layerOff + fld img (o + 24) 4) (fld img (o + 28) 4),
    t0Work := (List.range 8).map fun s => fld img (o + 32 + 4 * s) 4, t0Pre := (List.range 8).map fun s => fld img (o + 64 + 4 * s) 4 }

/-- Marks that are present rise (R611). -/
def marksRise : List Nat → Bool
  | a :: b :: l => a < b && marksRise (b :: l)
  | _ => true

def layerOk (slices : Nat) (img : Bytes) (h : ImgHdr) (ts : List Tensor) (i : Nat) : Bool :=
  let o := h.layerOff + 128 * i
  let sec := h.layerEnd - h.layerOff
  let cnt := fld img (o + 2) 2
  let opOff := fld img (o + 4) 4
  let vecOff := fld img (o + 24) 4
  let vec := fld img (o + 28) 4
  fld img o 2 == i && within cnt 1 256 && opOff % 32 == 0 && 128 * h.layers ≤ opOff && opOff + 32 * cnt ≤ sec &&
  vecOff % 4 == 0 && vec % 4 == 0 && 128 * h.layers ≤ vecOff && vecOff + vec ≤ sec && zeros img (o + 14) 2 && zeros img (o + 96) 32 &&
  (let l := readLayer img h i
   let marks := [l.attn, l.ffn, l.post].filter (· != 0xFFFF)
   let mine := ts.filter fun t => t.layer == i
   l.inRec % 64 == 0 && l.outRec % 64 == 0 && marks.all (· < cnt) && marksRise marks &&
   (l.t0Work.drop slices).all (· == 0) && (l.t0Pre.drop slices).all (· == 0) &&
   (List.range cnt).all fun j => opOk img (h.layerOff + opOff + 32 * j) h mine l.ops vec l.inRec l.outRec)

/-! ### The size of SCRATCH buffers (R83, R606) -/

/-- Elements of a row that an op writes. -/
def outLen (h : ImgHdr) (ts : List Tensor) (p : OpDesc) : Nat :=
  match p.opcode with
  | 1 => ((ts.find? fun t => t.tensor == refIdx p.src1).map fun t => t.nBlocks * 128).getD 0
  | 2 => h.kvHeads * h.qPerKv * h.headDim
  | _ => p.length

/-- Rows that an op writes, with the rows that each buffer holds: a ROUTED MATMUL one for each expert that a ROUTE into its table
selects, an op that maps rows as many as its source. -/
def outRows (ops : List OpDesc) (rows : List Nat) (p : OpDesc) : Nat :=
  let src := if refSpace p.src0 = 1 then rows.getD (refIdx p.src0) 1 else 1
  if p.opcode = 1 && p.routed then
    if p.combine then 1 else ops.foldl (fun m q => if q.opcode = 6 && refIdx q.dst = p.param0 then max m q.param0 else m) 1
  else if p.opcode = 2 || (p.opcode = 7 && p.sub = 2) then 1 else src

/-- One pass over the ops of a model: the most rows that each SCRATCH buffer holds. -/
def rowsPass (ops : List OpDesc) (rows : List Nat) : List Nat :=
  ops.foldl (fun rows p =>
    if refSpace p.dst = 1 && p.opcode != 8 && p.opcode != 6 && p.opcode != 11 then
      rows.set (refIdx p.dst) (max (rows.getD (refIdx p.dst) 1) (outRows ops rows p)) else rows) rows

/-- No SCRATCH buffer takes more than 64 KiB of a sequence on a slice. -/
def scratchOk (h : ImgHdr) (ts : List Tensor) (layers : List Layer) : Bool :=
  let ops := layers.flatMap (·.ops)
  let rows := (List.range 16).foldl (fun r _ => rowsPass ops r) (List.replicate 16 1)
  layers.zipIdx.all fun l => l.1.ops.all fun p =>
    refSpace p.dst != 1 || p.opcode == 8 || p.opcode == 11 ||
    outRows ops rows p * rowLen p.dfmt p.dscale (outLen h (ts.filter fun t => t.layer == l.2) p) ≤ 65536

/-! ### The image -/

/-- What an image holds. -/
structure Image where
  hdr : ImgHdr
  tensors : List Tensor
  dir : List TileDir
  layers : List Layer
  tables : List TansTable
  blocks : List Block
  deriving DecidableEq, Repr

/-- The image that bytes spell, none where a structural check of R75 to R82 fails or a table is not one that TABLE_LOAD
accepts. -/
def parseImage (slices : Nat) (img : Bytes) : Option Image :=
  if !imgHdrOk slices img then none
  else
    let h := readImgHdr img
    let ts := (List.range h.tensors).map (readTensor img h)
    let dir := (List.range h.tiles).map (readTileDir img h)
    let tabs := (List.range h.tables).map fun i => parseTable (slice img (h.tabOff + 4096 * i) 4096)
    let blocks := dir.filterMap fun d => parseBlock (slice img d.off (d.sectors * 256))
    if (List.range h.tensors).all (tensorOk slices img h) && tensorsRise ts && (List.range h.tiles).all (tileDirOk img h ts) &&
        ts.all (fun t => shardOk slices h t (dir.filter fun d => d.layer == t.layer && d.tensor == t.tensor)) &&
        (List.range h.layers).all (layerOk slices img h ts) &&
        scratchOk h ts ((List.range h.layers).map (readLayer img h)) && tabs.all (·.isSome) && blocks.length == dir.length then
      some { hdr := h, tensors := ts, dir := dir, layers := (List.range h.layers).map (readLayer img h),
             tables := tabs.filterMap id, blocks := blocks }
    else none

end Sys2Proof.Machine
end

