-- ==== Sys2Proof/Machine/Qos.lean ====
section
/-! DEFINITION. Guarantees and the share factors of tiers and T0: QOS_ADMIT and QOS_QUERY (09 R290-R299, 13 R440, R441). -/
namespace Sys2Proof.Machine
open Sys2Proof

/-- Some extent is added for a host ID. -/
def State.hostHasExtents (s : State) (h : Nat) : Bool := s.pool.extents.any fun e => e.2.hosts.contains h

/-- Assignable T0 of a slice in MiB (R290). -/
def State.assignableT0 (s : State) (n : Nat) : Nat :=
  120 - 8 * ((List.range 16).filter fun k => !bit (s.sl n).banks k).length

def State.t0Sum (s : State) : Nat := s.qos.tenants.foldl (fun n t => n + t.2.t0Mib) 0

/-- T0_SHARE of a tenant on a slice in KiB, as lowered there (R290). -/
def State.t0ShareKib (s : State) (t n : Nat) : Nat := (s.tq t).t0Mib * 1024 * (s.factors n).2.2 / 1024

/-- The common T0 factor of a slice set anew; a change is recorded (R290, R299). -/
def State.rescaleT0 (s : State) (n cause : Nat) : State :=
  let sum := s.t0Sum
  let can := s.assignableT0 n
  let old := s.factor n 0
  let new := if sum ≤ can then 1024 else 1024 * can / sum
  if old = new then s
  else
    let f := s.factors n
    (s.setQos { s.qos with scale := tabSet s.qos.scale n (f.1, f.2.1, new) }).scaledRecord n 0 cause new old sum can

/-- One entry of a guarantee set: class, QSLOTS_MIN, MIN_WAYS, T1_FLOOR, T2_FLOOR. -/
structure Guarantee where
  cls : Nat
  qMin : Nat
  ways : Nat
  t1 : Nat
  t2 : Nat

def guarantees (inp : Bytes) : List Guarantee :=
  (List.range (fld inp 0 1)).map fun j =>
    let o := 8 + 16 * j
    { cls := fld inp o 1, qMin := fld inp (o + 1) 1, ways := fld inp (o + 2) 1, t1 := fld inp (o + 4) 4, t2 := fld inp (o + 8) 4 }

/-- The class records with a guarantee set in place. -/
def State.withSet (s : State) (l : List Guarantee) : State :=
  l.foldl (fun s g => s.setQos { s.qos with classes := tabMod {} s.qos.classes g.cls fun r =>
    { r with qMin := g.qMin, minWays := g.ways, t1Floor := g.t1, t2Floor := g.t2 } }) s

/-- The slice with the largest shortfall of a tier and the shortfall; the lowest slice wins. -/
def State.shortfall (s : State) (tier : Nat) : Option (Nat × Nat) :=
  s.upSlices.foldl (fun (b : Option (Nat × Nat)) n =>
    let x := s.floorSum tier - s.deliverable n tier
    match b with
    | some (_, y) => if y < x then some (n, x) else b
    | none => if 0 < x then some (n, x) else none) none

/-- The lowest deliverable figure over slices. -/
def State.lowestFigure (s : State) (tier : Nat) : Nat :=
  match s.upSlices with
  | [] => 0
  | n :: l => l.foldl (fun m k => min m (s.deliverable k tier)) (s.deliverable n tier)

/-- QOS_ADMIT (R295-R297, 13 R440). -/
def qosAdmitCmd (inp : Bytes) (s : State) : Reply :=
  let count := fld inp 0 1
  let l := guarantees inp
  if count = 0 || 16 < count then fail s .invalidInput
  else if inp.length != 8 + 16 * count then fail s .invalidPayloadLength
  else if !(l.map (·.cls)).Nodup || l.any fun g => 16 ≤ g.cls || 8 < g.qMin || 16 < g.ways then fail s .invalidInput
  else
    let t := s.withSet l
    let sum (f : ClassRec → Nat) : Nat := (List.range 16).foldl (fun n k => n + f (t.cls k)) 0
    let sh1 := t.shortfall 1
    let sh2 := t.shortfall 2
    let qs := sum (·.qMin) - 12
    let ws := sum (·.minWays) - 16
    let ce := l.find? fun g => (s.cls g.cls).t1Ceil < g.t1 || (s.cls g.cls).t2Ceil < g.t2
    let lowers := l.all fun g =>
      let r := s.cls g.cls
      decide (g.qMin ≤ r.qMin) && decide (g.ways ≤ r.minWays) && decide (g.t1 ≤ r.t1Floor) && decide (g.t2 ≤ r.t2Floor)
    let good := lowers || (sh1.isNone && sh2.isNone && qs = 0 && ws = 0 && ce.isNone)
    let out := flds [(1, b2n good), (1, (sh1.map (·.1)).getD 0xFF), (1, (sh2.map (·.1)).getD 0xFF), (1, qs), (1, ws),
      (1, (ce.map (·.cls)).getD 0xFF), (2, 0), (4, (sh1.map (·.2)).getD 0), (4, (sh2.map (·.2)).getD 0),
      (4, match sh1 with | some x => s.deliverable x.1 1 | none => s.lowestFigure 1),
      (4, match sh2 with | some x => s.deliverable x.1 2 | none => s.lowestFigure 2)]
    if good then ok (t.rescaleAll 5) out else ok s out

/-- QOS_QUERY (13 R441). -/
def qosQueryCmd (inp : Bytes) (s : State) : Reply :=
  let id := fld inp 2 2
  match fld inp 0 1 with
  | 0 => if 1024 ≤ id then fail s .invalidInput else match s.hostRec id with
    | none => ok s (flds [(1, 0), (1, 0), (2, id), (16, 0)])
    | some r => ok s (flds [(1, 0), (1, 0), (2, id), (1, r.port / 2 + 4 * (r.port % 2)), (1, b2n r.direct + 2), (2, r.tenant), (1, r.cls),
        (3, 0), (4, r.limit), (4, r.burst)])
  | 1 =>
    if 1024 ≤ id then fail s .invalidInput
    else
      let q := s.tq id
      let res := (List.range 8).foldl (fun n k => n + (s.drawOf id k).reserve) 0
      ok s (flds [(1, 1), (1, 0), (2, id), (1, q.cls), (1, q.t0Mib), (2, 0), (8, s.charge id 1), (8, s.charge id 2), (8, s.charge id 3),
        (8, s.charge id 4), (8, s.overflowUsed id * 256), (8, res * 256)])
  | 2 =>
    if 16 ≤ id then fail s .invalidInput
    else
      let k := id
      let r := s.cls k
      ok s (flds [(1, 2), (1, 0), (1, k), (1, r.weight), (1, r.qMax), (1, r.maxWays), (2, 0), (4, r.t1Ceil), (4, r.t2Ceil), (4, 0),
        (4, r.t1Floor), (4, r.t2Floor), (1, r.qMin), (1, r.minWays)])
  | _ => fail s .invalidInput

def rowQosAdmit : Row := { op := 0xC029, thru := 8, lo := 8, hi := 264 }
def execQosAdmit (via : Iface) (inp : Bytes) (s : State) : Host.Outcome State Fault Refusal :=
  .next (mbxCall rowQosAdmit (.qosAdmit via inp) via inp.length s (qosAdmitCmd inp))
def rowQosQuery : Row := { op := 0xC02A, thru := 5, lo := 4, hi := 4 }
def execQosQuery (via : Iface) (inp : Bytes) (s : State) : Host.Outcome State Fault Refusal :=
  .next (mbxCall rowQosQuery (.qosQuery via inp) via inp.length s (qosQueryCmd inp))

end Sys2Proof.Machine
end

