-- ==== Sys2Proof/Machine/Tables.lean ====
section
/-! DEFINITION. Table slots: references, loading, retirement and re-coding (05 R155-R161). -/
namespace Sys2Proof.Machine
open Sys2Proof

def State.slot (s : State) (n k : Nat) : TSlot := tabGet {} (s.cn n).slots k
def State.modSlotT (s : State) (n k : Nat) (f : TSlot → TSlot) : State :=
  s.modCnd n fun c => { c with slots := tabMod {} c.slots k f }

/-- A block names a slot in a generation. -/
def namesSlot (k gen : Nat) (h : Home) : Bool :=
  match h.blk with
  | some b => b.coder == 2 && b.slot == k && b.gen == gen
  | none => false

/-- Loads and models that bind a slot of a slice. -/
def State.bindings (s : State) (n k : Nat) : Nat :=
  let bound (m : Model) : Nat := (m.bound.filter fun b => b.1 == n && b.2.2 == k).length
  s.eng.models.foldl (fun a m => a + bound m.2) 0 + s.eng.loads.foldl (fun a l => a + bound l.model) 0

/-- The reference count of a slot (R155): stored blocks, the new homes of moves, blocks that a fetch reads and T0 copies, bindings,
encode selections. A T0 copy and a fetch keep the name of the block that was read, whatever home their item has since. -/
def State.slotRefs (s : State) (n k : Nat) : Nat :=
  let g := (s.slot n k).gen
  (s.homes.filter fun h => h.1 == n && namesSlot k g h.2).length +
  (s.eng.t0.filter fun c => c.name == some (n, k, g)).length +
  (s.eng.fetches.filter fun f => f.2.issued && f.2.kind != 1 && f.2.name == some (n, k, g)).length +
  s.bindings n k + ((s.cn n).encSel.filter fun e => e.2 == k).length

/-- A slot is free: EMPTY, or ACTIVE with a count of zero (R157). -/
def State.slotFree (s : State) (n k : Nat) : Bool :=
  let st := (s.slot n k).state
  st == 0 || (st == 2 && s.slotRefs n k == 0)

/-- The slot that a load takes on a slice: the named one where it is free, or the lowest free one. -/
def State.slotFor (s : State) (n k : Nat) : Option Nat :=
  if k = 0xFF then (List.range 64).find? (s.slotFree n) else if s.slotFree n k then some k else none

/-- A slot begins to load (R156, R157). -/
def State.loadSlot (s : State) (n k : Nat) (t : TansTable) (model cls : Option Nat) : State :=
  s.modSlotT n k fun x => { state := 1, gen := (x.gen + 1) % 1024, table := some t, model := model, pendingClass := cls }

/-- Slices of a mask, each of which must serve. -/
def maskList (mask : Nat) : List Nat := (List.range 8).filter (bit mask)

/-- The record of a slot that could not be loaded (R161). -/
def State.slotBusyRecord (s : State) (n k : Nat) : State :=
  let x := s.slot n k
  s.record 0 0x0008 (if k = 0xFF then flds [(1, n), (1, 0xFF), (2, 0), (2, 0), (2, 0), (8, 0)]
    else flds [(1, n), (1, k), (1, x.state), (1, 0), (2, x.gen), (2, 0), (8, s.slotRefs n k)])

/-- TABLE_LOAD (R158). -/
def tableLoadCmd (v : Iface) (inp : Bytes) (s : State) : Reply :=
  let l := maskList (fld inp 0 1)
  let k := fld inp 1 1
  let c := fld inp 2 1
  match parseTable (slice inp 16 4096) with
  | none => fail s .invalidInput
  | some t =>
    if (64 ≤ k && k != 0xFF) || (4 ≤ c && c != 0xFF) || !(l.all s.up) then fail s .invalidInput
    else if l.any s.restarting then fail s .busy
    else
      let bad := l.filter fun n => (s.slotFor n k).isNone
      if !bad.isEmpty then fail (bad.foldl (fun s n => s.slotBusyRecord n k) s) .tableSlotBusy
      else
        let cls := if c = 0xFF then none else some c
        let (s, got) := l.foldl (fun (a : State × List (Nat × Nat × Nat)) n =>
          match a.1.slotFor n k with
          | none => a
          | some j =>
            let s := a.1.loadSlot n j t none cls
            (s, a.2 ++ [(n, j, (s.slot n j).gen)])) (s, [])
        if got.isEmpty then ok s ((List.range 8).flatMap fun _ => flds [(1, 0xFF), (3, 0)])
        else { ret := .success, later := true, st := { s with tabLoads := s.tabLoads ++ [{ via := v, slots := got }] } }

/-- A TABLE_LOAD whose slots are all ACTIVE answers. -/
def State.tabLoadDone (s : State) : State :=
  s.tabLoads.foldl (fun s l =>
    if l.slots.all fun x => (s.slot x.1 x.2.1).state != 1 || !s.up x.1 then
      let out := (List.range 8).flatMap fun n => match l.slots.find? fun x => x.1 == n with
        | some x => flds [(1, x.2.1), (1, 0), (2, x.2.2)]
        | none => flds [(1, 0xFF), (3, 0)]
      ({ s with tabLoads := s.tabLoads.erase l }).respond l.via 0xC018 .success out
    else s) s

/-- TABLE_BUILT: a slot becomes ACTIVE and takes its encode selection (R157, R159). -/
def tableBuilt (n k : Nat) (s : State) : State :=
  let x := s.slot n k
  if x.state != 1 then s
  else
    let s := s.modSlotT n k fun x => { x with state := 2, pendingClass := none }
    let s := match x.pendingClass with
      | some c => s.modCnd n fun d => { d with encSel := tabSet d.encSel c k }
      | none => s
    s.tabLoadDone

/-- A slot becomes EMPTY; its generation stays. -/
def State.emptySlot (s : State) (n k : Nat) : State := s.modSlotT n k fun x => { gen := x.gen }

/-- TABLE_RETIRE on one slice (R157, R159, R160). -/
def State.retireSlot (s : State) (n k : Nat) (recode : Bool) : State :=
  let s := s.modCnd n fun d => { d with encSel := d.encSel.filter fun e => e.2 != k }
  let st := (s.slot n k).state
  if st = 2 && s.slotRefs n k = 0 then s.emptySlot n k
  else if st = 2 || st = 3 then s.modSlotT n k fun x => { x with state := 3, recoding := x.recoding || recode }
  else s

/-- TABLE_RETIRE (R160). -/
def tableRetireCmd (inp : Bytes) (s : State) : Reply :=
  let l := maskList (fld inp 0 1)
  let k := fld inp 1 1
  if 64 ≤ k || !(l.all s.up) || l.any fun n => (s.slot n k).state = 1 || 0 < s.bindings n k then fail s .invalidInput
  else
    let s := l.foldl (fun s n => s.retireSlot n k (bit (fld inp 2 1) 0)) s
    ok s ((List.range 8).flatMap fun n => le 8 (if l.contains n && (s.slot n k).state != 0 then s.slotRefs n k else 0))

/-- SLOT_RELEASE: a slot that is retiring, or whose model is gone, is EMPTY at a count of zero (R157). -/
def slotRelease (n k : Nat) (s : State) : State :=
  let x := s.slot n k
  let gone := match x.model with
    | some h => (s.model h).isNone && !(s.eng.loads.any fun l => l.model.bound.any fun b => b.1 == n && b.2.2 == k)
    | none => false
  if (x.state = 3 || (x.state = 2 && gone)) && s.slotRefs n k = 0 then s.emptySlot n k else s

/-- The encode class of a KV format: KV8 or KV16 (05 R149). -/
def kvClass (fmt : Nat) : Nat := if fmtBits fmt = 16 then 2 else 1

/-- RECODE_BLOCK: a block that names a slot under re-coding is decoded and coded afresh at a new home (R160). Where the decode fails,
the new home is written as poison: its item is poisoned and its bytes are zeros (R166, 11 R356). -/
def recodeBlock (i : Item) (s : State) : State :=
  match s.homeOf i with
  | none => s
  | some h =>
    match h.blk with
    | none => s
    | some b =>
      let n := s.itemSlice i
      let x := s.slot n b.slot
      if b.coder != 2 || x.state != 3 || !x.recoding || x.gen != b.gen || (s.moveOf i).isSome || (s.homeFrozen n h 0 (homeLen h)).isSome then s
      else
        let (out, s) := s.decodeItem i b 2 0 1
        let data := out.getD (List.replicate b.logical 0)
        match i, (s.homeOf i).isSome with
        | .page p, true =>
          let (b', s) := s.condenseOn n 0 (s.pageStrength p) 0 0 false data
          match s.placeBlock p b' (some h) with
          | some d => s.beginMove i d 4
          | none => s
        | .tile _ _, _ | _, false => s
        | _, true =>
          let cls := if b.kind = 2 then kvClass b.fmt else 3
          let (b', s) := s.condenseOn n cls b.strength b.kind b.fmt b.typed data
          match s.alloc n h.tier (b'.sectors * 256) with
          | some a => s.beginMove i { h with ma := a.1, skips := a.2, blk := some b' } 4
          | none => s

def rowTableLoad : Row := { op := 0xC018, thru := 8, lo := 4112, hi := 4112 }
def execTableLoad (via : Iface) (inp : Bytes) (s : State) : Host.Outcome State Fault Refusal :=
  .next (mbxCall rowTableLoad (.tableLoad via inp) via inp.length s (tableLoadCmd via inp))
def execTableBuilt (slice slot : Nat) (s : State) : Host.Outcome State Fault Refusal := .next (tableBuilt slice slot s)
def rowTableRetire : Row := { op := 0xC019, thru := 8, lo := 3, hi := 3 }
def execTableRetire (via : Iface) (inp : Bytes) (s : State) : Host.Outcome State Fault Refusal :=
  .next (mbxCall rowTableRetire (.tableRetire via inp) via inp.length s (tableRetireCmd inp))
def execSlotRelease (slice slot : Nat) (s : State) : Host.Outcome State Fault Refusal := .next (slotRelease slice slot s)
def execRecodeBlock (item : Item) (s : State) : Host.Outcome State Fault Refusal := .next (recodeBlock item s)

end Sys2Proof.Machine
end

