-- ==== Sys2Proof/Machine/Models.lean ====
section
/-! DEFINITION. MODEL_LOAD: the source, the fit check, tables, homes and the handle; MODEL_QUERY (03 R78-R80, R99-R101,
05 R162, 06 R183, 13 R433-R436). -/
namespace Sys2Proof.Machine
open Sys2Proof

/-! ### The source (13 R433) -/

/-- Every byte from `a` to `e` lies in extents added for host IDs of a tenant. -/
def State.ownRange (s : State) (t e : Nat) : Nat → Nat → Bool
  | 0, _ => false
  | fuel + 1, a =>
    match s.extentOf a with
    | none => false
    | some (base, x) =>
      (x.hosts.any fun h => (s.hostRec h).any fun r => r.tenant == t) && (e ≤ base + x.len || s.ownRange t e fuel (base + x.len))

/-- A pool page cannot be read now: its home lies on a frozen controller or in a lost window or tray. -/
def State.pageDead (s : State) (n : Nat) : Bool :=
  match s.homeOf (.page n) with
  | none => false
  | some h => (s.homeFrozen (s.sliceOf (n * 4096)) h 0 (homeLen h)).isSome || (2 < h.tier && !s.farOk h)

/-- A read of a pool range returns poison. -/
def State.rangePoison (s : State) (dpa n : Nat) : Bool :=
  ((List.range (n / 64 + 2)).any fun k => 64 * (dpa / 64 + k) < dpa + n && s.linePoison (dpa / 64 + k)) ||
  ((List.range (n / 4096 + 2)).any fun k => 4096 * (dpa / 4096 + k) < dpa + n && s.pageDead (dpa / 4096 + k))

/-- The bytes of a source range, none where R433 refuses it. -/
def State.srcBytes (s : State) (t dpa n : Nat) : Option Bytes :=
  if dpa % 256 != 0 || n = 0 || !s.ownRange t (dpa + n) (s.pool.extents.length + 1) dpa || s.rangePoison dpa n then none
  else some (memReadN s.pool.mem dpa n)

/-- The reads of a source range from the homes of its pages, in the tenant's class (R433). -/
def State.readSource (s : State) (t dpa n : Nat) : State :=
  (List.range ((dpa % 4096 + n + 4095) / 4096)).foldl (fun s k =>
    let p := dpa / 4096 + k
    let a := max dpa (p * 4096)
    match s.homeOf (.page p) with
    | some h => s.access (s.sliceOf (p * 4096)) h (a - p * 4096) (min (dpa + n) ((p + 1) * 4096) - a) false (s.tq t).cls
    | none => s) s

/-! ### The fit check (R79, R99, R100) -/

/-- Tokens in a KV block (R75). -/
def kvTokens (headDim fmt : Nat) : Nat := 4096 / (2 * headDim * (fmtBits fmt / 8))

/-- KV blocks that a load reserves (R99). -/
def kvBlocks (h : ImgHdr) : Nat :=
  let tpb := kvTokens h.headDim h.kvFmt
  h.maxSeq * ((h.maxCtx + tpb - 1) / tpb) * h.kvHeads * h.layers

/-- Bytes that a KV block is charged (R99). -/
def kvRaw (strength : Nat) : Nat := rawSectors strength * 256

/-- The program area of an image on each slice (R79). -/
def programArea (h : ImgHdr) : Nat := roundUp (h.layerEnd - h.layerOff) 65536

/-- KV blocks of a model's sequences that have their homes in a tier. -/
def State.kvIn (s : State) (h tier : Nat) : Nat :=
  s.eng.seqs.foldl (fun n z => if z.2.handle = h then n + (z.2.kv.filter fun k => k.ent.home.any fun o => o.tier == tier).length else n) 0

/-- KV reservations of accepted loads in a tier that no block has taken yet: every model's, and those of loads that run (R100). -/
def State.kvAhead (s : State) (tier : Nat) : Nat :=
  let part (m : Model) : Nat := if tier = 1 then m.kvT1 else if tier = 2 then m.kvT2 else 0
  s.eng.models.foldl (fun n m => n + (part m.2 - s.kvIn m.1 tier * kvRaw m.2.kvStrength)) (s.eng.loads.foldl (fun n l => n + part l.model) 0)

/-- Free bytes of a tier that no home takes and no KV reservation awaits; of T3, those of committed windows. -/
def State.physFree (s : State) (tier : Nat) : Nat :=
  let taken (slice unit : Nat) : Nat := (s.used slice tier unit).foldl (fun n u => n + (u.2 - u.1)) 0
  if tier = 3 then
    s.fab.pw.foldl (fun n w => if w.2.valid && w.2.state == 0 then n + (w.2.size * 2 ^ 30 - taken 0 w.1) else n) 0
  else s.upSlices.foldl (fun n k => n + (maSpace s.cfg k tier - s.topReserved k tier - taken k 0)) 0 - s.kvAhead tier

/-- What a tenant's load may take of a tier: its quota and the free tier. -/
def State.roomFor (s : State) (t tier : Nat) : Nat := min (s.quotaLeft t tier) (s.physFree tier)

/-- Free bytes of each slice's program region. -/
def State.programFree (s : State) : Nat :=
  s.cfg.programMib * 2 ^ 20 - s.eng.models.foldl (fun n m => n + m.2.programBytes) 0 - s.eng.loads.foldl (fun n l => n + l.model.programBytes) 0

/-- The figures of the fit check. -/
structure Fit where
  pin : Nat
  t1Short : Nat
  localNeed : Nat
  t2Short : Nat
  remote : Nat
  t3Short : Nat
  t0Need : Nat
  t0Short : Nat
  t0Slice : Nat
  t0Layer : Nat
  tblShort : Nat
  progShort : Nat
  bigLayer : Nat
  bigBytes : Nat
  deriving DecidableEq, Repr

/-- Largest T0 window: need, slice and layer; ties keep the lowest slice, then the lowest layer (R100). -/
def t0Window (slices lead : Nat) (ls : List Layer) : Nat × Nat × Nat :=
  (List.range slices).foldl (fun a s => (List.range ls.length).foldl (fun (a : Nat × Nat × Nat) l =>
    let pre (j : Nat) : Nat := match ls[l + j]? with
      | some x => x.t0Pre.getD s 0
      | none => 0
    let w := (match ls[l]? with
      | some x => x.t0Work.getD s 0
      | none => 0) + (List.range lead).foldl (fun n j => n + pre (j + 1)) 0
    if a.1 < w then (w, s, l) else a) a) (0, 0, 0)

/-- Image-local tables that tiles of a slice are coded with. -/
def tablesOn (img : Image) (n : Nat) : List Nat :=
  ((img.dir.zip img.blocks).filterMap fun x => if x.1.slice == n && x.2.coder == 2 then some x.2.slot else none).eraseDups

def dirBytes (l : List TileDir) : Nat := l.foldl (fun n d => n + d.sectors * 256) 0

def isPin (d : TileDir) : Bool := d.place % 4 == 0
def isRemote (d : TileDir) : Bool := !isPin d && bit d.place 2

/-- The layer with the most stored tile bytes, the lowest on a tie. -/
def biggestLayer (img : Image) : Nat × Nat :=
  (List.range img.layers.length).foldl (fun a l =>
    let n := dirBytes (img.dir.filter fun d => d.layer == l)
    if a.2 < n then (l, n) else a) (0, 0)

def State.fit (s : State) (t lead : Nat) (img : Image) : Fit :=
  let (need, slice, layer) := t0Window s.cfg.slices lead img.layers
  let pin := dirBytes (img.dir.filter isPin)
  let remote := dirBytes (img.dir.filter isRemote)
  let loc := dirBytes (img.dir.filter fun d => !isPin d && !isRemote d) + kvBlocks img.hdr * kvRaw img.hdr.kvStrength
  let f1 := s.roomFor t 1
  let room := (f1 - pin) + s.roomFor t 2
  let tbl := (List.range s.cfg.slices).foldl (fun n k =>
    max n ((tablesOn img k).length - ((List.range 64).filter (s.slotFree k)).length)) 0
  let (bl, bb) := biggestLayer img
  { pin := pin, t1Short := pin - f1, localNeed := loc, t2Short := loc - room, remote := remote,
    t3Short := remote - (room - loc) - s.roomFor t 3, t0Need := need, t0Short := need - s.t0ShareKib t slice * 1024,
    t0Slice := slice, t0Layer := layer, tblShort := tbl, progShort := programArea img.hdr - s.programFree, bigLayer := bl, bigBytes := bb }

/-- The fit report (R101). -/
def fitBytes (f : Fit) : Bytes :=
  flds [(8, f.pin), (8, f.t1Short), (8, f.localNeed), (8, f.t2Short), (8, f.remote), (8, f.t3Short), (4, f.t0Need), (4, f.t0Short),
    (1, f.t0Slice), (1, f.tblShort), (2, f.t0Layer), (2, f.bigLayer), (2, (f.progShort + 1023) / 1024), (8, f.bigBytes)]

def fits (f : Fit) : Bool :=
  f.t1Short == 0 && f.t2Short == 0 && f.t3Short == 0 && f.t0Short == 0 && f.tblShort == 0 && f.progShort == 0

/-! ### Loading (R78, R80, R162, R183) -/

/-- The load of a tenant that runs. -/
def State.loadOf (s : State) (t : Nat) : Option Load := s.eng.loads.find? fun l => l.tenant == t

def State.modLoad (s : State) (t : Nat) (f : Load → Load) : State :=
  s.setEng { s.eng with loads := s.eng.loads.map fun l => if l.tenant == t then f l else l }

def State.dropLoad (s : State) (t : Nat) : State := s.setEng { s.eng with loads := s.eng.loads.filter fun l => l.tenant != t }

/-- A load's outcome is kept; a tenant's last 16 are (13 R434). Every load that ends counts towards the 65,535 of R80, a refused or
abandoned one among them (DESIGN CHOICE, log 45). -/
def State.keepOutcome (s : State) (t : Nat) (o : LoadOutcome) : State :=
  let l := tabGet ([] : List LoadOutcome) s.eng.outcomes t ++ [o]
  s.setEng { s.eng with outcomes := tabSet s.eng.outcomes t (l.drop (l.length - 16)), loadsDone := s.eng.loadsDone + 1 }

/-- Each image table takes a free slot on every slice that holds tiles coded with it (R78). -/
def State.bindTables (s : State) (t : Nat) (img : Image) : State :=
  (List.range s.cfg.slices).foldl (fun s n => (tablesOn img n).foldl (fun s k =>
    match s.slotFor n 0xFF, img.tables[k]? with
    | some j, some tb =>
      (s.loadSlot n j tb none none).modLoad t fun l => { l with model := { l.model with bound := l.model.bound ++ [(n, k, j)] } }
    | _, _ => s) s) s

/-- A tile's block as it is stored: the bound slot and generation take the place of the image-local index (R78). -/
def State.boundBlock (s : State) (bound : List (Nat × Nat × Nat)) (n : Nat) (b : Block) : Option Block :=
  if b.coder != 2 then some b
  else (bound.find? fun x => x.1 == n && x.2.1 == b.slot).map fun x =>
    { b with slot := x.2.2, gen := (s.slot n x.2.2).gen }

/-- A place in a tier for a tile of a tenant whose quota there has room. -/
def State.tilePlace (s : State) (t n : Nat) (b : Block) (tier : Nat) : Option Home :=
  if s.quotaLeft t tier < b.sectors * 256 then none
  else if tier = 3 then s.placeFar n b false
  else (s.alloc n tier (b.sectors * 256)).map fun a => { tier := tier, ma := a.1, skips := a.2, blk := some b }

/-- Tiers that a tile may take, in the order of R183. -/
def tileTiers (place : Nat) : List Nat :=
  match place % 4 with
  | 0 => [1]
  | 3 => if bit place 2 then [2, 1, 3] else [2, 1]
  | _ => if bit place 2 then [1, 2, 3] else [1, 2]

/-- A tile of a load is stored; none where no tier takes it. -/
def State.storeTile (s : State) (t x : Nat) (d : TileDir) (b : Block) : Option State :=
  match s.loadOf t with
  | none => none
  | some l =>
    (s.boundBlock l.model.bound d.slice b).bind fun b' =>
      ((tileTiers d.place).findSome? fun tier => s.tilePlace t d.slice b' tier).map fun h =>
        let put (u : Tile × Nat) : Tile := if u.2 = x then { u.1 with ent := { u.1.ent with home := some h } } else u.1
        let s := s.modLoad t fun l => { l with model := { l.model with tiles := l.model.tiles.zipIdx.map put } }
        if h.tier = 3 then s.farWrite (.tile 0xFFFF x) h
        else s.access d.slice h 0 (homeLen h) true (s.tq t).cls

/-- Tiles of a class of placement, in tile directory order. -/
def State.storeTiles (s : State) (t : Nat) (l : List (Nat × TileDir × Block)) : Option State :=
  l.foldl (fun s x => s.bind fun s => s.storeTile t x.1 x.2.1 x.2.2) (some s)

/-- The division of R183: pinned tiles, local tiles, the KV reservation, then REMOTE_OK tiles. -/
def State.storeModel (s : State) (t : Nat) (img : Image) : Option State :=
  let all := (img.dir.zip img.blocks).zipIdx.map fun x => (x.2, x.1.1, x.1.2)
  let pick (f : TileDir → Bool) := all.filter fun x => f x.2.1
  let loc (d : TileDir) : Bool := !isPin d && !isRemote d
  let kv := kvBlocks img.hdr * kvRaw img.hdr.kvStrength
  (s.storeTiles t (pick isPin)).bind fun s =>
  (s.storeTiles t (pick fun d => loc d && d.place % 4 != 3)).bind fun s =>
  (s.storeTiles t (pick fun d => loc d && d.place % 4 == 3)).bind fun s =>
    let two := min kv (s.roomFor t 2)
    if s.roomFor t 1 < kv - two then none
    else (s.modLoad t fun l => { l with model := { l.model with kvT1 := kv - two, kvT2 := two } }).storeTiles t (pick isRemote)

/-- The model that an image describes, its tiles without homes. -/
def modelOf (t lead : Nat) (img : Image) : Model :=
  let h := img.hdr
  { tenant := t, maxSeq := h.maxSeq, maxCtx := h.maxCtx, kvHeads := h.kvHeads, headDim := h.headDim, kvFmt := h.kvFmt,
    kvSplit := h.kvSplit, kvStrength := h.kvStrength, qPerKv := h.qPerKv, hidden := h.hidden, tensors := img.tensors,
    tiles := img.dir.map fun d => { layer := d.layer, tensor := d.tensor, expert := d.expert, n := d.n, k := d.k, slice := d.slice,
                                    place := d.place % 4, remoteOk := bit d.place 2, strength := bits d.place 5 3 },
    layers := img.layers, bound := [], lead := lead, programBytes := programArea h, kvT1 := 0, kvT2 := 0 }

/-- Every tile decodes with its image-local table (05 R162). -/
def tilesDecode (img : Image) : Bool :=
  img.blocks.all fun b => match decodeWith (if b.coder = 2 then img.tables[b.slot]? else none) b with
    | .ok _ => true
    | _ => false

/-- Output of MODEL_LOAD (13 R434). -/
def loadOut (handle tag : Nat) (fit : Bytes) : Bytes := flds [(2, handle), (2, tag), (4, 0)] ++ fit

/-- A refused load leaves its outcome and nothing else (R80). -/
def State.loadRefused (s : State) (t tag : Nat) (r : Ret) (fit : Bytes) : Reply :=
  { ret := r, out := if fit.isEmpty then [] else loadOut 0xFFFF tag fit,
    st := s.keepOutcome t { tag := tag, ret := r, handle := 0xFFFF, fit := slice fit 0 72 } }

/-- MODEL_LOAD (R75-R80, R100; 09 R277, 15 R509, R525). -/
def modelLoadCmd (v : Iface) (inp : Bytes) (s : State) : Reply :=
  let t := fld inp 0 2
  let tag := fld inp 2 2
  let lead := if fld inp 4 1 = 0 then 4 else fld inp 4 1
  let dpa := fld inp 8 8
  let n := fld inp 16 8
  if !s.tenantOk v t then fail s .invalidInput
  else if !s.rst.engineReady then fail s .busy
  else if (s.loadOf t).isSome then fail s .busy
  else if !s.vfEnabled t || 32 < lead then s.loadRefused t tag .invalidInput []
  else match (s.srcBytes t dpa n).bind (parseImage s.cfg.slices) with
    | none => s.loadRefused t tag .invalidInput []
    | some img =>
      if 16 * 2 ^ 20 < programArea img.hdr || img.dir.any (fun d => !s.up d.slice) then s.loadRefused t tag .invalidInput []
      else if s.bistFull || img.dir.any (fun d => s.restarting d.slice || s.bistOn d.slice [0, 1]) then s.loadRefused t tag .busy []
      else
        let f := s.fit t lead img
        if !fits f then s.loadRefused t tag .refusedFit (fitBytes f)
        else if !tilesDecode img then s.loadRefused t tag .invalidInput []
        else
          let l : Load := { via := v, tenant := t, tag := tag, model := modelOf t lead img, fit := fitBytes f, src := (dpa, n) }
          match (((s.readSource t dpa n).setEng { s.eng with loads := s.eng.loads ++ [l] }).bindTables t img).storeModel t img with
          | some s' => started s' [t]
          | none => s.loadRefused t tag .internalError []

/-- A handle that no model holds and that 65,535 other loads have passed since it was last issued (R80). -/
def State.freeHandle (s : State) : Option Nat :=
  ((List.range 0xFFFF).map fun i => (s.eng.nextHandle + i) % 0xFFFF).find? fun h =>
    (s.model h).isNone && match tabFind s.eng.issued h with
      | none => true
      | some c => c + 65535 ≤ s.eng.loadsDone

/-- Slots bound by a load become ACTIVE and take the model, or are emptied where the load is abandoned. -/
def State.loadSlots (s : State) (l : Load) (h : Option Nat) : State :=
  l.model.bound.foldl (fun s x => match h with
    | some h => s.modSlotT x.1 x.2.2 fun k => { k with state := if k.state = 1 then 2 else k.state, model := some h }
    | none => s.emptySlot x.1 x.2.2) s

/-- A load is abandoned and leaves nothing (R80). -/
def State.abandonLoad (s : State) (t : Nat) (r : Ret) : State :=
  match s.loadOf t with
  | none => s
  | some l =>
    (((s.dropLoad t).loadSlots l none).keepOutcome t { tag := l.tag, ret := r, handle := 0xFFFF, fit := l.fit }).bgDone l.via 0xC010 r []

/-- MODEL_LOAD_DONE: the load's model takes a handle (R80, 13 R434). -/
def modelLoadDone (t : Nat) (s : State) : State :=
  match s.loadOf t, s.freeHandle with
  | some l, some h =>
    let s := ((s.dropLoad t).loadSlots l (some h)).keepOutcome t { tag := l.tag, ret := .success, handle := h, fit := l.fit }
    let s := s.setEng { s.eng with models := tabSet s.eng.models h l.model, nextHandle := (h + 1) % 0xFFFF,
                                   issued := tabSet s.eng.issued h s.eng.loadsDone }
    s.bgDone l.via 0xC010 .success (loadOut h l.tag l.fit)
  | some _, none => s.abandonLoad t .internalError
  | none, _ => s

/-! ### MODEL_QUERY (13 R436) -/

/-- Numbers of the return codes: those of CXL 3.1 (PRESUMED, log 19) and R426. -/
def retCode (r : Ret) : Nat :=
  match r with
  | .success => 0
  | .backgroundStarted => 1
  | .invalidInput => 2
  | .unsupported => 3
  | .internalError => 4
  | .busy => 6
  | .invalidHandle => 0xE
  | .injectPoisonLimit => 0x10
  | .aborted => 0x12
  | .invalidPayloadLength => 0x16
  | .refusedFit => 0x8001
  | .tableSlotBusy => 0x8002
  | .holdupLow => 0x8003
  | .presenceRequired => 0x8004
  | .sealIntact => 0x8005
  | .recoveryMode => 0x8006

/-- Open slots of a model. -/
def State.openSlots (s : State) (h : Nat) : List Nat := (s.eng.seqs.filter fun q => q.2.handle == h).map (·.1)

/-- Stored tile bytes of a model in a tier. -/
def tileBytesIn (m : Model) (tier : Nat) : Nat :=
  m.tiles.foldl (fun n t => match t.ent.home with
    | some h => if h.tier = tier then n + homeLen h else n
    | none => n) 0

def modelQueryCmd (v : Iface) (inp : Bytes) (s : State) : Reply :=
  let t := fld inp 0 2
  let ty := fld inp 2 1
  let x := fld inp 4 2
  let start := fld inp 8 4
  if !s.tenantOk v t || 2 < ty then fail s .invalidInput
  else if ty = 1 then
    match (tabGet ([] : List LoadOutcome) s.eng.outcomes t).reverse.find? fun o => o.tag == x with
    | none => fail s .invalidInput
    | some o => ok s (flds [(2, retCode o.ret), (2, o.handle), (4, 0)] ++ slice o.fit 0 72)
  else match s.model x with
    | none => fail s .invalidInput
    | some m =>
      let bad := m.tiles.filter fun u => u.ent.poisoned
      if m.tenant != t then fail s .invalidInput
      else if ty = 0 then
        ok s (flds [(2, x), (2, m.layers.length), (4, m.tiles.length), (1, (s.eng.cursors.filter fun c => c.2.model == x).length),
          (1, (List.range 8).foldl (fun k n => if m.tiles.any fun u => u.slice == n then k + 2 ^ n else k) 0), (2, 0), (4, bad.length),
          (8, tileBytesIn m 1), (8, tileBytesIn m 2), (8, tileBytesIn m 3), (8, m.kvT1 + m.kvT2), (2, (s.openSlots x).length), (1, m.lead)])
      else
        let l := (bad.drop start).take ((ifaceLimit v - 8) / 12)
        ok s (flds [(4, bad.length), (4, l.length)] ++ l.flatMap fun u =>
          flds [(2, u.layer), (1, u.tensor), (1, u.slice), (2, u.expert), (2, u.n), (2, u.k), (2, 0)])

def rowModelLoad : Row := { op := 0xC010, thru := 6, lo := 24, hi := 24 }
def execModelLoad (via : Iface) (inp : Bytes) (s : State) : Host.Outcome State Fault Refusal :=
  .next (mbxCall rowModelLoad (.modelLoad via inp) via inp.length s (modelLoadCmd via inp))
def execModelLoadDone (tenant : Nat) (s : State) : Host.Outcome State Fault Refusal := .next (modelLoadDone tenant s)
def rowModelQuery : Row := { op := 0xC013, thru := 6, lo := 12, hi := 12 }
def execModelQuery (via : Iface) (inp : Bytes) (s : State) : Host.Outcome State Fault Refusal :=
  .next (mbxCall rowModelQuery (.modelQuery via inp) via inp.length s (modelQueryCmd via inp))

end Sys2Proof.Machine
end

