-- ==== Sys2Proof/Machine/Stage.lean ====
section
/-! DEFINITION. Staging: predictions, plans, T0 copies, fetches, and what makes an item resident (04 R111-R126, R97). -/
namespace Sys2Proof.Machine
open Sys2Proof

/-! ### Items of a layer (04 R116, R125) -/

/-- Tiles of a tensor of a layer on a slice, by position in the tile directory. -/
def tensorTiles (m : Model) (layer tensor n : Nat) : List Nat :=
  (m.tiles.zipIdx.filter fun t => t.1.layer == layer && t.1.tensor == tensor && t.1.slice == n).map (·.2)

/-- Tiles that a layer's ops read on a slice, in op order and then directory order. -/
def layerTiles (m : Model) (layer n : Nat) : List Nat :=
  match m.layers[layer]? with
  | none => []
  | some l => (l.ops.flatMap fun p => if p.opcode = 1 then tensorTiles m layer (refIdx p.src1) n else []).eraseDups

/-- Phase of an op (R611): 0 PRE, 1 ATTN, 2 FFN, 3 POST. -/
def phaseOf (l : Layer) (op : Nat) : Nat :=
  let at_ (m : Nat) : Bool := m != 0xFFFF && m ≤ op
  if at_ l.post then 3 else if at_ l.ffn then 2 else if at_ l.attn then 1 else 0

/-- KV blocks of a sequence in a layer on a slice. -/
def kvOn (z : Seq) (layer n : Nat) : List KvBlk := z.kv.filter fun k => k.layer == layer && k.slice == n

def kvItem (h q : Nat) (k : KvBlk) : Item := .kv h q k.layer k.head k.blk

/-! ### Tile versions (03 R97, 04 R121) -/

/-- Version of an item as it now stands. -/
def State.itemVersion (s : State) (i : Item) : Nat :=
  match i with
  | .tile h x => (((s.model h).bind fun m => m.tiles[x]?).map (·.version)).getD 0
  | _ => 0

/-- The tile that a step admitted at a version clock reads at a position. -/
def State.tileFor (s : State) (admitted h x : Nat) : Option Tile :=
  match (s.model h).bind fun m => m.tiles[x]? with
  | none => none
  | some t =>
    if t.version ≤ admitted then some t
    else
      let olds := s.eng.oldTiles.filter fun o => o.1 == h && o.2.1 == x && admitted < o.2.2.1
      match olds with
      | [] => some t
      | o :: l => some (l.foldl (fun b x => if x.2.2.1 < b.2.2.1 then x else b) o).2.2.2

/-- The version of a position that a step reads. -/
def State.versionFor (s : State) (admitted : Nat) (i : Item) : Nat :=
  match i with
  | .tile h x => ((s.tileFor admitted h x).map (·.version)).getD 0
  | _ => 0

/-! ### Residence (04, What staging moves) -/

/-- T0 of a slice holds a copy of an item in a version. -/
def State.inT0 (s : State) (n : Nat) (i : Item) (version : Nat) : Bool :=
  s.eng.t0.any fun c => c.slice == n && c.item == i && c.version == version

/-- An item is resident for a step admitted at a version clock. -/
def State.resident (s : State) (n admitted : Nat) (i : Item) : Bool :=
  let home := match i with
    | .tile h x => (s.tileFor admitted h x).bind (·.ent.home)
    | _ => s.homeOf i
  (home.any fun h => h.tier == 1) || s.inT0 n i (s.versionFor admitted i)

def State.itemPoisoned (s : State) (i : Item) : Bool := (s.entOf i).any (·.poisoned)

/-! ### Predictions (04 R115) -/

def State.cur (s : State) (c : Nat) : Option Cursor := tabFind s.eng.cursors c
def State.modCur (s : State) (c : Nat) (f : Cursor → Cursor) : State :=
  match s.cur c with
  | none => s
  | some x => s.setEng { s.eng with cursors := tabSet s.eng.cursors c (f x) }

/-- Layers of the model that a cursor is bound to. -/
def State.curLayers (s : State) (c : Cursor) : Nat := max 1 (((s.model c.model).map (·.layers.length)).getD 1)

/-- Ordinal of a cursor's position. -/
def State.ordinal (s : State) (c : Cursor) : Nat := c.step * s.curLayers c + c.layer

/-- Predicted arrival of an ordinal. -/
def State.tPred (s : State) (c : Cursor) (x : Nat) : Nat :=
  let L := s.curLayers c
  let u := s.ordinal c
  (List.range (x - u)).foldl (fun t k => t + (if (u + k) % L = L - 1 then (if c.gapOk then c.gap else c.est) else c.est)) c.entry

/-- Deadline of a staging fetch for an ordinal. -/
def State.deadline (s : State) (c : Cursor) (x : Nat) : Nat :=
  if c.state = 0 || x ≤ s.ordinal c then s.tbc else s.tPred c x - c.guardUs * us

/-- The horizon of an ordinal. -/
def horizon (u lead x : Nat) : Bool := u ≤ x && x ≤ u + lead

/-! ### T0 room (04 R120) -/

def State.t0Used (s : State) (t n : Nat) : Nat :=
  s.eng.t0.foldl (fun k c => if c.slice = n && c.tenant = t then k + c.bytes else k) 0

/-- T0_WORK of the layers that run for a tenant on a slice. -/
def State.t0Work (s : State) (t n : Nat) : Nat :=
  s.eng.steps.foldl (fun k e =>
    if e.2.tenant = t && (e.2.phase = 1 || e.2.phase = 2) && e.2.layer ≤ e.2.desc.last then
      k + (((s.model e.2.desc.model).bind fun m => m.layers[e.2.layer]?).map fun l => l.t0Work.getD n 0).getD 0
    else k) 0

/-- T0 that staging copies of a tenant may take on a slice. -/
def State.t0Limit (s : State) (t n : Nat) : Nat := s.t0ShareKib t n * 1024 - s.t0Work t n

/-- Bytes of staging copies that are issued and have not landed. -/
def State.t0Coming (s : State) (t n : Nat) : Nat :=
  s.eng.fetches.foldl (fun k e =>
    if e.2.slice = n && e.2.kind = 0 && e.2.issued && s.itemTenant e.2.item = t then k + ((s.homeOf e.2.item).map homeLen).getD 0 else k) 0

/-- T0 room for a staging copy. -/
def State.t0Room (s : State) (t n len : Nat) : Bool := s.t0Used t n + s.t0Coming t n + len ≤ s.t0Limit t n

/-! ### Plans (04 R111, R116-R118) -/

/-- An expert's tiles are staged: EXPERT_HORIZON is 0, or ROUTE selected it for the layer in the last steps (R108). -/
def expertIn (c : Cursor) (t : Tile) : Bool :=
  t.expert == 0xFFFF || c.horizon == 0 ||
  c.routed.any fun r => r.1 == t.layer && r.2.1 == t.expert && c.step ≤ r.2.2.1 + c.horizon

/-- The leading tiles of a layer on a slice that fill T0_PREFETCH (R117). -/
def prefixTiles (m : Model) (l : List Nat) (room : Nat) : List Nat :=
  (l.foldl (fun (a : List Nat × Nat × Bool) x =>
    let n := ((m.tiles[x]?).bind (·.ent.home)).map homeLen |>.getD 0
    if a.2.2 && a.2.1 + n ≤ room then (a.1 ++ [x], a.2.1 + n, true) else (a.1, a.2.1, false)) ([], 0, true)).1

/-- What staging moves for a layer on a slice: items with the kind of fetch, 0 T0 copy or 1 promotion. A poisoned item is not staged
(R122). -/
def State.stageItems (s : State) (c : Cursor) (layer n : Nat) : List (Item × Nat) :=
  match s.model c.model with
  | none => []
  | some m =>
    let tiles := (layerTiles m layer n).filter fun x => (m.tiles[x]?).any (expertIn c)
    let pre := prefixTiles m tiles (((m.layers[layer]?).map fun l => l.t0Pre.getD n 0).getD 0)
    let low := tiles.filter fun x => (m.tiles[x]?).any fun t => t.ent.home.any fun h => 2 ≤ h.tier
    let up (x : Nat) : Bool := (m.tiles[x]?).any fun t => t.place == 1 || t.place == 2
    let kvs := s.eng.seqs.flatMap fun z =>
      if z.2.handle = c.model && bit c.seqs z.1 then
        ((kvOn z.2 layer n).filter fun k => k.ent.home.any fun h => 2 ≤ h.tier).map fun k => (kvItem c.model z.1 k, 1)
      else []
    (pre.map (fun x => (Item.tile c.model x, 0)) ++ (low.filter up).map (fun x => (Item.tile c.model x, 1)) ++
      (low.filter fun x => !up x && !pre.contains x).map (fun x => (Item.tile c.model x, 0)) ++ kvs).filter
      fun i => !s.itemPoisoned i.1

/-- A fetch planned for a cursor's ordinal; fetches of an item merge, and each ordinal of a cursor counts once (R111). -/
def State.planFetch (s : State) (n cu x deadline : Nat) (i : Item) (kind : Nat) : State :=
  match s.eng.fetches.find? fun f => f.2.item == i && f.2.slice == n && f.2.kind == kind with
  | some f =>
    if f.2.plans.any fun p => p.1 == cu && p.2.1 == x then s
    else s.setEng { s.eng with fetches := tabSet s.eng.fetches f.1 { f.2 with plans := f.2.plans ++ [(cu, x, deadline)] } }
  | none =>
    if kind = 0 && s.inT0 n i (s.itemVersion i) then
      s.setEng { s.eng with t0 := s.eng.t0.map fun c =>
        if c.slice == n && c.item == i && !c.cursors.contains cu then { c with cursors := c.cursors ++ [cu], left := false } else c }
    else
      let f : Fetch := { item := i, slice := n, plans := [(cu, x, deadline)], kind := kind }
      s.setEng { s.eng with fetches := tabSet s.eng.fetches s.eng.nextFetch f, nextFetch := s.eng.nextFetch + 1 }

/-- A slice adds the fetches of one ordinal of a cursor. -/
def State.planOrdinal (s : State) (n cu x : Nat) (c : Cursor) : State :=
  (s.stageItems c (x % s.curLayers c) n).foldl (fun s i => s.planFetch n cu x (s.deadline c x) i.1 i.2) s

/-- Plans of fetches changed; a fetch without a plan goes away unless it is issued or a step waits for it. -/
def State.mapPlans (s : State) (f : Fetch → List (Nat × Nat × Nat)) : State :=
  s.setEng { s.eng with fetches := (s.eng.fetches.map fun e => (e.1, { e.2 with plans := f e.2 })).filter fun e =>
    !e.2.plans.isEmpty || e.2.issued || e.2.kind == 2 }

/-- A slice replans a cursor after a layer advance (R116). -/
def State.replan (s : State) (n cu : Nat) : State :=
  match s.cur cu with
  | none => s
  | some c =>
    let u := s.ordinal c
    let old := tabFind c.planned n
    -- unissued fetches: deadlines anew, and none for ordinals outside the horizon
    let s := s.mapPlans fun f =>
      if f.slice != n || f.issued then f.plans
      else (f.plans.filter fun p => p.1 != cu || horizon u c.lead p.2.1).map fun p =>
        if p.1 = cu && !c.paused then (p.1, p.2.1, s.deadline c p.2.1) else p
    let s := s.setEng { s.eng with fetches := s.eng.fetches.map fun e =>
      if e.2.slice = n && !e.2.issued then (e.1, { e.2 with noRoom := false }) else e }
    let entered := (List.range (c.lead + 1)).map (u + ·) |>.filter fun x => match old with
      | none => true
      | some p => !horizon p c.lead x
    let s := entered.foldl (fun s x => s.planOrdinal n cu x c) s
    s.modCur cu fun c => { c with planned := tabSet c.planned n u }

/-- LAYER_ADVANCE_RECEIVED (R107). -/
def layerAdvance (n cu : Nat) (s : State) : State :=
  if (s.sl n).state == 1 && s.eng.advances.contains (n, cu) then
    (s.setEng { s.eng with advances := s.eng.advances.erase (n, cu) }).replan n cu
  else s

/-! ### Victims (04 R119) -/

/-- Predicted next use of an item of a layer by the cursors bound to its model; none counts as latest. -/
def State.nextUse (s : State) (h layer : Nat) : Option Nat :=
  let l := s.eng.cursors.filterMap fun e =>
    if e.2.model != h || e.2.unbound then none
    else
      let L := s.curLayers e.2
      let u := s.ordinal e.2
      let d := (layer + L - u % L) % L
      some (s.tPred e.2 (if d = 0 then u + L else u + d))
  match l with
  | [] => none
  | x :: l => some (l.foldl min x)

/-- The item lies in the horizon of a bound cursor, or a running step reads it. -/
def State.inUse (s : State) (h layer : Nat) : Bool :=
  (s.eng.cursors.any fun e => e.2.model == h && !e.2.unbound &&
    (List.range (e.2.lead + 1)).any fun k => (s.ordinal e.2 + k) % s.curLayers e.2 == layer) ||
  s.eng.steps.any fun e => e.2.desc.model == h && (e.2.phase == 1 || e.2.phase == 2) && e.2.layer ≤ layer && layer ≤ e.2.desc.last

/-- Model, layer and placement of an engine item. -/
def State.engItem (s : State) (i : Item) : Option (Nat × Nat) :=
  match i with
  | .page _ => none
  | .tile h x => ((s.model h).bind fun m => m.tiles[x]?).map fun t => (h, t.layer)
  | .kv h _ l _ _ => some (h, l)
  | .act _ _ _ _ | .mapLine _ _ _ => none

/-- The victim whose demotion frees room in T1 for a tenant. -/
def State.victim (s : State) (t : Nat) : Option Item :=
  let cand := s.items.filter fun i =>
    s.itemTenant i == t && ((s.itemPlace i).1 == 1 || (s.itemPlace i).1 == 2) && ((s.homeOf i).any fun h => h.tier == 1) &&
    (s.moveOf i).isNone && (match s.engItem i with
      | none => false
      | some (h, l) => !s.inUse h l)
  let use (i : Item) : Option Nat := (s.engItem i).bind fun x => s.nextUse x.1 x.2
  let later (a b : Item) : Bool :=
    match use a, use b with
    | none, some _ => true
    | some x, some y => y < x
    | _, none => false
  let better (a b : Item) : Bool :=
    let pa := (s.itemPlace a).1
    let pb := (s.itemPlace b).1
    if pa != pb then pa == 2 else later a b
  match cand with
  | [] => none
  | i :: l => some (l.foldl (fun b x => if better x b then x else b) i)

/-! ### Issue and landing (04 R117-R124) -/

/-- The earliest deadline of a fetch whose cursor is not paused. -/
def State.fetchDue (s : State) (f : Fetch) : Option (Nat × Nat) :=
  let l := f.plans.filter fun p => (s.cur p.1).any fun c => !c.paused
  match l with
  | [] => none
  | p :: l => some (l.foldl (fun b x => if x.2.2 < b.1 || (x.2.2 == b.1 && x.2.1 < b.2) then (x.2.2, x.2.1) else b) (p.2.2, p.2.1))

/-- The plan of a fetch with the earliest deadline, of a cursor that is not paused. -/
def State.firstPlan (s : State) (f : Fetch) : Option (Nat × Nat × Nat) :=
  match f.plans.filter fun p => (s.cur p.1).any fun c => !c.paused with
  | [] => none
  | p :: l => some (l.foldl (fun b x => if x.2.2 < b.2.2 || (x.2.2 == b.2.2 && x.2.1 < b.2.1) then x else b) p)

/-- The cursor whose class a fetch is charged to (R108, 09 R282): that of its step, or of its earliest deadline. -/
def State.fetchCur (s : State) (f : Fetch) : Option Nat :=
  if f.kind = 2 then f.plans.head?.map (·.1) else ((s.firstPlan f) <|> f.plans.head?).map (·.1)

def State.fetchCls (s : State) (f : Fetch) : Nat :=
  ((s.fetchCur f).bind fun c => (s.cur c).map (·.cls)).getD ((s.tq (s.itemTenant f.item)).cls)

/-- Place of an item in its layer: the first op that reads it, then its place in the tile directory. -/
def State.itemOrder (s : State) (i : Item) : Nat × Nat :=
  match i with
  | .tile h x =>
    match s.model h with
    | none => (0, x)
    | some m => match m.tiles[x]? with
      | none => (0, x)
      | some t => (((m.layers[t.layer]?).map fun l => l.ops.findIdx fun p => p.opcode == 1 && refIdx p.src1 == t.tensor).getD 0, x)
  | .kv h _ l _ _ => ((((s.model h).bind fun m => m.layers[l]?).map fun l => l.ops.findIdx fun p => p.opcode == 2).getD 0, 0)
  | _ => (0, 0)

/-- The order of issue within a class: deadline, ordinal, op, tile directory (R123). -/
def State.issueKey (s : State) (f : Fetch) : List Nat :=
  let d := (s.fetchDue f).getD (0, 0)
  let o := s.itemOrder f.item
  [d.1, d.2, o.1, o.2]

/-- One key comes before another of its length. -/
def keyBefore : List Nat → List Nat → Bool
  | a :: l, b :: m => a < b || (a == b && keyBefore l m)
  | _, _ => false

/-- The next fetch of a slice: of a class that a free choice picks among those that wait, the first in the order of R123. -/
def State.nextIssue (s : State) (n : Nat) : Option (Nat × Fetch) × State :=
  let cand := s.eng.fetches.filter fun e => e.2.slice == n && !e.2.issued && !e.2.noRoom && (s.fetchDue e.2).isSome
  let clss := (cand.map fun e => s.fetchCls e.2).eraseDups
  let (d, s') := s.draw
  let k := clss.getD (d % max 1 clss.length) 0
  match cand.filter fun e => s.fetchCls e.2 == k with
  | [] => (none, s)
  | e :: l => (some (l.foldl (fun b x => if keyBefore (s.issueKey x.2) (s.issueKey b.2) then x else b) e), s')

def State.modFetch (s : State) (k : Nat) (f : Fetch → Fetch) : State :=
  match tabFind s.eng.fetches k with
  | none => s
  | some x => s.setEng { s.eng with fetches := tabSet s.eng.fetches k (f x) }

def State.dropFetch (s : State) (k : Nat) : State := s.setEng { s.eng with fetches := tabDel s.eng.fetches k }

/-- A read of an item in T3 or T4 begins. -/
def State.fetchRead (s : State) (i : Item) : State :=
  match s.homeOf i with
  | some h => if 2 < h.tier then s.farRead i h else s
  | none => s

/-- The table slot that an item's block names (05 R155): slice, slot, generation. -/
def State.slotNamed (s : State) (i : Item) : Option (Nat × Nat × Nat) :=
  ((s.homeOf i).bind (·.blk)).bind fun b => if b.coder = 2 then some (s.itemSlice i, b.slot, b.gen) else none

/-- A fetch is issued: its read begins, and what it reads counts as a reference of its table slot. -/
def State.issueFetch (s : State) (k : Nat) (kind : Nat) (item : Item) : State :=
  (s.modFetch k fun f => { f with issued := true, kind := kind, name := s.slotNamed item }).fetchRead item

/-- How soon a layer of a model comes for its cursors, in layers; a model without one counts as latest. -/
def State.nearness (s : State) (h layer : Nat) : Nat :=
  s.eng.cursors.foldl (fun b e =>
    if e.2.model != h || e.2.unbound then b
    else
      let L := s.curLayers e.2
      min b ((layer % L + L - s.ordinal e.2 % L) % L)) (2 ^ 32)

def State.copyNearness (s : State) (c : T0Copy) : Nat := ((s.engItem c.item).map fun x => s.nearness x.1 x.2).getD (2 ^ 32)

/-- Copies of aborted steps give way to a nearer layer that needs the space (R128), those of the farthest layer first. -/
def State.leftGive (s : State) (t n len near : Nat) : State :=
  let go (s : State) (_ : T0Copy) : State :=
    if s.t0Room t n len then s
    else match s.eng.t0.filter fun c => c.slice == n && c.tenant == t && c.left && near < s.copyNearness c with
      | [] => s
      | c :: l => s.setEng { s.eng with t0 := s.eng.t0.erase (l.foldl (fun b x => if s.copyNearness b < s.copyNearness x then x else b) c) }
  s.eng.t0.foldl go s

/-- T0_WORK of a layer that begins to run takes its room: a tenant's copies beyond what is left go, those that aborted steps left
first, then staging copies of the layers that come latest (R120). -/
def State.t0Trim (s : State) (t : Nat) : State :=
  let slot (s : State) (n : Nat) (_ : T0Copy) : State :=
    if s.t0Used t n ≤ s.t0Limit t n then s
    else
      let mine := s.eng.t0.filter fun c => c.slice == n && c.tenant == t
      let gone := match mine.filter (·.left) with
        | [] => mine.filter fun c => !c.demand
        | l => l
      match gone with
      | [] => s
      | c :: l => s.setEng { s.eng with t0 := s.eng.t0.erase (l.foldl (fun b x => if s.copyNearness b < s.copyNearness x then x else b) c) }
  (List.range 8).foldl (fun s n => s.eng.t0.foldl (fun s c => slot s n c) s) s

/-- A fetch becomes a T0 copy where there is T0 room, and waits otherwise; `turned` where no victim let it be a promotion (R119). -/
def State.issueCopy (s : State) (k : Nat) (f : Fetch) (turned : Bool) : State :=
  let len := ((s.homeOf f.item).map homeLen).getD 0
  let t := s.itemTenant f.item
  let s := s.leftGive t f.slice len (((s.engItem f.item).map fun x => s.nearness x.1 x.2).getD 0)
  let s := s.modFetch k fun f => { f with short := f.short || turned }
  if s.t0Room t f.slice len then s.issueFetch k 0 f.item
  else s.modFetch k fun f => { f with noRoom := true, short := true }

/-- A move of staging begins, in the class of the cursor of its fetch (09 R282). -/
def State.stageMove (s : State) (i : Item) (d : Home) (kind : Nat) (cu : Option Nat) (pair : Option Item) : State :=
  let s := s.beginMove i d kind
  s.setPool { s.pool with moves := s.pool.moves.map fun m => if m.item == i then { m with cursor := cu, pair := pair } else m }

/-- STAGING_FETCH_ISSUE: the next fetch of a slice is issued, with a paired demotion where T1 has no room (R118, R119). An item
found poisoned is not retried (R122). -/
def stagingIssue (n : Nat) (s : State) : State :=
  if (s.sl n).state != 1 then s else
  match s.nextIssue n with
  | (none, s) => s
  | (some (k, f), s) =>
    match s.homeOf f.item with
    | none => s.dropFetch k
    | some h =>
      if s.itemPoisoned f.item then s.dropFetch k
      else if f.kind = 0 then s.issueCopy k f false
      else if h.tier = 1 || (s.moveOf f.item).isSome then s.dropFetch k
      else
        let t := s.itemTenant f.item
        let cu := s.fetchCur f
        let start (s : State) : Option State :=
          (s.promoteTo f.item h).map fun d =>
            (s.modFetch k fun f => { f with issued := true, name := s.slotNamed f.item }).stageMove f.item d 6 cu none
        match (if s.itemNeed f.item h ≤ s.quotaLeft t 1 then start s else none) with
        | some s => s
        | none =>
          match s.victim t with
          | none => s.issueCopy k f true
          | some v =>
            match s.homeOf v with
            | none => s.issueCopy k f true
            | some vh =>
              match s.demoteTo v vh with
              | (none, s) => s.issueCopy k f true
              | (some d, s) => (s.stageMove v d 7 cu (some f.item)).issueFetch k 1 f.item

/-- A copy lands in T0 of a slice: the read of its home is charged to a class. -/
def State.landCopy (s : State) (c : T0Copy) (cls : Nat) : State :=
  let len := ((s.homeOf c.item).map homeLen).getD 0
  let s := match s.homeOf c.item with
    | some h => s.access (s.itemSlice c.item) h 0 (homeLen h) false cls
    | none => s
  let c := { c with tenant := s.itemTenant c.item, bytes := len, name := s.slotNamed c.item }
  s.setEng { s.eng with t0 := (s.eng.t0.filter fun x => !(x.slice == c.slice && x.item == c.item && x.version == c.version)) ++ [c] }

/-- The T0 copy that a staging or demand fetch makes. -/
def State.copyOf (s : State) (f : Fetch) (version : Nat) : T0Copy :=
  { slice := f.slice, item := f.item, version := version, tenant := 0, bytes := 0, layer := ((s.engItem f.item).map (·.2)).getD 0,
    cursors := (f.plans.map (·.1)).eraseDups, demand := f.kind == 2 }

/-- The read of an item's home gives no data: its controller is frozen, or its window or tray is lost. -/
def State.unreadable (s : State) (i : Item) : Bool :=
  match s.homeOf i with
  | none => true
  | some h => (s.homeFrozen (s.itemSlice i) h 0 (homeLen h)).isSome || (2 < h.tier && !s.farOk h)

/-- A fetch lands as a copy in T0: a demand fetch, or a staging copy that still has its room (R120), else it waits for room. -/
def State.landFetch (s : State) (k : Nat) (f : Fetch) (version : Nat) : State :=
  let len := ((s.homeOf f.item).map homeLen).getD 0
  if f.kind = 2 then ((s.landCopy { s.copyOf f version with left := true } (s.fetchCls f))).dropFetch k
  else if s.t0Used (s.itemTenant f.item) f.slice + len ≤ s.t0Limit (s.itemTenant f.item) f.slice then
    (s.landCopy (s.copyOf f version) (s.fetchCls f)).dropFetch k
  else s.modFetch k fun f => { f with issued := false, noRoom := true, short := true }

/-- STAGING_FETCH_DONE: a fetch lands as a T0 copy or a promotion (R117-R119, R337). A promotion for which one demotion has not
freed enough room waits to be issued again. -/
def stagingDone (k : Nat) (s : State) : State :=
  match tabFind s.eng.fetches k with
  | none => s
  | some f =>
    -- a demand fetch lands with its step (R126), or here once that step has aborted (R128)
    let held := f.kind = 2 && (tabFind s.eng.steps f.step).any fun x => x.phase == 2
    if !f.issued || held || s.farBusy f.item then s
    else if s.unreadable f.item || s.itemPoisoned f.item then s.dropFetch k
    else if f.kind != 1 then s.landFetch k f (s.itemVersion f.item)
    else
      -- the paired demotion runs first
      let t := s.itemTenant f.item
      let pair := s.pool.moves.find? fun m => m.kind == 7 && m.pair == some f.item
      let s := match s.moveOf f.item, pair with
        | none, some m => moveSwitch m.item s
        | _, _ => s
      match s.moveOf f.item, s.homeOf f.item with
      | some _, _ => (moveSwitch f.item s).dropFetch k
      | none, some h =>
        if h.tier = 1 then s.dropFetch k
        else if s.quotaLeft t 1 < s.itemNeed f.item h then s.modFetch k fun f => { f with issued := false }
        else match s.promoteTo f.item h with
          | some d => (moveSwitch f.item (s.stageMove f.item d 6 (s.fetchCur f) none)).dropFetch k
          | none => s.modFetch k fun f => { f with issued := false }
      | none, none => s.dropFetch k

/-- DEADLINE_MISS: staging of an ordinal is not complete on some slice at its deadline. -/
def deadlineMiss (cu x : Nat) (s : State) : State :=
  match s.cur cu with
  | none => s
  | some c =>
    let left := s.eng.fetches.filter fun e => e.2.kind != 2 && e.2.plans.any fun p => p.1 == cu && p.2.1 == x
    if left.isEmpty || c.missed.contains x then s
    else
      let due := left.foldl (fun d e => (e.2.plans.filter fun p => p.1 == cu && p.2.1 == x).foldl (fun d p => max d p.2.2) d) 0
      (s.until due).modCur cu fun c => { c with misses := c.misses + 1, missed := (x :: c.missed).take 64 }

/-- Copies leave T0 when a layer completes on every slice for the cursors that planned them (R117). -/
def State.layerLeaves (s : State) (cu h layer : Nat) : State :=
  let mine (c : T0Copy) : Bool := c.layer == layer && (s.engItem c.item).any fun x => x.1 == h
  let left := s.eng.t0.map fun c => if mine c then { c with cursors := c.cursors.filter (· != cu) } else c
  s.setEng { s.eng with t0 := left.filter fun c => !(mine c && c.cursors.isEmpty) }

/-- A cursor's unissued fetches are dropped (R112). -/
def State.dropPlans (s : State) (cu : Nat) : State :=
  s.mapPlans fun f => if f.issued then f.plans else f.plans.filter fun p => p.1 != cu

def execLayerAdvanceReceived (slice cu : Nat) (s : State) : Host.Outcome State Fault Refusal := .next (layerAdvance slice cu s)
def execStagingFetchIssue (slice : Nat) (s : State) : Host.Outcome State Fault Refusal := .next (stagingIssue slice s)
def execStagingFetchDone (fetch : Nat) (s : State) : Host.Outcome State Fault Refusal := .next (stagingDone fetch s)
def execDeadlineMiss (cu ordinal : Nat) (s : State) : Host.Outcome State Fault Refusal := .next (deadlineMiss cu ordinal s)

end Sys2Proof.Machine
end

