-- ==== Sys2Proof/Machine/Steps.lean ====
section
/-! DEFINITION. Submission queues, steps from consumption to completion, readiness and stalls (03 R86-R98, 04 R125-R131,
15 R517-R519, R527). -/
namespace Sys2Proof.Machine
open Sys2Proof

/-! ### Steps and sequences -/

def State.step' (s : State) (id : Nat) : Option StepSt := tabFind s.eng.steps id
def State.setStep (s : State) (id : Nat) (x : StepSt) : State := s.setEng { s.eng with steps := tabSet s.eng.steps id x }
def State.modStep (s : State) (id : Nat) (f : StepSt → StepSt) : State :=
  match s.step' id with
  | none => s
  | some x => s.setStep id (f x)

/-- Sequence numbers that a bitmap names, ascending. -/
def seqList (mask : Nat) : List Nat := (List.range 128).filter (bit mask)

/-- Two bitmaps name a common sequence. -/
def meets (a b : Nat) : Bool := (List.range 128).any fun n => bit a n && bit b n

/-- The slice that hosts a sequence (R86). -/
def hostSlice (n : Nat) : Nat := n / 16

/-- Layers of a step's range. -/
def stepLayers (m : Model) (d : Desc) : List Layer := (m.layers.drop d.first).take (d.last + 1 - d.first)

/-- A step has work on a slice (15 R519). -/
def State.hasWork (s : State) (x : StepSt) (n : Nat) : Bool :=
  ((seqList x.desc.seqs).any fun q => hostSlice q == n) ||
  match s.model x.desc.model with
  | none => false
  | some m => (List.range (x.desc.last + 1 - x.desc.first)).any fun k => !(layerTiles m (x.desc.first + k) n).isEmpty

/-- Slices on which a step has work. -/
def State.workSlices (s : State) (x : StepSt) : List Nat := (List.range 8).filter (s.hasWork x)

/-- The engine side of a slice carries out ops: in service or draining, awake, its clock not relocking, and not fenced for
a self-test of its clusters or its T0 (18 R576). -/
def State.engineRuns (s : State) (n : Nat) : Bool :=
  ((s.sl n).state == 1 || (s.sl n).state == 2) && !(s.sl n).parked && !(s.ck n).relock && !s.bistOn n [0, 1]

def State.stepRuns (s : State) (x : StepSt) : Bool := (s.workSlices x).all s.engineRuns

/-- Work of a step on its slices is noted (15 R527). -/
def State.noteWork (s : State) (x : StepSt) : State :=
  (s.workSlices x).foldl (fun s n => s.modSl n fun r => { r with lastWork := s.tbc }) s

/-! ### The cursor extent (01 R20) -/

/-- Bytes of a write to one line, with its byte-enable mask, cut from bytes that begin at `a`. -/
def lineCut (a : Nat) (b : Bytes) (line : Nat) : Bytes × Nat :=
  let idx := List.range 64
  let in_ (k : Nat) : Bool := a ≤ 64 * line + k && 64 * line + k < a + b.length
  (idx.map fun k => if in_ k then b.getD (64 * line + k - a) 0 else 0, idx.foldl (fun m k => if in_ k then m + 2 ^ k else m) 0)

/-- A write of the module into pool memory, line by line. -/
def State.devWrite (s : State) (cls a : Nat) (b : Bytes) (poison : Bool) : State :=
  if b.isEmpty then s
  else (List.range ((a + b.length - 1) / 64 + 1 - a / 64)).foldl (fun s k =>
    let line := a / 64 + k
    let (d, be) := lineCut a b line
    s.applyWrite { link := none, pbr := none, host := 0, line := line, data := d, be := be, poison := poison, arrival := s.tbc,
                   cls := cls, done := true }) s

def State.extRead (s : State) (a n : Nat) : Bytes := memReadN s.pool.mem a n

/-! ### Doorbells and the completion ring (03 R89, R90, R95) -/

def State.queue (s : State) (cu q : Nat) : Option Queue := (s.cur cu).bind fun c => tabFind c.queues q
def State.modQueue (s : State) (cu q : Nat) (f : Queue → Queue) : State :=
  s.modCur cu fun c => match tabFind c.queues q with
    | none => c
    | some x => { c with queues := tabSet c.queues q (f x) }

def setFlag (f : BitVec 6) (k : Nat) : BitVec 6 := f ||| BitVec.ofNat 6 (2 ^ k)

/-- An event at a crossing whose receiving clock stands still: it waits, or merges with the one that waits, which sets
CLK_OVERRUN and is recorded (16 R540, R542, R543). -/
def State.event (s : State) (n group : Nat) : State :=
  let c := s.ck n
  if !c.busyGroups.contains group then s.modCk n fun c => { c with busyGroups := group :: c.busyGroups }
  else
    let m := tabGet (0, s.tbc) c.merges group
    let s := s.modCk n fun c => { c with overrun := c.overrun ||| BitVec.ofNat 16 (2 ^ group), merges := tabSet c.merges group (m.1 + 1, m.2) }
    let scope := 16 * n + group
    let open_ := s.limitOpen 0x0016 scope (100 * ms)
    let s := s.recordLim 0 0x0016 scope (100 * ms) fun held =>
      flds [(1, n), (1, group), (2, held), (4, min (m.1 + 1) 0xFFFFFFFF), (8, m.2)]
    if open_ then s.modCk n fun c => { c with merges := tabDel c.merges group } else s

/-- The slice whose Rangefinder serves a cursor: that which owns its line (04 R107). -/
def State.cursorHome (s : State) (c : Cursor) : Nat := s.sliceOf (c.extent + c.lineOff)

/-- The tail of a queue is taken from its doorbell (R90). -/
def State.takeTail (cu q : Nat) (s : State) : State :=
  match s.cur cu, s.queue cu q with
  | some c, some x =>
    let t := ofLe (s.extRead (c.extent + c.lineOff + 32 + 4 * q) 2)
    if c.unbound then s
    else if x.depth ≤ t then s.modCur cu fun c => { c with flags := setFlag c.flags 5 }
    else s.modQueue cu q fun x => { x with tail := t, rungAt := s.tbc }
  | _, _ => s

/-- DOORBELL: taken at once, or when the engine clock of the cursor's slice runs again (16 R543). -/
def doorbell (cu q : Nat) (s : State) : State :=
  match s.cur cu with
  | none => s
  | some c =>
    let n := s.cursorHome c
    if c.unbound || (s.queue cu q).isNone then s
    else if (s.ck n).relock then s.event n 1
    else if c.due then s.modCur cu fun c => { c with rung := c.rung ++ [q] }
    else s.takeTail cu q

/-- The events that waited for a slice's engine clock are delivered: the receiver reads every doorbell that backs them. -/
def State.deliverEvents (s : State) (n : Nat) : State :=
  if (s.ck n).relock || !(s.ck n).busyGroups.contains 1 then s
  else
    let s := s.modCk n fun c => { c with busyGroups := c.busyGroups.filter (· != 1) }
    s.eng.cursors.foldl (fun s e =>
      if s.cursorHome e.2 != n then s else e.2.queues.foldl (fun s q => s.takeTail e.1 q.1) s) s

/-- The head that host software has written to the queue control line. -/
def State.readHead (s : State) (cu q : Nat) : State :=
  match s.cur cu, s.queue cu q with
  | some c, some x =>
    let h := ofLe (s.extRead (c.extent + x.ctrl) 2) % max 1 x.depth
    let n := (h + x.depth - x.hostHead % max 1 x.depth) % max 1 x.depth
    if n ≤ x.unread then s.modQueue cu q fun x => { x with hostHead := h, unread := x.unread - n } else s
  | _, _ => s

/-! ### Consumption (03 R87, R91, R92) -/

/-- A descriptor as its bytes stand (R91), and whether its reserved fields and TYPE are admitted. -/
def readDesc (b : Bytes) : Desc :=
  { type := fld b 0 1, flags := fld b 1 1, cmdId := fld b 2 2, model := fld b 4 2, first := fld b 6 2, last := fld b 8 2,
    res0 := fld b 10 2, tag := fld b 12 4, seqs := fld b 16 16, seed := fld b 32 8, inOff := fld b 40 8, outOff := fld b 48 8,
    outBytes := fld b 56 4, res1 := fld b 60 4 }

def Desc.opens (d : Desc) : Bool := bit d.flags 0
def Desc.closes (d : Desc) : Bool := bit d.flags 1
def Desc.irq (d : Desc) : Bool := bit d.flags 2
def Desc.fence (d : Desc) : Bool := bit d.flags 3

def maxOf (l : List Nat) : Nat := l.foldl max 0

/-- Record sizes of a step's input and output areas (R91). -/
def inRecord (m : Model) (d : Desc) : Nat := maxOf ((stepLayers m d).map (·.inRec))
def outRecord (m : Model) (d : Desc) : Nat := maxOf ((stepLayers m d).map (·.outRec))

/-- The slot of a sequence number is open for a pair. -/
def State.slotOpen (s : State) (t h n : Nat) : Bool := (s.seq n).any fun z => z.tenant == t && z.handle == h

/-- The checks of R92 in code order: the code of the first that fails. An INPUT_OFFSET or OUTPUT_OFFSET that is no multiple of 64
(R91) has the code AREA_RANGE (DESIGN CHOICE, log 98). -/
def State.descRefusal (s : State) (c : Cursor) (d : Desc) : Option Nat :=
  let ns := seqList d.seqs
  if d.type != 1 || 16 ≤ d.flags || d.res0 != 0 || d.res1 != 0 then some 1
  else match s.model d.model with
    | none => some 2
    | some m =>
      if m.tenant != c.tenant || m.unloading.isSome then some 2
      else if d.last < d.first || m.layers.length ≤ d.last then some 3
      else if ns.isEmpty || ns.any fun n => 16 * s.cfg.slices ≤ n then some 4
      else if !d.opens && ns.any fun n => !s.slotOpen c.tenant d.model n then some 5
      else if d.opens && ns.any fun n => (s.seq n).isSome && !s.slotOpen c.tenant d.model n then some 6
      else if d.opens && m.maxSeq < (s.openSlots d.model).length + (ns.filter fun n => (s.seq n).isNone).length then some 7
      else if (stepLayers m d).any (fun l => l.ops.any fun p => p.opcode == 2) &&
          ns.any (fun n => (s.seq n).any fun z => m.maxCtx ≤ z.tokens) then some 8
      else
        let len := ((tabFind s.pool.extents c.extent).map (·.len)).getD 0
        if d.inOff % 64 != 0 || d.outOff % 64 != 0 || len < d.inOff + ns.length * inRecord m d || len < d.outOff + d.outBytes ||
            d.outBytes < ns.length * outRecord m d then some 9
        else none

/-- Steps that wait for a sequence (R87). -/
def State.waitingFor (s : State) (n : Nat) : Nat := (s.eng.steps.filter fun e => e.2.phase == 0 && bit e.2.desc.seqs n).length

/-- A step that ends without running. -/
def endedStep (x : StepSt) (cond detail : Nat) : StepSt :=
  { x with phase := 3, conds := setBit x.conds cond true, detail := detail }

/-- A lower queue of a cursor whose doorbell changed together with this one's still has entries to consume (R93). -/
def Cursor.lowerFirst (c : Cursor) (q at_ : Nat) : Bool :=
  c.queues.any fun e => decide (e.1 < q) && e.2.rungAt == at_ && e.2.head != e.2.tail && decide (e.2.unread < e.2.depth)

/-- STEP_CONSUME (R92, R87, R93). -/
def stepConsume (cu q : Nat) (s : State) : State :=
  let s := s.readHead cu q
  match s.cur cu, s.queue cu q with
  | some c, some x =>
    if c.unbound || x.head = x.tail || x.depth ≤ x.unread || c.lowerFirst q x.rungAt then s
    else
      let d := readDesc (s.extRead (c.extent + x.sq + 64 * x.head) 64)
      let head := (x.head + 1) % max 1 x.depth
      let st : StepSt := { cursor := cu, queue := q, tenant := c.tenant, desc := d, sqHead := head }
      let id := s.eng.nextStep
      let s := (s.modQueue cu q fun x => { x with head := head })
      let s := s.setEng { s.eng with nextStep := id + 1 }
      match s.descRefusal c d with
      | some k => s.setStep id (endedStep st 6 k)
      | none =>
        let ns := seqList d.seqs
        if ns.any fun n => 4 ≤ s.waitingFor n then s.setStep id (endedStep st 10 0)
        else
          -- the slots are the pair's from now on; they are zeroed when the step starts
          let new := ns.filter fun n => (s.seq n).isNone
          let s := if d.opens then new.foldl (fun s n =>
            s.setEng { s.eng with seqs := tabSet s.eng.seqs n { tenant := c.tenant, handle := d.model } }) s else s
          s.setStep id { st with opened := if d.opens then new else [] }
  | _, _ => s

/-! ### The end of a step (03 R96, R97, R608) -/

/-- Old homes of replaced tiles whose last reader has ended are freed (R97). -/
def State.freeOld (s : State) : State :=
  s.eng.oldTiles.foldl (fun s o =>
    if s.eng.steps.any fun e => (e.2.phase = 1 || e.2.phase = 2) && e.2.desc.model = o.1 && e.2.admitted < o.2.2.1 then s
    else
      let s := match o.2.2.2.ent.home with
        | some h => s.freeHome o.2.2.2.slice h o.2.2.2.ent.bad
        | none => s
      let gone (c : T0Copy) : Bool := c.item == Item.tile o.1 o.2.1 && c.version == o.2.2.2.version
      s.setEng { s.eng with oldTiles := s.eng.oldTiles.erase o, t0 := s.eng.t0.filter fun c => !gone c }) s

/-- A sequence slot is closed: its KV blocks return to the model's reservation, its ACTIVATION blocks are freed, and what was under
way for them ends (R86). -/
def State.closeSeq (s : State) (q : Nat) : State :=
  match s.seq q with
  | none => s
  | some z =>
    let mine (i : Item) : Bool := match i with
      | .kv _ n _ _ _ => n == q
      | .act n _ _ _ => n == q
      | _ => false
    let homes := (z.kv.map fun k => (k.slice, k.ent)) ++ z.acts.map fun a => (a.slice, a.ent)
    let s := homes.foldl (fun s k => match k.2.home with
      | some h => s.freeHome k.1 h k.2.bad
      | none => s) s
    let s := s.setPool { s.pool with moves := s.pool.moves.filter fun m => !mine m.item }
    s.setEng { s.eng with seqs := tabDel s.eng.seqs q, fetches := s.eng.fetches.filter fun f => !mine f.2.item,
                          t0 := s.eng.t0.filter fun c => !mine c.item }

/-- Slots that a step opened and never ran with are free again. -/
def State.unopen (s : State) (x : StepSt) : State :=
  x.opened.foldl (fun s n =>
    if s.slotOpen x.tenant x.desc.model n then s.setEng { s.eng with seqs := tabDel s.eng.seqs n } else s) s

/-- A KV block as it stood at admission: where its content has not changed, at the home where it now is. -/
def KvBlk.asBefore (now : List KvBlk) (k : KvBlk) : KvBlk :=
  match now.find? (k.same ·) with
  | some n => if n.data = k.data then { k with ent := n.ent } else k
  | none => k

/-- The named sequences stand as they did at admission (R128, 15 R518). The homes of KV blocks that the step wrote are freed. -/
def State.restore (s : State) (x : StepSt) : State :=
  x.before.foldl (fun s z =>
    match s.seq z.1 with
    | none => s
    | some now =>
      if !s.slotOpen x.tenant x.desc.model z.1 then s
      else
        let gone := now.kv.filter fun k => !z.2.kv.any fun b => b.same k && b.data == k.data
        let item (k : KvBlk) : Item := kvItem x.desc.model z.1 k
        let s := gone.foldl (fun s k => match k.ent.home with
          | some h => (s.freeHome k.slice h k.ent.bad).setPool { s.pool with moves := s.pool.moves.filter fun m => m.item != item k }
          | none => s) s
        s.setEng { s.eng with seqs := tabSet s.eng.seqs z.1 { z.2 with kv := z.2.kv.map (KvBlk.asBefore now.kv) },
                              t0 := s.eng.t0.filter fun c => !gone.any fun k => item k == c.item }) s

/-- A model that is unloading goes once no admitted step of it runs (R98): its slots are freed, its cursors unbind. -/
def State.unloadDone (s : State) (h : Nat) : State :=
  match s.model h with
  | none => s
  | some m =>
    match m.unloading with
    | none => s
    | some v =>
      if s.eng.steps.any fun e => (e.2.phase = 1 || e.2.phase = 2) && e.2.desc.model = h then s
      else
        let mine (i : Item) : Bool := (s.engItem i).any (fun x => x.1 == h) || match i with
          | .act q _ _ _ => (s.seq q).any fun z => z.handle == h
          | _ => false
        let homes := m.tiles.filterMap fun t => t.ent.home.map fun o => (t.slice, o, t.ent.bad)
        let kvs := s.eng.seqs.flatMap fun z => if z.2.handle = h then
            (z.2.kv.filterMap fun k => k.ent.home.map fun o => (k.slice, o, k.ent.bad)) ++
            z.2.acts.filterMap fun a => a.ent.home.map fun o => (a.slice, o, a.ent.bad) else []
        let s1 := (homes ++ kvs).foldl (fun s x => s.freeHome x.1 x.2.1 x.2.2) s
        let s1 := s1.setPool { s1.pool with moves := s1.pool.moves.filter fun v => !mine v.item }
        let e := s1.eng
        let s1 := s1.setEng { e with models := tabDel e.models h, seqs := e.seqs.filter (fun z => z.2.handle != h),
                                     fetches := e.fetches.filter (fun f => !mine f.2.item), t0 := e.t0.filter (fun c => !mine c.item),
                                     oldTiles := e.oldTiles.filter (fun o => o.1 != h),
                                     cursors := e.cursors.map fun c => if c.2.model = h then (c.1, { c.2 with unbound := true }) else c }
        (s1.signal (.vf m.tenant) 3).bgDone v 0xC011 .success []

/-- A step ends: its conditions are set, it holds nothing any longer (R608). -/
def State.endStep (s : State) (id conds : Nat) : State :=
  match s.step' id with
  | none => s
  | some x =>
    ((s.setStep id { x with phase := 3, conds := x.conds ||| conds, missing := [], before := [] }).freeOld).unloadDone x.desc.model

/-- A step stops early: no output, the sequences as at admission; the steps of its cursor that wait for them end alike
(R128, R129, 15 R518). -/
def State.abortStep (s : State) (id cond : Nat) (lastDone : Nat → Nat) : State :=
  match s.step' id with
  | none => s
  | some x =>
    let ran := x.phase = 1 || x.phase = 2
    let s := if ran then s.restore x else s.unopen x
    let s := s.setStep id { x with outBuf := [], outBytes := 0, lastDone := lastDone x.lastDone }
    let s := s.endStep id (2 ^ cond)
    (s.eng.steps.filter fun e => e.2.phase == 0 && e.2.cursor == x.cursor && meets e.2.desc.seqs x.desc.seqs).foldl
      (fun s e => (s.unopen e.2).endStep e.1 (2 ^ cond)) s

/-! ### Starting (03 R87, R92, R93, R98; 11 R360; 15 R525) -/

/-- The step's completion frees its slots (R86, R608); a step that R92 refused closes none. -/
def StepSt.frees (x : StepSt) : Bool := x.desc.closes && !(bit x.conds 6 && !x.everRan)

/-- A step may start: the order of its queue, FENCE, its sequences and the slices it needs. -/
def State.mayStart (s : State) (id : Nat) (x : StepSt) : Bool :=
  let earlier := s.eng.steps.filter fun e => e.1 < id
  (earlier.all fun e => !(e.2.cursor == x.cursor && e.2.queue == x.queue) || (e.2.phase != 0 && !x.desc.fence)) &&
  (earlier.all fun e => !meets e.2.desc.seqs x.desc.seqs || (e.2.phase == 3 && !e.2.frees)) &&
  ((s.workSlices x).all fun n => (s.sl n).state == 1 && !(s.sl n).parked && !(s.ck n).relock) &&
  !(s.rst.tenants.any fun t => t.1 == x.tenant)

/-- A layer of the step's range has a poisoned tile. -/
def State.degradedFor (m : Model) (d : Desc) : Bool :=
  m.tiles.any fun t => t.ent.poisoned && d.first ≤ t.layer && t.layer ≤ d.last

/-- A sequence slot as SEQ_OPEN leaves it (R86). -/
def freshSeq (z : Seq) : Seq := { tenant := z.tenant, handle := z.handle }

/-! ### ACTIVATION blocks (05 R136, R150; 06 R171, R181; log 93) -/

/-- A 4 KiB piece of a scratch buffer is stored in T2 of its slice at PS2, where the tenant's quota and T2 have room. -/
def State.spillBlock (s : State) (q n buf blk : Nat) (data : Bytes) : State :=
  match s.seq q with
  | none => s
  | some z =>
    let (b, s) := s.condenseOn n 3 2 1 0 false data
    if s.quotaLeft z.tenant 2 < rawSectors 2 * 256 then s
    else match s.alloc n 2 (b.sectors * 256) with
      | none => s
      | some a =>
        let h : Home := { tier := 2, ma := a.1, skips := a.2, blk := some b }
        let z' : Seq := { z with acts := z.acts ++ [{ slice := n, buf := buf, blk := blk, ent := { home := some h } }] }
        ((s.setEng { s.eng with seqs := tabSet s.eng.seqs q z' }).countBlock n b).access n h 0 (homeLen h) true (s.tq z.tenant).cls

/-- At the end of a step the engine may spill the scratch buffers of its sequences: a free choice for each. -/
def State.spill (s : State) (q : Nat) : State :=
  match s.seq q with
  | none => s
  | some z =>
    let (d, s) := s.draw
    if d % 2 = 0 then s
    else z.scratch.foldl (fun s e =>
      (List.range ((e.2.length + 4095) / 4096)).foldl (fun s k =>
        let b := slice e.2 (4096 * k) (min 4096 (e.2.length - 4096 * k))
        s.spillBlock q (e.1 / 16) (e.1 % 16) k (b ++ List.replicate (4096 - b.length) 0)) s) s

/-- One ACTIVATION block is read back and freed; none where it is poison to the step (11 R358). -/
def State.unspillBlock (s : State) (q cls : Nat) (a : ActBlk) : Bool × State :=
  let i := Item.act q a.slice a.buf a.blk
  match a.ent.home with
  | none => (false, s)
  | some h =>
    if (s.homeFrozen a.slice h 0 (homeLen h)).isSome then (false, s.freeHome a.slice h a.ent.bad)
    else
      let s := s.access a.slice h 0 (homeLen h) false cls
      match h.blk with
      | none => (false, s)
      | some b => match s.decodeItem i b 0 0 0 with
        | (none, s) => (false, s)
        | (some _, s) => (true, s.freeHome a.slice h a.ent.bad)

/-- The spilled buffers of a sequence return to T0 as a step that names it starts. The buffers with a block that could not be read. -/
def State.unspill (s : State) (q cls : Nat) : List Nat × State :=
  match s.seq q with
  | none => ([], s)
  | some z =>
    let mine (m : Move) : Bool := match m.item with
      | .act n _ _ _ => n == q
      | _ => false
    let (bad, s) := z.acts.foldl (fun (b : List Nat × State) a =>
      let (good, s) := b.2.unspillBlock q cls a
      (if good then b.1 else a.buf :: b.1, s)) ([], s)
    let s := s.setPool { s.pool with moves := s.pool.moves.filter fun m => !mine m }
    (bad, match s.seq q with
      | none => s
      | some z =>
        let z' : Seq := { z with acts := [], taint := bad.foldl (fun t k => setBit t k true) z.taint }
        s.setEng { s.eng with seqs := tabSet s.eng.seqs q z' })

/-- STEP_START. A step that finds a slot of its own closed since it was consumed ends as one that named it unopened, with detail
SEQ_NOT_OPEN (DESIGN CHOICE, log 98). -/
def stepStart (id : Nat) (s : State) : State :=
  match s.step' id with
  | none => s
  | some x =>
    if x.phase != 0 || !s.mayStart id x then s
    else match s.model x.desc.model with
      | none => s.setStep id (endedStep x 6 2)
      | some m =>
        let ns := seqList x.desc.seqs
        if m.lost != 0 then (s.unopen x).endStep id (2 ^ 9)
        else if ns.any fun n => !s.slotOpen x.tenant x.desc.model n then s.setStep id (endedStep x 6 5)
        else if State.degradedFor m x.desc then (s.unopen x).endStep id (2 ^ 5)
        else
          let s := if x.desc.opens then ns.foldl (fun s n => match s.seq n with
            | some z =>
              let s := s.closeSeq n
              s.setEng { s.eng with seqs := tabSet s.eng.seqs n (freshSeq z) }
            | none => s) s else s
          let cls := ((s.cur x.cursor).map (·.cls)).getD 0
          let (hurt, s) := ns.foldl (fun (a : List Nat × State) n =>
            let (bad, s) := a.2.unspill n cls
            (if bad.isEmpty then a.1 else n :: a.1, s)) ([], s)
          let before := ns.filterMap fun n => (s.seq n).map fun z => (n, z)
          ((s.setStep id { x with phase := 1, layer := x.desc.first, op := 0, ready := false, everRan := true, before := before,
                                  admitted := s.eng.versions, poisonSeqs := hurt }).noteWork x).t0Trim x.tenant

/-! ### Readiness (04 R125, R126, R130) -/

/-- Experts that ROUTE selected for a step's sequences, as a slice holds them. -/
def State.expertsOn (s : State) (x : StepSt) (n table : Nat) : List Nat :=
  ((seqList x.desc.seqs).flatMap fun q => ((s.seq q).map fun z => (tabGet ([] : List (Nat × Nat)) z.routing (n * 4 + table)).map (·.1)).getD []).eraseDups

/-- The step stands at a point where readiness is checked: the first op of a phase, or a ROUTED MATMUL. -/
def needsCheck (l : Layer) (op : Nat) : Bool :=
  op == 0 || op == l.attn || op == l.ffn || op == l.post || (l.ops[op]?).any fun p => p.opcode == 1 && p.routed

/-- Items that a step needs at its present point on a slice. -/
def State.needed (s : State) (x : StepSt) (m : Model) (l : Layer) (n : Nat) : List Item :=
  let h := x.desc.model
  let first := x.op == 0 || x.op == l.attn || x.op == l.ffn || x.op == l.post
  let ph := phaseOf l x.op
  let mine := l.ops.zipIdx.filter fun p => phaseOf l p.2 == ph
  let tiles := if first then mine.flatMap fun p =>
      if p.1.opcode = 1 && !p.1.routed then tensorTiles m x.layer (refIdx p.1.src1) n else [] else []
  let kvs := if first && mine.any fun p => p.1.opcode == 2 then
      (seqList x.desc.seqs).flatMap fun q => ((s.seq q).map fun z => (kvOn z x.layer n).map (kvItem h q)).getD [] else []
  let routed := match l.ops[x.op]? with
    | some p =>
      if p.opcode = 1 && p.routed then
        let es := s.expertsOn x n p.param0
        (tensorTiles m x.layer (refIdx p.src1) n).filter fun k => (m.tiles[k]?).any fun t => es.contains t.expert
      else []
    | none => []
  (tiles ++ routed).eraseDups.map (fun k => Item.tile h k) ++ kvs

/-- Missing items with the slice that reads them. -/
def State.missing (s : State) (x : StepSt) (m : Model) (l : Layer) : List (Item × Nat) :=
  (List.range 8).flatMap fun n => ((s.needed x m l n).filter fun i => !s.resident n x.admitted i && !s.itemPoisoned i).map fun i => (i, n)

/-- Why an item is missing (R130). What this step's own ROUTE selected does not count as selected before. -/
def State.missCause (s : State) (id : Nat) (x : StepSt) (i : Item) (n : Nat) : Nat :=
  match s.eng.fetches.find? fun f => f.2.item == i && f.2.slice == n && f.2.kind != 2 with
  | some f => if f.2.restage then 5 else if f.2.short then 2 else if f.2.issued then 0 else 1
  | none =>
    let other := s.eng.t0.any fun c => c.slice == n && c.item == i
    let filtered := match i, s.cur x.cursor with
      | .tile h k, some c => c.model == h && ((s.model h).bind fun m => m.tiles[k]?).any fun t =>
          !expertIn { c with routed := c.routed.filter fun r => r.2.2.2 != id } t
      | _, _ => false
    if other then 5 else if filtered then 4 else 3

/-- The cause of the largest number, the lowest on a tie. -/
def topCause (l : List Nat) : Nat :=
  let n (k : Nat) : Nat := (l.filter (· == k)).length
  (List.range 6).foldl (fun b k => if n b < n k then k else b) 0

/-- Promotions of missing items are cancelled together with their paired demotions (R126). -/
def State.cancelPromotions (s : State) (l : List (Item × Nat)) : State :=
  l.foldl (fun s e =>
    let mine := s.pool.moves.filter fun (m : Move) => (m.item == e.1 && m.kind == 6) || (m.kind == 7 && m.pair == some e.1)
    let s := mine.foldl State.endMove s
    s.setEng { s.eng with fetches := s.eng.fetches.filter fun f => !(f.2.item == e.1 && f.2.slice == e.2 && f.2.kind != 2) }) s

/-- A demand fetch of a missing item (R126). -/
def State.demand (s : State) (id cu x : Nat) (e : Item × Nat) : State :=
  let f : Fetch := { item := e.1, slice := e.2, plans := [(cu, x, s.tbc)], kind := 2, issued := true, step := id,
                     name := s.slotNamed e.1 }
  (s.setEng { s.eng with fetches := tabSet s.eng.fetches s.eng.nextFetch f, nextFetch := s.eng.nextFetch + 1 }).fetchRead e.1

/-- Demand fetches of a class go beyond its T2 share (R124). -/
def State.demandExcess (s : State) (cu : Nat) (l : List (Item × Nat)) : State :=
  let cls := ((s.cur cu).map (·.cls)).getD 0
  if l.any fun e => ((s.homeOf e.1).any fun h => h.tier == 2) && s.entitlement (s.itemSlice e.1) 2 cls ≤ s.rateMbps (s.itemSlice e.1) 2 cls then
    s.modCur cu fun c => { c with flags := setFlag c.flags 4 }
  else s

/-- The copies that aborted steps of the cursor left of a layer stay no longer for them at its next check (R128): they are this
step's, and leave with the layer. -/
def State.claimLeft (s : State) (x : StepSt) : State :=
  s.setEng { s.eng with t0 := s.eng.t0.map fun c =>
    if c.left && c.layer == x.layer && c.cursors.contains x.cursor && (s.engItem c.item).any fun e => e.1 == x.desc.model then
      { c with left := false } else c }

/-- READINESS_CHECK: the step is ready, or it stalls on every slice and demand fetches begin. -/
def readinessCheck (id : Nat) (s : State) : State :=
  match s.step' id with
  | none => s
  | some x =>
    match (s.model x.desc.model).bind fun m => (m.layers[x.layer]?).map fun l => (m, l) with
    | none => s
    | some (m, l) =>
      if x.phase != 1 || x.ready || x.desc.last < x.layer || !needsCheck l x.op || !s.stepRuns x then s
      else
        let miss := s.missing x m l
        let s := s.claimLeft x
        if miss.isEmpty then s.setStep id { x with ready := true }
        else
          let tiles := (miss.filter fun e => match e.1 with
            | .tile _ _ => true
            | _ => false).length
          let cause := topCause (miss.map fun e => s.missCause id x e.1 e.2)
          let s := (s.cancelPromotions miss).setStep id
            { x with phase := 2, stallAt := some s.tbc, missing := miss, missTiles := tiles, missKv := miss.length - tiles,
                     missSlice := ((miss.head?).map (·.2)).getD 0, missCause := cause }
          let ord := ((s.cur x.cursor).map fun c => x.desc.tag * s.curLayers c + x.layer).getD 0
          (miss.foldl (fun s e => s.demand id x.cursor ord e) s).demandExcess x.cursor miss

/-- The payload of LATE_TILE and LATE_ABORT (R130). -/
def State.lateRecord (s : State) (x : StepSt) (suppressed stall : Nat) : Bytes :=
  let ph := (((s.model x.desc.model).bind fun m => m.layers[x.layer]?).map fun l => phaseOf l x.op).getD 0
  flds [(1, x.cursor), (1, x.missSlice), (2, x.layer), (1, ph), (1, x.missCause), (2, x.tenant), (2, x.desc.model), (2, suppressed),
    (4, x.desc.tag), (4, x.missTiles), (4, x.missKv), (4, stall), (8, x.stallAt.getD 0)]

/-- A stall ends: its time is added, and LATE_TILE is recorded at most once a cursor and millisecond. -/
def State.stallEnds (s : State) (id : Nat) (x : StepSt) : State × StepSt :=
  let stall := (s.tbc - x.stallAt.getD s.tbc + 999) / 1000
  let s := s.recordLim 0 0x0001 x.cursor ms fun held => s.lateRecord x held stall
  let x' := { x with stallUs := x.stallUs + stall }
  (s.setStep id x', x')

/-- Class that a cursor's steps, staging and demand fetches are charged to (R108). -/
def State.curCls (s : State) (cu : Nat) : Nat := ((s.cur cu).map (·.cls)).getD 0

/-- A step of the same class that stalled earlier waits for a read on a slice that this one reads too: demand fetches of a class go
oldest stall first (R123). -/
def State.olderStall (s : State) (id : Nat) (x : StepSt) : Bool :=
  s.eng.steps.any fun e =>
    e.2.phase == 2 && s.curCls e.2.cursor == s.curCls x.cursor &&
    (decide (e.2.stallAt.getD 0 < x.stallAt.getD 0) || (e.2.stallAt == x.stallAt && decide (e.1 < id))) &&
    e.2.missing.any fun m => !s.farBusy m.1 && x.missing.any fun k => k.2 == m.2

/-- DEMAND_FETCH_DONE: when the last missing item is resident the step resumes (R126). An item that cannot be read is
poison to the step (10 R337, 11 R360). -/
def demandDone (id : Nat) (s : State) : State :=
  match s.step' id with
  | none => s
  | some x =>
    if x.phase != 2 || s.olderStall id x || x.missing.any fun e => s.farBusy e.1 then s
    else
      let s := x.missing.foldl (fun s e =>
        if s.unreadable e.1 then
          match e.1 with
          | .kv _ q _ _ _ => s.modStep id fun x => { x with poisonSeqs := q :: x.poisonSeqs }
          | _ => s.modStep id fun x => { x with poisonW := true }
        else if s.itemPoisoned e.1 then s
        else s.landCopy { slice := e.2, item := e.1, version := s.versionFor x.admitted e.1, tenant := 0, bytes := 0, layer := x.layer,
                          cursors := [x.cursor], demand := true } (s.curCls x.cursor)) s
      let s := s.setEng { s.eng with fetches := s.eng.fetches.filter fun f => !(f.2.kind == 2 && f.2.step == id) }
      match s.step' id with
      | none => s
      | some x =>
        let (s, x) := s.stallEnds id x
        s.setStep id { x with phase := 1, ready := true, stallAt := none, missing := [], conds := setBit x.conds 1 true }

/-- LATE_ABORT: a stall reaches the late limit (R128, R129, R130); never on account of items that are poison (R122). -/
def lateAbort (id : Nat) (s : State) : State :=
  match s.step' id, (s.step' id).bind fun x => s.cur x.cursor with
  | some x, some c =>
    if x.phase != 2 || x.missing.all (fun e => s.itemPoisoned e.1) then s
    else
      let s := s.until (x.stallAt.getD s.tbc + c.lateLimit * 100 * us)
      let (s, x) := s.stallEnds id x
      let s := s.record 1 0x0002 (s.lateRecord x 0 ((s.tbc - x.stallAt.getD s.tbc + 999) / 1000))
      s.abortStep id 2 id'
  | _, _ => s
where
  id' (n : Nat) : Nat := n

/-! ### Ending and completing (03 R93-R97, R608; 02 R71; 04 R131) -/

/-- STEP_END: the last layer of the range is done. -/
def stepEnd (id : Nat) (s : State) : State :=
  match s.step' id with
  | none => s
  | some x =>
    match s.model x.desc.model, s.cur x.cursor with
    | some m, some c =>
      if x.phase != 1 || x.layer ≤ x.desc.last then s
      else
        let base := c.extent + x.desc.outOff
        let s := x.outBuf.foldl (fun s o => s.devWrite c.cls (base + o.off) o.data (x.poisonW || x.poisonSeqs.contains o.seq)) s
        let bytes := x.outBuf.foldl (fun n o => n + o.data.length) 0
        let s := if x.desc.last + 1 = m.layers.length then
            (seqList x.desc.seqs).foldl (fun s n => match s.seq n with
              | some z => s.setEng { s.eng with seqs := tabSet s.eng.seqs n { z with tokens := z.tokens + 1 } }
              | none => s) s
          else s
        let conds := (if x.poisonW then 8 else 0) + (if x.poisonSeqs.isEmpty then 0 else 16)
        let s := (s.setStep id { x with outBytes := bytes, outBuf := [] }).endStep id conds
        (seqList x.desc.seqs).foldl State.spill s
    | _, _ => s

/-- STATUS of a step's conditions (R96). -/
def statusOf (conds : Nat) : Nat := ((([9, 8, 7, 2, 10, 5, 3, 4, 6, 1] : List Nat).find? (bit conds))).getD 0

/-- The completion entry (R94). -/
def entryBytes (x : StepSt) (phase : Bool) (tbc : Nat) : Bytes :=
  flds [(2, x.desc.cmdId), (1, statusOf x.conds), (1, if statusOf x.conds = 6 then x.detail else 0), (2, x.sqHead),
    (1, b2n phase + 2 * x.queue + 16 * x.arith), (1, 0), (8, tbc), (4, x.outBytes), (2, x.lastDone), (2, 0), (4, x.stallUs), (4, x.conds)]

/-- ENG_ARITH_STICKY takes the flags of a completed step (02 R71). -/
def stickyWith (old : BitVec 32) (cursor add : Nat) : BitVec 32 :=
  if add = 0 then old
  else if old.toNat % 32 = 0 then BitVec.ofNat 32 (add + 256 * cursor + 65536) else old ||| BitVec.ofNat 32 add

/-- What the completion of a step brings with it: counters, flags and vectors. FORMAT_INVALID that arose sets FMT_INVALID whatever
STATUS the step carries (02 R71; DESIGN CHOICE, log 97). -/
def State.completed (s : State) (x : StepSt) : State :=
  let st := statusOf x.conds
  let abort := bit x.conds 2
  let late := bit x.conds 1 && !abort
  let f := Func.vf x.tenant
  let s := if x.quiet then s else s.modFn f fun g => { g with sticky := stickyWith g.sticky x.cursor (x.arith + (if bit x.conds 6 then 16 else 0)) }
  let s := s.modCur x.cursor fun c =>
    let c := if late then { c with lateSteps := c.lateSteps + 1, flags := setFlag c.flags 0 } else c
    if abort then { c with abortSteps := c.abortSteps + 1, flags := setFlag c.flags 1 } else c
  let irq := (s.cur x.cursor).any (·.lateIrq)
  let s := if abort || (late && irq) then s.signal f 2 else s
  let s := if x.desc.irq then s.signal f 0 else s
  if st = 0 || st = 1 then s else s.signal f 1

/-- The oldest step of a queue that has not completed. -/
def State.oldest (s : State) (cu q : Nat) : Option (Nat × StepSt) := s.eng.steps.find? fun e => e.2.cursor == cu && e.2.queue == q

/-- STEP_COMPLETE: the entry of a queue's oldest step is written once it has ended and the ring has room. -/
def stepComplete (cu q : Nat) (s : State) : State :=
  match s.oldest cu q, s.queue cu q with
  | some (id, x), some k =>
    if x.phase != 3 then s
    else
      let s := if k.depth ≤ k.unread + 1 then s.readHead cu q else s
      match s.queue cu q, s.cur cu with
      | some k, some c =>
        if k.depth ≤ k.unread then s
        else
          let s := s.devWrite c.cls (c.extent + k.cq + 32 * k.ring) (entryBytes x k.phase s.tbc) false
          let wrap := k.ring + 1 = k.depth
          let s := s.modQueue cu q fun k => { k with ring := if wrap then 0 else k.ring + 1, phase := if wrap then !k.phase else k.phase,
                                                     unread := k.unread + 1 }
          let s := s.setEng { s.eng with steps := tabDel s.eng.steps id }
          let s := if x.frees then (seqList x.desc.seqs).foldl (fun s n =>
              if s.slotOpen x.tenant x.desc.model n then s.closeSeq n else s) s else s
          s.completed x
      | _, _ => s
  | _, _ => s

/-! ### Parking (15 R527) -/

/-- ENGINE_PARK. -/
def enginePark (n : Nat) (s : State) : State :=
  let r := s.sl n
  if r.parked || r.parkIdleUs = 0 || !s.up n || r.state != 1 ||
      s.eng.steps.any fun e => (e.2.phase = 1 || e.2.phase = 2) && s.hasWork e.2 n then s
  else (s.until (r.lastWork + r.parkIdleUs * us)).modSl n fun r => { r with parked := true }

/-- ENGINE_WAKE: a step that waits needs the slice. -/
def engineWake (n : Nat) (s : State) : State :=
  if (s.sl n).parked && s.eng.steps.any fun e => e.2.phase != 3 && s.hasWork e.2 n then
    s.modSl n fun r => { r with parked := false, wakes := r.wakes + 1, lastWork := s.tbc }
  else s

def execDoorbell (cu q : Nat) (s : State) : Host.Outcome State Fault Refusal := .next (doorbell cu q s)
def execStepConsume (cu q : Nat) (s : State) : Host.Outcome State Fault Refusal := .next (stepConsume cu q s)
def execStepStart (step : Nat) (s : State) : Host.Outcome State Fault Refusal := .next (stepStart step s)
def execReadinessCheck (step : Nat) (s : State) : Host.Outcome State Fault Refusal := .next (readinessCheck step s)
def execDemandFetchDone (step : Nat) (s : State) : Host.Outcome State Fault Refusal := .next (demandDone step s)
def execLateAbort (step : Nat) (s : State) : Host.Outcome State Fault Refusal := .next (lateAbort step s)
def execStepEnd (step : Nat) (s : State) : Host.Outcome State Fault Refusal := .next (stepEnd step s)
def execStepComplete (cu q : Nat) (s : State) : Host.Outcome State Fault Refusal := .next (stepComplete cu q s)
/-- COMPLETION_RING_ROOM: the head is read anew, and the held completion is written where it made room (R95). -/
def execCompletionRingRoom (cu q : Nat) (s : State) : Host.Outcome State Fault Refusal := .next (stepComplete cu q (s.readHead cu q))
def execEnginePark (slice : Nat) (s : State) : Host.Outcome State Fault Refusal := .next (enginePark slice s)
def execEngineWake (slice : Nat) (s : State) : Host.Outcome State Fault Refusal := .next (engineWake slice s)

end Sys2Proof.Machine
end

