-- ==== Sys2Proof/Machine/Extents.lean ====
section
/-! DEFINITION. Pool extents: Dynamic Capacity adds and releases, extent policies and quota records (06 R174-R184,
07 R209, R210, R229, 12 R389, 13 R442). -/
namespace Sys2Proof.Machine
open Sys2Proof

/-! ### Unbinding (04 R112) -/

/-- A cursor stops: its unissued fetches go, and its queues are consumed no more. -/
def State.stopCursor (s : State) (cu : Nat) : State :=
  let s := s.dropPlans cu
  (s.setEng { s.eng with advances := s.eng.advances.filter fun a => a.2 != cu }).modCur cu fun c => { c with unbound := true }

/-- A cursor is gone, and its function's management vector signals (12 R400). -/
def State.removeCursor (s : State) (cu : Nat) : State :=
  match s.cur cu with
  | none => s
  | some c => (s.setEng { s.eng with cursors := tabDel s.eng.cursors cu }).signal (.vf c.tenant) 3

/-! ### The map region (R174) -/

/-- Bytes below an address whose interleave grain falls to position `p` of `n` slices. -/
def bytesBelow (n g p x : Nat) : Nat := x / (n * g) * g + min (x % (n * g) - p * g) g

/-- Pages of a range that the slice at a position of the in-service list owns. -/
def State.pagesAt (s : State) (p base len : Nat) : Nat :=
  let n := max 1 s.rst.inService.length
  let g := 2 ^ s.cfg.sliceGrain
  (bytesBelow n g p (base + len) - bytesBelow n g p base) / 4096

/-- Words of the map region that an extent's pages take on the slice at a position: 5 a page, 6 in SHARED_PUBLISHED. -/
def State.extentWords (s : State) (p base : Nat) (e : Extent) : Nat :=
  s.pagesAt p base e.len * (if e.policy.sharing = 2 then 6 else 5)

/-- Words that tiles and KV blocks take on a slice: 3 each. -/
def State.itemWords (s : State) (n : Nat) : Nat :=
  3 * (s.eng.models.foldl (fun k m => k + (m.2.tiles.filter fun t => t.slice == n).length) 0 +
    s.eng.loads.foldl (fun k l => k + (l.model.tiles.filter fun t => t.slice == n).length) 0 +
    s.eng.seqs.foldl (fun k z => k + (z.2.kv.filter fun b => b.slice == n).length) 0)

/-- The map region of every slice holds the entries of the extents and items. -/
def State.mapFits (s : State) : Bool :=
  s.rst.inService.zipIdx.all fun x =>
    s.pool.extents.foldl (fun k e => k + s.extentWords x.2 e.1 e.2) 0 + s.itemWords x.1 ≤ s.cfg.mapWords

/-! ### Charges of an extent (R181, R182) -/

/-- The parts of a reservation in T2, T3 and T4: T2 and T3 as far as free quota allows, without what the extent is charged now. -/
def State.splitParts (s : State) (t base : Nat) (res : Nat) (p : Policy) (old : Extent) : Nat × Nat × Nat :=
  if p.placement = 0 then (0, 0, 0)
  else if !p.remoteOk then (res, 0, 0)
  else
    let room (tier : Nat) : Nat := s.quotaLeft t tier + s.extentCharge base old tier
    let two := min res (room 2)
    let three := min (res - two) (room 3)
    (two, three, res - two - three)

/-- No tier of a tenant is charged beyond its quota, but where its charge has not grown. -/
def State.chargesFit (old new : State) (t : Nat) : Bool :=
  [1, 2, 3, 4].all fun k => new.charge t k ≤ new.quotaBytes t k || new.charge t k ≤ old.charge t k

/-! ### Sharing (07 R209, R210, R229) -/

/-- Regions that the module may number. -/
def maxRegions : Nat := 4096

/-- The region of a Dynamic Capacity tag. -/
def State.regionByTag (s : State) (tag : Nat) : Option Nat := (s.dir.regions.find? fun r => r.2.tag == tag).map (·.1)

def State.sharingOk (s : State) (e : Extent) (mode : Nat) (entering : Bool) : Bool :=
  match mode with
  | 0 => e.hosts.length == 1
  | 1 => e.hosts.all fun h => (s.hostRec h).any fun r => (s.port r.port).cxlGen == 3
  | 2 => !entering || (s.regionByTag e.tag).isSome || decide (s.dir.regions.length < maxRegions)
  | _ => false

/-- An extent enters the region of its tag, which is numbered where it has none. -/
def State.joinRegion (s : State) (base : Nat) : State :=
  match tabFind s.pool.extents base with
  | none => s
  | some e =>
    let (r, s) := match s.regionByTag e.tag with
      | some r => (r, s)
      | none =>
        let r := ((List.range maxRegions).find? fun k => (s.region k).isNone).getD 0
        (r, s.setDir { s.dir with regions := tabSet s.dir.regions r { tag := e.tag } })
    s.setPool { s.pool with extents := tabSet s.pool.extents base { e with region := some r } }

/-- An extent leaves its region: publish records and conflicts of its pages go, and the region with its last extent, whose
waiting publishes then find none. -/
def State.leaveRegion (s : State) (base : Nat) : State :=
  match tabFind s.pool.extents base with
  | none => s
  | some e =>
    match e.region with
    | none => s
    | some r =>
      let inE (p : Nat) : Bool := base ≤ p * 4096 && p * 4096 < base + e.len
      let s := s.setPool { s.pool with
        extents := tabSet s.pool.extents base { e with region := none },
        pages := s.pool.pages.map fun p => if inE p.1 then (p.1, { p.2 with pubWriter := 0, pubValid := false, pubCount := 0 }) else p }
      if s.pool.extents.any fun x => x.2.region == some r then
        match s.region r with
        | none => s
        | some g => s.setDir { s.dir with regions := tabSet s.dir.regions r { g with conflicts := g.conflicts.filter fun c => !inE c.1 } }
      else
        let gone := s.dir.publishes.filter fun p => p.region == r
        let s := s.setDir { s.dir with regions := tabDel s.dir.regions r, publishes := s.dir.publishes.filter fun p => p.region != r }
        gone.foldl (fun s p => match p.via with
          | some v => s.respond v 0xC031 .invalidInput []
          | none => s.modSlot p.host fun x => { x with busy := false, result := 1, conflict := false, conflicts := 0 }) s

/-! ### Adding (R175, R176, 07 R209, 12 R389) -/

/-- The host reaches the module through a link with static capacity that is up (12 R389). -/
def State.staticHost (s : State) (h : Nat) : Bool :=
  (s.hostRec h).any fun r => r.direct && (s.port r.port).link == 2 && ((s.port r.port).cxlGen == 1 || (s.port r.port).cxlGen == 2)

def distinct : List Nat → Bool
  | [] => true
  | a :: l => !l.contains a && distinct l

def dcAddCmd (hosts : List Nat) (base len tag : Nat) (s : State) : Reply :=
  let g := 2 ^ 28
  if !s.rst.memoryActive || s.bistFull then fail s .busy
  else if hosts.isEmpty || 32 < hosts.length || !distinct hosts || len = 0 || base % g != 0 || len % g != 0 || 2 ^ 52 < base + len then
    fail s .invalidInput
  else if 65536 ≤ s.pool.extents.length || s.pool.extents.any (fun e => base < e.1 + e.2.len && e.1 < base + len) ||
      hosts.any (fun h => (s.hostRec h).isNone || s.staticHost h || 4096 ≤ (s.pool.extents.filter fun e => e.2.hosts.contains h).length) then
    fail s .invalidInput
  else
    let t := ((s.hostRec (hosts.headD 0)).map (·.tenant)).getD 0
    let d := (s.quota t).policy
    let p : Policy := if 1 < hosts.length && d.sharing = 0 then { d with sharing := 2 } else d
    let e0 : Extent := { len := len, hosts := hosts, tag := tag, owner := t, policy := p }
    let parts := s.splitParts t base (reservation len (256 * rawSectors p.strength) p.assured) p e0
    let e : Extent := { e0 with t2Part := parts.1, t3Part := parts.2.1, t4Part := parts.2.2 }
    let s' := s.setPool { s.pool with extents := tabSet s.pool.extents base e }
    if !s.sharingOk e p.sharing true || !s'.mapFits || !(([1, 2, 3, 4] : List Nat).all fun k => s'.charge t k ≤ s.quotaBytes t k || s'.charge t k = s.charge t k) then
      fail s .invalidInput
    else ok (if p.sharing = 2 then s'.joinRegion base else s')

/-! ### Releasing (R177, 12 R389) -/

def State.lineIn (base len line : Nat) : Bool := base ≤ line * 64 && line * 64 < base + len

/-- Held and waiting writes of some lines complete to their hosts and are discarded; waiting reads find no extent
(R177, R280; 15 R522). -/
def State.dropRequestsIf (s : State) (on : Nat → Bool) : State :=
  let mine (w : WReq) : Bool := on w.line
  let out (r : RReq) : Bool := on (r.dpa / 64)
  let ws := s.pool.held.filter mine ++ s.pool.coding.filter mine ++ (s.pool.far.map (·.2)).filter mine ++ (s.drc.waitWrites.map (·.2)).filter mine ++
    (s.pool.moves.flatMap (·.held)).filter mine ++ s.ecc.regs.flatMap fun r => r.2.waitWrites.filter mine
  let rs := s.pool.waiting.filter out ++ (s.drc.waitReads.map (·.2)).filter out
  let s := s.setPool { s.pool with
    held := s.pool.held.filter fun w => !mine w
    coding := s.pool.coding.filter fun w => !mine w
    far := s.pool.far.filter fun w => !mine w.2
    moves := s.pool.moves.filter fun m => match m.item with
      | .page n => !on (n * 64)
      | _ => true
    waiting := s.pool.waiting.filter fun r => !out r }
  let s := s.setDrc { s.drc with waitWrites := s.drc.waitWrites.filter fun w => !mine w.2
                                 waitReads := s.drc.waitReads.filter fun r => !out r.2 }
  let s := s.setEcc { s.ecc with regs := s.ecc.regs.map fun r => (r.1, { r.2 with waitWrites := r.2.waitWrites.filter fun w => !mine w }) }
  -- accesses at the controllers that are not yet answered
  let js := s.drc.jobs.filter fun j => j.2.read.any out || j.2.write.any mine
  let s := js.foldl (fun s j => s.endJob j.1 true) s
  let s := ws.foldl (fun s w => s.complete w 2) s
  rs.foldl (fun s r => s.respondRead r 2 none) s

def State.dropRequests (s : State) (base len : Nat) : State := s.dropRequestsIf (State.lineIn base len)

/-- The directory holds nothing of some lines any longer; a request that waited for the way of one of them goes on. -/
def State.dropLinesIf (s : State) (on : Nat → Bool) : State :=
  let es := s.dir.ents.filter fun e => on e.1
  let ws := s.dir.waiting.filter fun q => on q.line
  let s := s.setDir { s.dir with ents := s.dir.ents.filter fun e => !on e.1
                                 waiting := s.dir.waiting.filter fun q => !on q.line }
  let reqs := es.filterMap fun e => e.2.req
  let (here, there) := reqs.partition fun q => on q.line
  let s := (here ++ ws).foldl (fun s q => if q.cls ≤ 2 then s.respondRead (rreq q 0) 2 none else s.complete (wreqOf q) 2) s
  there.foldl (fun s q => (s.dirServe q).dirNext q.line) s

def State.dropLines (s : State) (base len : Nat) : State := s.dropLinesIf (State.lineIn base len)

/-- The extent is gone: its copies, homes, content and charges (R177 steps 1, 3-5). -/
def State.freeExtent (s : State) (base : Nat) : State :=
  match tabFind s.pool.extents base with
  | none => s
  | some e =>
    let s := (s.dropRequests base e.len).dropLines base e.len
    let ps := s.pagesIn base e.len
    let s := ps.foldl (fun s p =>
      let s := s.loupeDrop p.1
      match p.2.ent.home with
      | some h => s.freeHome (s.sliceOf (p.1 * 4096)) h p.2.ent.bad
      | none => s) s
    let s := s.leaveRegion base
    let s := (repayPass e.owner base false (repayPass e.owner base true (s, drawnTotal e, e.drawn))).1
    let s := if s.dir.change.any fun c => c.1 == base then (s.setDir { s.dir with change := none }).bgDoneOp 0xC030 .invalidInput [] else s
    s.setPool { s.pool with
      extents := tabDel s.pool.extents base
      pages := s.pool.pages.filter fun p => !(base ≤ p.1 * 4096 && p.1 * 4096 < base + e.len)
      mem := memClear s.pool.mem base e.len }

/-- Releases whose cursors are all unbound complete (R112). -/
def State.releaseEnds (s : State) : State :=
  let done := s.pool.releasing.filter fun r => !(s.eng.cursors.any fun c => c.2.extent == r.1)
  done.foldl (fun s r =>
    let s := s.freeExtent r.1
    let s := s.setPool { s.pool with releasing := s.pool.releasing.erase r }
    if s.pool.releasing.any fun x => x.2 == r.2 then s else s.respond r.2.1 r.2.2 .success []) s

/-- The releases of one command begin: held writes complete, cursors unbind, and what no cursor holds is free at once. -/
def releaseAll (v : Iface) (op : Nat) (bases : List Nat) (s : State) : Reply :=
  let s := bases.foldl (fun s b =>
    let s := match tabFind s.pool.extents b with
      | some e => s.dropRequests b e.len
      | none => s
    let cs := s.eng.cursors.filter fun c => c.2.extent == b
    let s := cs.foldl (fun s c => s.stopCursor c.1) s
    let s := s.setPool { s.pool with releasing := s.pool.releasing ++ [(b, v, op)] }
    -- a cursor without a consumed step is unbound at once
    cs.foldl (fun s c => if c.2.unbinding.isSome || s.eng.steps.any (fun e => e.2.cursor == c.1) then s else s.removeCursor c.1) s) s
  let wait := s.pool.releasing.any fun r => s.eng.cursors.any fun c => c.2.extent == r.1 && r.2 == (v, op)
  if wait then { ok s with later := true }
  else
    let s := bases.foldl (fun s b => s.freeExtent b) s
    ok (s.setPool { s.pool with releasing := s.pool.releasing.filter fun r => !(r.2 == (v, op) && bases.contains r.1) })

/-- An extent whose release runs. -/
def State.isReleasing (s : State) (b : Nat) : Bool := s.pool.releasing.any fun r => r.1 == b

def dcReleaseCmd (v : Iface) (base : Nat) (s : State) : Reply :=
  if !s.rst.memoryActive then fail s .busy
  else match tabFind s.pool.extents base with
    | none => fail s .invalidInput
    | some e => if e.hosts.any s.staticHost then fail s .invalidInput else if s.isReleasing base then fail s .busy else releaseAll v 0x5605 [base] s

/-- A host of a link names its own extents. -/
def State.hostBases (s : State) (link h : Nat) (bases : List Nat) : Bool :=
  (s.hostRec h).any (fun r => r.port == link) && !s.staticHost h && !bases.isEmpty && distinct bases &&
  bases.all fun b => (tabFind s.pool.extents b).any fun e => e.hosts.contains h

def dcResponseCmd (link h : Nat) (bases : List Nat) (s : State) : Reply :=
  if !s.hostBases link h bases then fail s .invalidInput
  else
    let put (e : Nat × Extent) : Nat × Extent :=
      if bases.contains e.1 && !e.2.accepted.contains h then (e.1, { e.2 with accepted := e.2.accepted ++ [h] }) else e
    ok (s.setPool { s.pool with extents := s.pool.extents.map put })

/-- A host gives up extents: it leaves their share group, and an extent without a host is released (log 22). -/
def hostReleaseCmd (link h : Nat) (bases : List Nat) (s : State) : Reply :=
  if !s.hostBases link h bases then fail s .invalidInput
  else if bases.any s.isReleasing then fail s .busy
  else
    let last := bases.filter fun b => (tabFind s.pool.extents b).any fun e => e.hosts == [h]
    let leave (e : Nat × Extent) : Nat × Extent :=
      if bases.contains e.1 && !last.contains e.1 then
        (e.1, { e.2 with hosts := e.2.hosts.filter (· != h), accepted := e.2.accepted.filter (· != h) }) else e
    let s := s.setPool { s.pool with extents := s.pool.extents.map leave }
    if last.isEmpty then ok s else releaseAll (.pf0 link) 0x4803 last s

/-! ### EXTENT_POLICY_SET (R178-R180, 07 R229, 13 R442) -/

/-- A POLICY byte pair, none where a field is reserved or PIN_T1 carries what it must not (R178, R179). -/
def readPolicy (v : Nat) : Option Policy :=
  let p : Policy := { placement := bits v 1 0, remoteOk := bit v 2, sharing := bits v 4 3, assured := bits v 6 5, strength := bits v 10 8 }
  if p.sharing = 3 || (p.placement = 0 && (p.remoteOk || p.assured != 0)) then none else some p

/-- A policy takes its place; the extent joins or leaves a region. -/
def State.setPolicy (s : State) (base : Nat) (e : Extent) (p : Policy) : State :=
  let s1 := s.setPool { s.pool with extents := tabSet s.pool.extents base { e with policy := p } }
  let s1 := if e.policy.sharing = 2 && p.sharing != 2 then s1.leaveRegion base
    else if e.policy.sharing != 2 && p.sharing = 2 then s1.joinRegion base else s1
  s1.repay base

/-- REGION of the response. -/
def State.regionOut (s : State) (base : Nat) : Bytes :=
  le 2 (((tabFind s.pool.extents base).bind fun e => if e.policy.sharing = 2 then e.region else none).getD 0xFFFF)

/-- Recalls of every tracked line of an extent; entries of former owners are freed (R229). -/
def State.recallExtent (s : State) (base len : Nat) : State :=
  let es := s.dir.ents.filter fun e => State.lineIn base len e.1
  es.foldl (fun s e => match e.2.state with
    | 1 =>
      let t := s.sharers e.1 e.2
      if t.isEmpty then s.delDent e.1 else s.recall e.1 e.2 t 0 2 none
    | 2 => s.recall e.1 e.2 [e.2.owner] 0 2 none
    | 4 => s.delDent e.1
    | _ => s) s

/-- An accepted policy takes effect with its charges and its sharing mode; none where R179, R180 or R229 refuse it. -/
def State.tryPolicy (s : State) (base : Nat) (e : Extent) (p : Policy) : Option State :=
  let e1 : Extent := { e with policy := p }
  let parts := s.splitParts e.owner base (s.extentReservation base e1) p e
  let e2 : Extent := { e with t2Part := parts.1, t3Part := parts.2.1, t4Part := parts.2.2 }
  let cand := s.setPool { s.pool with extents := tabSet s.pool.extents base { e2 with policy := p } }
  if !s.sharingOk e p.sharing (e.policy.sharing != 2) ||
      (p.assured != e.policy.assured && p.placement != 0 && s.extentReservation base e1 < s.extentStored base e) ||
      !cand.mapFits || !State.chargesFit s cand e.owner then none
  else some (s.setPolicy base e2 p)

/-- EXTENT_POLICY_SET of an extent. One that leaves SHARED_COHERENT takes effect once its lines have been recalled. -/
def policyCmd (inp : Bytes) (s : State) : Reply :=
  let base := fld inp 8 8
  match tabFind s.pool.extents base, readPolicy (fld inp 16 2) with
  | some e, some p =>
    if s.isReleasing base || s.dir.change.any (fun c => c.1 == base) ||
        (p.sharing = 1 && s.rst.inService.zipIdx.any fun x => s.bistOn x.1 [2] && s.pagesAt x.2 base e.len != 0) then fail s .busy
    else match s.tryPolicy base e p with
      | none => fail s .invalidInput
      | some s1 =>
        if e.policy.sharing = 1 && p.sharing != 1 then
          started ((s.setDir { s.dir with change := some (base, p) }).recallExtent base e.len) [base]
        else ok s1 (s1.regionOut base)
  | _, _ => fail s .invalidInput

/-- A line of an extent is tracked, or a request for it waits at the directory. -/
def State.tracked (s : State) (base len : Nat) : Bool :=
  (s.dir.ents.any fun x => State.lineIn base len x.1 || x.2.req.any fun q => State.lineIn base len q.line) ||
  s.dir.waiting.any fun q => State.lineIn base len q.line

/-- SHARING_CHANGE_DONE: no line of the extent is tracked any longer; a line still tracked is recalled. The conditions of the new
policy are tested again as it takes effect (R229). -/
def sharingChangeDone (base : Nat) (s : State) : State :=
  match s.dir.change, tabFind s.pool.extents base with
  | some (b, p), some e =>
    if b != base then s
    else
      let s := s.recallExtent base e.len
      if s.tracked base e.len then s
      else
        let s := s.setDir { s.dir with change := none }
        match s.tryPolicy base e p with
        | some s => s.bgDoneOp 0xC030 .success (s.regionOut base)
        | none => s.bgDoneOp 0xC030 .invalidInput []
  | _, _ => s

/-! ### Quota records (R184) -/

/-- T1 that the quotas may share: available T1, which leaves the map region out, less the program region and the offer buffer. -/
def State.assignableT1 (s : State) : Nat :=
  s.availT1 - s.upSlices.foldl (fun n k => n + s.cfg.programMib * 2 ^ 20 + (if k = 0 then 48 * 2 ^ 20 else 0)) 0

/-- Charge of a tenant in T1 that demotion can free: pages of its non-PIN extents, tiles that are not pinned, KV blocks. -/
def State.softT1 (s : State) (t : Nat) : Nat :=
  s.items.foldl (fun n i =>
    if s.itemTenant i = t && (s.itemPlace i).1 != 0 && ((s.homeOf i).any fun h => h.tier == 1) then
      n + (match s.homeOf i with
        | some h => s.itemNeed i h
        | none => 0)
    else n) 0

/-- With more OVERFLOW_QUOTA, a tenant's draws on the reserve move to it (R204). -/
def State.shiftDraws (s : State) (t : Nat) : State :=
  (List.range 8).foldl (fun s k =>
    let d := s.drawOf t k
    let n := min d.reserve ((s.quota t).overflow * 4096 - s.overflowUsed t)
    if n = 0 then s
    else (s.modDraw t k fun d => { d with reserve := d.reserve - n, overflow := d.overflow + n }).relieved t k d.lastExtent) s

def quotaCmd (inp : Bytes) (s : State) : Reply :=
  let t := fld inp 2 2
  let hold := fld inp 4 2
  let f (k : Nat) : Nat := fld inp (8 + 4 * k) 4
  match readPolicy (fld inp 6 2) with
  | none => fail s .invalidInput
  | some p =>
    let q : Quota := { t1 := f 0, t2 := f 1, t3 := f 2, t4 := f 3, overflow := f 4, holdLimit := hold, policy := p }
    let s' := s.setPool { s.pool with quotas := tabSet s.pool.quotas t q }
    let t3 := s.fab.pw.foldl (fun n w => if w.2.valid then n + w.2.size * 2 ^ 30 else n) 0
    let t4 := s.fab.trays.foldl (fun n w => if w.2.present then n + w.2.gib * 2 ^ 30 else n) 0
    let c1 := s.charge t 1
    if 1024 ≤ t || hold = 0 || 1000 < hold || s.assignableT1 < s'.quotaSum (·.t1) ||
        s.availT2 - s.deviceReserve < s'.quotaSum (·.t2) + s'.quotaSum (·.overflow) || t3 < s'.quotaSum (·.t3) || t4 < s'.quotaSum (·.t4) ||
        (f 0 * 2 ^ 20 < c1 && (s.softT1 t < c1 - f 0 * 2 ^ 20 || (s.quota t).t1 ≤ f 0)) || [2, 3, 4].any (fun k => f (k - 1) * 2 ^ 20 < s.charge t k) ||
        f 4 * 4096 < s.overflowUsed t then fail s .invalidInput
    else ok (s'.shiftDraws t)

/-- EXTENT_POLICY_SET by its FORM; a reserved code is Invalid Input (13 R442, 00 R10). -/
def policySetCmd (inp : Bytes) (s : State) : Reply :=
  match fld inp 0 1 with
  | 0 => policyCmd inp s
  | 1 => quotaCmd inp s
  | _ => fail s .invalidInput

/-! ### Meanings -/

def rowDcAdd : Row := { op := 0x5604, thru := 8 }
def execDcAdd (via : Iface) (hosts : List Nat) (base len tag : Nat) (s : State) : Host.Outcome State Fault Refusal :=
  .next (mbxCall rowDcAdd (.dcAdd via hosts base len tag) via 0 s (dcAddCmd hosts base len tag))
def rowDcRelease : Row := { op := 0x5605, thru := 8 }
def execDcRelease (via : Iface) (base : Nat) (s : State) : Host.Outcome State Fault Refusal :=
  .next (mbxCall rowDcRelease (.dcRelease via base) via 0 s (dcReleaseCmd via base)).dirSettle
def rowDcResponse : Row := { op := 0x4802, thru := 1 }
def execAddDynamicCapacityResponse (link host : Nat) (bases : List Nat) (s : State) : Host.Outcome State Fault Refusal :=
  .next (mbxCall rowDcResponse (.addDynamicCapacityResponse link host bases) (.pf0 link) 0 s (dcResponseCmd link host bases))
def rowHostRelease : Row := { op := 0x4803, thru := 1 }
def execReleaseDynamicCapacity (link host : Nat) (bases : List Nat) (s : State) : Host.Outcome State Fault Refusal :=
  .next (mbxCall rowHostRelease (.releaseDynamicCapacity link host bases) (.pf0 link) 0 s (hostReleaseCmd link host bases)).dirSettle
def rowPolicy : Row := { op := 0xC030, thru := 8, lo := 28, hi := 28 }
def execExtentPolicySetExtent (via : Iface) (inp : Bytes) (s : State) : Host.Outcome State Fault Refusal :=
  .next (mbxCall rowPolicy (.extentPolicySetExtent via inp) via inp.length s (policySetCmd inp))
def execExtentPolicySetTenant (via : Iface) (inp : Bytes) (s : State) : Host.Outcome State Fault Refusal :=
  .next (mbxCall rowPolicy (.extentPolicySetTenant via inp) via inp.length s (policySetCmd inp))
def execSharingChangeDone (base : Nat) (s : State) : Host.Outcome State Fault Refusal := .next (sharingChangeDone base s).dirSettle

end Sys2Proof.Machine
end

