-- ==== Sys2Proof/Machine/Cursor.lean ====
section
/-! DEFINITION. Cursors: the line, binding, the estimator, unbinding and the snapshot (04 R102-R114, R132, R133);
MODEL_UNLOAD and TILE_WRITE (03 R97, R98, 04 R121). -/
namespace Sys2Proof.Machine
open Sys2Proof

/-! ### The cursor line (R102) -/

/-- Bytes 0 to 31 of a cursor line. -/
structure CurLine where
  step : Nat
  layer : Nat
  phase : Nat
  paused : Bool
  fresh : Bool
  cadence : Nat
  seqs : Nat
  deriving DecidableEq, Repr

def readLine (b : Bytes) : CurLine :=
  { step := fld b 0 8, layer := fld b 8 2, phase := fld b 10 1, paused := bit (fld b 11 1) 0, fresh := bit (fld b 11 1) 1,
    cadence := fld b 12 4, seqs := fld b 16 16 }

/-! ### The estimator (R113) -/

def restartEst (c : Cursor) (hint : Nat) : Cursor :=
  { c with estOk := false, gapOk := false, est := hint * 1000, gap := hint * 1000, state := if hint != 0 then 1 else 0 }

/-- A sample taken into a figure that may have none yet. -/
def sampled (x : Nat) (good : Bool) (s shift : Nat) : Nat :=
  if !good then s
  else
    let c : Int := max (x / 4 : Nat) (min s (x * 4) : Nat)
    ((x : Int) + (c - x) / (2 ^ shift : Nat)).toNat

/-- A position lies below another (R105). -/
def below (a b : Nat × Nat × Nat) : Bool := a.1 < b.1 || (a.1 == b.1 && (a.2.1 < b.2.1 || (a.2.1 == b.2.1 && a.2.2 < b.2.2)))

/-- The write that R105 ignores. -/
def ignoredLine (layers : Nat) (c : Cursor) (v : CurLine) : Bool :=
  3 < v.phase || layers ≤ v.layer || (!v.fresh && below (v.step, v.layer, v.phase) (c.step, c.layer, c.phase))

/-- An accepted write without RESTART (R113). -/
def acceptLine (layers : Nat) (c : Cursor) (v : CurLine) (stamp : Nat) : Cursor :=
  let uOld := c.step * layers + c.layer
  let uNew := v.step * layers + v.layer
  let dt := stamp - c.entry
  let c1 : Cursor :=
    if uNew ≤ uOld then { c with skip := c.skip || v.paused }
    else
      let c : Cursor :=
        if c.skip || v.paused then c
        else if v.step = c.step then { c with est := sampled c.est c.estOk (dt / (uNew - uOld)) c.shift, estOk := true, state := 2 }
        else if uNew = uOld + 1 then { c with gap := sampled c.gap c.gapOk dt c.shift, gapOk := true, state := 2 }
        else c
      { c with entry := stamp, skip := v.paused }
  let c2 : Cursor := { c1 with step := v.step, layer := v.layer, phase := v.phase, paused := v.paused, seqs := v.seqs }
  if c2.state = 0 && v.cadence != 0 then restartEst c2 v.cadence else c2

/-- An accepted write with RESTART (R105, R113). -/
def restartLine (c : Cursor) (v : CurLine) (stamp : Nat) : Cursor :=
  { restartEst c v.cadence with step := v.step, layer := v.layer, phase := v.phase, entry := stamp, paused := v.paused,
                                skip := v.paused, stepChanged := if v.step != c.step then stamp else c.stepChanged }

/-- The advance goes to the Rangefinders of all slices (R107). -/
def State.sendAdvance (s : State) (cu : Nat) : State :=
  s.upSlices.foldl (fun s n =>
    if s.eng.advances.contains (n, cu) then s else s.setEng { s.eng with advances := s.eng.advances ++ [(n, cu)] }) s

/-- The line as it stands is evaluated with the stamp of the write (R104-R107, R113, R132). -/
def State.evalLine (cu stamp : Nat) (s : State) : State :=
  match s.cur cu with
  | none => s
  | some c =>
    let line := (c.extent + c.lineOff) / 64
    if c.unbound || s.linePoison line then s
    else
      let v := readLine (s.lineData line)
      let s := s.until stamp
      let layers := s.curLayers c
      if ignoredLine layers c v then
        s.modCur cu fun c => { c with flags := setFlag c.flags 3, ignored := c.ignored + 1 }
      else if v.fresh then (s.modCur cu fun c => restartLine c v stamp).sendAdvance cu
      else
        let advance := decide (c.step * layers + c.layer < v.step * layers + v.layer)
        let late := advance && v.step != c.step && decide (c.budgetMs * ms < stamp - c.stepChanged)
        let c' := acceptLine layers c v stamp
        let c' := if advance && v.step != c.step then { c' with stepChanged := stamp } else c'
        let c' := if late then { c' with flags := setFlag c'.flags 2 } else c'
        let s := s.modCur cu fun _ => c'
        let s := if late && c.lateIrq then s.signal (.vf c.tenant) 2 else s
        if advance then s.sendAdvance cu else s

/-- CURSOR_WRITE: evaluated at once, or, the newest write alone, when the engine clock runs again (16 R539, R543); the doorbells of
the same request afterwards (R104). -/
def cursorWrite (cu stamp : Nat) (s : State) : State :=
  match s.cur cu with
  | none => s
  | some c =>
    let n := s.cursorHome c
    let s := s.modCur cu fun c => { c with due := false, rung := [] }
    if (s.ck n).relock then
      let s := s.modCk n fun k => { k with latest := tabSet k.latest cu stamp }
      if c.rung.isEmpty then s else s.event n 1
    else c.rung.foldl (fun s q => s.takeTail cu q) (s.evalLine cu stamp)

/-- The cursor writes that waited for a slice's engine clock. -/
def State.deliverLines (s : State) (n : Nat) : State :=
  if (s.ck n).relock then s
  else
    let l := (s.ck n).latest
    l.foldl (fun s e => s.evalLine e.1 e.2) (s.modCk n fun k => { k with latest := [] })

/-! ### CURSOR_BIND (R108-R110, 13 R438) -/

/-- A queue's fields in the input: number, rings, control line, depth. -/
structure QueueIn where
  num : Nat
  sq : Nat
  cq : Nat
  ctrl : Nat
  depth : Nat
  deriving DecidableEq, Repr

def queuesIn (inp : Bytes) : List QueueIn :=
  ((List.range 8).filter fun q => bit (fld inp 8 1) q).map fun q =>
    { num := q, sq := fld inp (32 + 32 * q) 8, cq := fld inp (40 + 32 * q) 8, ctrl := fld inp (48 + 32 * q) 8,
      depth := fld inp (56 + 32 * q) 2 }

def depthOk (d : Nat) : Bool := [16, 32, 64, 128, 256, 512, 1024, 2048, 4096].contains d

/-- 0 selects a default. -/
def orDefault (v d : Nat) : Nat := if v = 0 then d else v

/-- The cursor that an input describes, before its start. -/
def cursorOf (inp : Bytes) : Cursor :=
  let guard := fld inp 14 2
  { tenant := fld inp 0 2, extent := fld inp 16 8, lineOff := fld inp 24 8, model := fld inp 4 2, cls := fld inp 3 1 % 16,
    lead := orDefault (fld inp 6 1) 4, lateLimit := orDefault (fld inp 10 2) 20, budgetMs := orDefault (fld inp 12 2) 100,
    guardUs := if guard = 0xFFFF then 100 else guard, shift := orDefault (fld inp 7 1) 3, horizon := fld inp 9 1,
    lateIrq := bit (fld inp 3 1) 4,
    queues := (queuesIn inp).map fun q => (q.num, { sq := q.sq, cq := q.cq, ctrl := q.ctrl, depth := q.depth }) }

/-- Parameters lie in the ranges of R108. -/
def cursorRanges (c : Cursor) : Bool :=
  c.lead ≤ 32 && c.lateLimit ≤ 1000 && c.guardUs ≤ 1000 && c.shift ≤ 5 && c.lineOff % 64 == 0 &&
  c.queues.all fun q => depthOk q.2.depth

/-- The line, rings and control lines as offsets in the extent. -/
def cursorSpans (c : Cursor) : List (Nat × Nat) :=
  (c.lineOff, c.lineOff + 64) :: c.queues.flatMap fun q =>
    [(q.2.sq, q.2.sq + 64 * q.2.depth), (q.2.cq, q.2.cq + 32 * q.2.depth), (q.2.ctrl, q.2.ctrl + 64)]

/-- An extent serves a tenant's cursors (R109). -/
def State.cursorExtent (s : State) (t : Nat) (e : Extent) : Bool :=
  (e.hosts.any fun h => (s.hostRec h).any fun r => r.tenant == t) && e.policy.placement == 0 && e.policy.sharing == 0

/-- The start that the line gives (R110): no sample, each queue's head at its doorbell. The first change of STEP is measured from
the bind, and the first after a RESTART with another STEP from that RESTART (R132; DESIGN CHOICE, log 98). -/
def startCursor (c : Cursor) (line : Bytes) (now : Nat) : Cursor :=
  let v := readLine line
  { restartEst c v.cadence with
    step := v.step, layer := v.layer, phase := v.phase, paused := v.paused, skip := v.paused, seqs := v.seqs, entry := now,
    stepChanged := now,
    queues := c.queues.map fun q =>
      let h := fld line (32 + 4 * q.1) 2 % max 1 q.2.depth
      (q.1, { q.2 with head := h, tail := h }) }

/-- The head that the queue control line holds when the queue is bound. -/
def State.headsRead (s : State) (c : Cursor) : Cursor :=
  { c with queues := c.queues.map fun q => (q.1, { q.2 with hostHead := ofLe (s.extRead (c.extent + q.2.ctrl) 2) % max 1 q.2.depth }) }

def cursorBindCmd (v : Iface) (inp : Bytes) (s : State) : Reply :=
  let c := cursorOf inp
  let cu := fld inp 2 1
  if !s.tenantOk v c.tenant then fail s .invalidInput
  else if !s.rst.engineReady || s.restarting (s.cursorHome c) ||
      s.eng.models.any (fun m => m.2.tenant == c.tenant && m.2.tiles.any fun t => s.bistOn t.slice [0, 1]) then fail s .busy
  else if !s.vfEnabled c.tenant || (s.cur cu).isSome || !cursorRanges c then fail s .invalidInput
  else match s.model c.model, tabFind s.pool.extents c.extent with
    | some m, some e =>
      if m.tenant != c.tenant || m.unloading.isSome || m.lead < c.lead || !s.cursorExtent c.tenant e ||
          (cursorSpans c).any (fun x => e.len < x.2) || !pairwiseApart (cursorSpans c) then fail s .invalidInput
      else
        let c := s.headsRead (startCursor c (s.extRead (c.extent + c.lineOff) 64) s.tbc)
        ok ((s.setEng { s.eng with cursors := tabSet s.eng.cursors cu c }).sendAdvance cu)
    | _, _ => fail s .invalidInput

/-! ### Unbinding (R112) -/

def cursorUnbindCmd (v : Iface) (inp : Bytes) (s : State) : Reply :=
  let t := fld inp 0 2
  let cu := fld inp 2 1
  match s.cur cu with
  | none => fail s .invalidInput
  | some c =>
    if !s.tenantOk v t || c.tenant != t || c.unbound then fail s .invalidInput
    else started ((s.stopCursor cu).modCur cu fun c => { c with unbinding := some v }) [cu]

/-- CURSOR_UNBIND_DONE: every consumed step of a stopped cursor has completed. -/
def cursorUnbindDone (cu : Nat) (s : State) : State :=
  match s.cur cu with
  | none => s
  | some c =>
    if !c.unbound || s.eng.steps.any fun e => e.2.cursor == cu then s
    else
      let s := s.removeCursor cu
      let s := match c.unbinding with
        | some v => s.bgDone v 0xC021 .success []
        | none => s
      s.releaseEnds

/-! ### MODEL_UNLOAD (R98) -/

def modelUnloadCmd (v : Iface) (inp : Bytes) (s : State) : Reply :=
  let t := fld inp 0 2
  let h := fld inp 2 2
  match s.model h with
  | none => fail s .invalidInput
  | some m =>
    if !s.tenantOk v t || m.tenant != t || m.unloading.isSome then fail s .invalidInput
    else
      let s := s.setEng { s.eng with models := tabSet s.eng.models h { m with unloading := some v } }
      let wait := s.eng.steps.filter fun e => e.2.phase == 0 && e.2.desc.model == h
      let s := wait.foldl (fun s e => (s.unopen e.2).setStep e.1 (endedStep e.2 6 2)) s
      { started s [h] with after := fun s => s.unloadDone h }

/-! ### TILE_WRITE (R97, R121, 05 R162, 13 R433, R435) -/

/-- Positions of the tile that a command names, with the tiles there. -/
def tileCopies (m : Model) (inp : Bytes) : List (Nat × Tile) :=
  (m.tiles.zipIdx.filter fun t =>
    t.1.layer == fld inp 4 2 && t.1.tensor == fld inp 6 1 && (fld inp 7 1 == 0xFF || t.1.slice == fld inp 7 1) &&
    t.1.expert == fld inp 8 2 && t.1.n == fld inp 10 2 && t.1.k == fld inp 12 2).map fun t => (t.2, t.1)

/-- The home of a replacement (R97): the old tier where the quota has room, else T2 unless the tile is pinned. -/
def State.replacePlace (s : State) (t n place tier : Nat) (b : Block) : Option Home :=
  s.tilePlace t n b tier <|> (if tier = 2 || place = 0 then none else s.tilePlace t n b 2)

/-- One copy is written and switched; the old tile stays for the steps admitted before. -/
def State.replaceTile (s : State) (h t x ver : Nat) (old : Tile) (b : Block) (bound : List (Nat × Nat × Nat)) : Option State :=
  (s.boundBlock bound old.slice b).bind fun b' =>
    match decodeBlock (s.cn old.slice).slots b' with
    | .ok _ =>
      let tier := (old.ent.home.map (·.tier)).getD 2
      (s.replacePlace t old.slice old.place tier b').map fun home =>
        let i := Item.tile h x
        -- issued copies of the old version land; unissued fetches go
        let mine := s.eng.fetches.filter fun f => f.2.item == i && f.2.kind != 2
        let s := mine.foldl (fun s f =>
          (if f.2.issued && f.2.kind = 0 && !s.unreadable i then s.landFetch f.1 f.2 old.version else s).dropFetch f.1) s
        let s := s.setEng { s.eng with oldTiles := s.eng.oldTiles ++ [(h, x, ver, old)] }
        let new : Tile := { old with version := ver, ent := { old.ent with home := some home, poisoned := false, heavy := 0, any := 0, bad := false } }
        let s := match s.model h with
          | some m => s.setEng { s.eng with models := tabSet s.eng.models h { m with tiles := m.tiles.set x new } }
          | none => s
        if home.tier = 3 then s.farWrite i home
        else s.access old.slice home 0 (homeLen home) true (s.tq t).cls
    | _ => none

/-- The new version is staged where its layer lies in a horizon (R121); `lost` where the old one had been. -/
def State.stageAgain (s : State) (h x n layer : Nat) (lost : Bool) : State :=
  let mark (s : State) : State :=
    let fs := s.eng.fetches.map fun f =>
      if f.2.item == Item.tile h x && f.2.kind != 2 then (f.1, { f.2 with restage := true }) else f
    if lost then s.setEng { s.eng with fetches := fs } else s
  mark <|
  s.eng.cursors.foldl (fun s e =>
    let c := e.2
    if c.model != h || c.unbound then s
    else
      let u := s.ordinal c
      ((List.range (c.lead + 1)).map (u + ·)).foldl (fun s o =>
        if o % s.curLayers c != layer then s
        else ((s.stageItems c layer n).filter fun i => i.1 == Item.tile h x).foldl
          (fun s i => s.planFetch n e.1 o (s.deadline c o) i.1 i.2) s) s) s

def tileWriteCmd (i : Instr) (v : Iface) (inp : Bytes) (s : State) : Reply :=
  let t := fld inp 0 2
  let h := fld inp 2 2
  let n := fld inp 24 4
  match s.model h with
  | none => fail s .invalidInput
  | some m =>
    let l := tileCopies m inp
    if !s.tenantOk v t || m.tenant != t || m.unloading.isSome || l.isEmpty then fail s .invalidInput
    else match (s.srcBytes t (fld inp 16 8) n).bind parseBlock, findTensor m.tensors (fld inp 4 2) (fld inp 6 1) with
      | some b, some ten =>
        if n % 256 != 0 || l.any (fun x => !tileHdrOk 64 x.2.strength (n / 256) ten b) then fail s .invalidInput
        else
          -- a promotion or demotion of the tile in flight completes first, one that waits for its paired demotion with it
          let busy (s : State) (x : Nat) : Bool :=
            (s.moveOf (.tile h x)).isSome || s.eng.fetches.any fun f => f.2.item == Item.tile h x && f.2.kind == 1 && f.2.issued
          let s1 := l.foldl (fun s x => moveSwitch (.tile h x.1) s) s
          let s1 := s1.eng.fetches.foldl (fun s f => if l.any fun x => f.2.item == Item.tile h x.1 && f.2.kind == 1 then stagingDone f.1 s else s) s1
          if l.any fun x => busy s1 x.1 then { ok { s1 with pending := s1.pending ++ [i] } with later := true }
          else match s1.model h with
            | none => fail s .invalidInput
            | some m =>
              let ver := s1.eng.versions + 1
              let staged (x : Nat × Tile) : Bool :=
                (s1.eng.t0.any fun c => c.item == Item.tile h x.1) || (x.2.ent.home.any fun o => o.tier == 1) ||
                s1.eng.fetches.any fun f => f.2.item == Item.tile h x.1 && f.2.kind != 2
              match (tileCopies m inp).foldl (fun (a : Option State) x => a.bind fun s => s.replaceTile h t x.1 ver x.2 b m.bound)
                  (some ((s1.readSource t (fld inp 16 8) n).setEng { s1.eng with versions := ver })) with
              | none => fail s1 .invalidInput
              | some s2 => ok ((tileCopies m inp).foldl (fun s x => s.stageAgain h x.1 x.2.slice x.2.layer ((l.filter fun o => o.1 == x.1).any staged)) s2.freeOld)
      | _, _ => fail s .invalidInput

/-! ### The snapshot (R133) -/

/-- A function sees a cursor. -/
def seesCursor (f : Func) (c : Cursor) : Bool :=
  match f with
  | .pf0 _ => false
  | .pf1 _ => true
  | .vf t => c.tenant == t

def sat32 (n : Nat) : Nat := min n 0xFFFFFFFF

def snapOf (c : Cursor) : CurSnap :=
  { pos := c.layer + 65536 * (c.phase % 4) + 2 ^ 18 * b2n c.paused + 2 ^ 19 * c.state + 2 ^ 21 * c.lead,
    step := c.step, est := sat32 c.est + 2 ^ 32 * sat32 (if c.gapOk then c.gap else c.est), entry := c.entry,
    cnt := c.lateSteps.toNat + 2 ^ 16 * c.abortSteps.toNat + 2 ^ 32 * c.ignored.toNat + 2 ^ 48 * c.misses.toNat }

/-- The registers of a function can be reached: its link carries traffic, it is awake and, a VF, enabled. -/
def State.fnOpen (s : State) (f : Func) : Bool :=
  (match f with
  | .pf0 l => linkFitted s.cfg l
  | .pf1 p => decide (p < hostPorts s.cfg)
  | .vf t => s.vfEnabled t) && s.linkOpen (funcLink s.cfg f) && !(s.fn f).d3hot

/-- CUR_SEL. -/
def curSel (f : Func) (cu : Nat) (s : State) : State :=
  match f with
  | .pf0 _ => s
  | _ =>
    if !s.fnOpen f then s.dropIo (funcLink s.cfg f)
    else s.modFn f fun g => { g with
      latch := none, curSel := cu % 256, curSnap := ((s.cur (cu % 256)).filter (seesCursor f)).map snapOf }

/-- ENG_FREQ_CHANGE_DONE: the clock runs again, and what waited for it is delivered: bytes 0 to 31 of the cursor lines, then the
doorbells (R104, 16 R543, R549). -/
def execEngFreqChangeDone (slice : Nat) (s : State) : Host.Outcome State Fault Refusal :=
  .next (((freqChangeDone slice s).deliverLines slice).deliverEvents slice)
def execCursorWrite (cu stamp : Nat) (s : State) : Host.Outcome State Fault Refusal := .next (cursorWrite cu stamp s)
def rowCursorBind : Row := { op := 0xC020, thru := 6, lo := 288, hi := 288 }
def execCursorBind (via : Iface) (inp : Bytes) (s : State) : Host.Outcome State Fault Refusal :=
  .next (mbxCall rowCursorBind (.cursorBind via inp) via inp.length s (cursorBindCmd via inp))
def rowCursorUnbind : Row := { op := 0xC021, thru := 6, lo := 3, hi := 3 }
def execCursorUnbind (via : Iface) (inp : Bytes) (s : State) : Host.Outcome State Fault Refusal :=
  .next (mbxCall rowCursorUnbind (.cursorUnbind via inp) via inp.length s (cursorUnbindCmd via inp))
def execCursorUnbindDone (cu : Nat) (s : State) : Host.Outcome State Fault Refusal := .next (cursorUnbindDone cu s)
def rowModelUnload : Row := { op := 0xC011, thru := 6, lo := 4, hi := 4 }
def execModelUnload (via : Iface) (inp : Bytes) (s : State) : Host.Outcome State Fault Refusal :=
  .next (mbxCall rowModelUnload (.modelUnload via inp) via inp.length s (modelUnloadCmd via inp))
def rowTileWrite : Row := { op := 0xC012, thru := 6, lo := 28, hi := 28 }
def execTileWrite (via : Iface) (inp : Bytes) (s : State) : Host.Outcome State Fault Refusal :=
  .next (mbxCall rowTileWrite (.tileWrite via inp) via inp.length s (tileWriteCmd (.tileWrite via inp) via inp))
def execCurSel (fn : Func) (cursor : Nat) (s : State) : Host.Outcome State Fault Refusal := .next (curSel fn cursor s)

end Sys2Proof.Machine
end

