-- ==== Sys2Proof/Machine/Links.lean ====
section
/-! DEFINITION. Peer links: training, flits, credits, retry and forwarding (08 R242-R252). -/
namespace Sys2Proof.Machine
open Sys2Proof

def peerFitted (c : Cfg) (p : Nat) : Bool := p < peerPorts c

/-- WIDTH that the trained lanes give (R243): 3 all eight, 1 lanes 0-3, 2 lanes 4-7, 0 none. -/
def widthOf (lanes : Nat) : Nat :=
  if bits lanes 7 0 = 0xFF then 3 else if bits lanes 3 0 = 0xF then 1 else if bits lanes 7 4 = 0xF then 2 else 0

/-- The HELLO that a link sends when it comes up (R251, R256). -/
def State.hello (s : State) (p : Nat) : State := s.mgmtOn p 0x20 0xFF [s.fab.constId, s.fab.me, s.fab.master, s.fab.epoch]

/-- Parts of control messages that came in on a port are forgotten. -/
def State.dropParts (s : State) (p : Nat) : State := s.setFab { s.fab with ctlParts := s.fab.ctlParts.filter fun k => k.1 / 65536 != p }

/-- PEER_LINK_TRAIN: a link that is not up trains, and its sequence numbers and credits start anew (R243, R247). -/
def peerTrain (p lanes : Nat) (s : State) : State :=
  let x := s.peer p
  if !peerFitted s.cfg p || !s.up (peerPortSlice s.cfg p) || x.noRefclk || x.failed || x.link = 2 || x.downAt.isSome && x.link = 1 then s
  else
    let w := widthOf lanes
    if w = 0 then s.modPeer p fun x => { x with link := 1, width := 0 }
    else
      let s := s.modPeer p fun x =>
        { x with link := 2, width := w, credits := [2048, 2048, 256], txSeq := 0, rxSeq := 0, replay := [], discarding := false,
                 partial_ := [], owed := [0, 0, 0], sinceAck := 0, lastValid := s.tbc, progressAt := s.tbc, downAt := none, replays := 0 }
      ((s.dropParts p).hello p).pump p

/-! ### Sending of link flits -/

/-- An IDLE flit with the acknowledgement and the credits that are due (R249). -/
def State.idleFlit (s : State) (p : Nat) : State :=
  let x := s.peer p
  let crd := s.returns p
  let s := s.modPeer p fun x => { x with sinceAck := 0, owed := x.owedAfter crd }
  s.emit (.flit p (flitBytes (flitOf 0 0 ((x.rxSeq + 4095) % 4096) true crd 0xFF [])))

/-- A RETRY_REQ for the expected SEQ (R249). -/
def State.retryFlit (s : State) (p : Nat) : State :=
  let x := s.peer p
  (s.modPeer p fun x =>
    { x with discarding := true, retrySent := s.tbc,
             progressAt := if x.replay.isEmpty && !x.discarding then s.tbc else x.progressAt }).emit
    (.flit p (flitBytes (flitOf 2 0 ((x.rxSeq + 4095) % 4096) true [] 0xFF (le 2 x.rxSeq))))

/-- A link goes down and retrains; what has arrived of a message stays, since its flits do not come again (R250). -/
def State.linkFails (s : State) (p : Nat) : State :=
  if (s.peer p).link != 2 then s
  else s.modPeer p fun x => { x with link := 1, downAt := some s.tbc, discarding := false }

/-- TBC from which the link is down for want of valid flits, or of progress while some is due (R250). -/
def Peer.deadAt (x : Peer) : Nat :=
  let quiet := x.lastValid + 10 * us
  if x.replay.isEmpty && !x.discarding then quiet else min quiet (x.progressAt + 50 * us)

/-- PEER_LINK_DOWN. -/
def peerLinkDown (p : Nat) (s : State) : State :=
  if (s.peer p).link != 2 then s else (s.until (s.peer p).deadAt).linkFails p

/-- Flits from a sequence number leave again; the sixteenth replay of one takes the link down (R249, R250). -/
def State.replayFrom (s : State) (p seq : Nat) : State :=
  let x := s.peer p
  let fs := x.replay.dropWhile fun f => f.1 != seq
  if x.link != 2 || fs.isEmpty then s
  else
    let n := if x.lastReplay = seq then x.replays + 1 else 1
    let s := s.modPeer p fun x => { x with lastReplay := seq, replays := n }
    if 16 ≤ n then s.linkFails p else fs.foldl (fun s f => s.emit (.flit p f.2)) s

/-! ### Receiving (R244, R248, R249) -/

/-- Acknowledged flits leave the replay buffer. -/
def acked (l : List (Nat × Bytes)) (ack : Nat) : List (Nat × Bytes) :=
  if l.any fun f => f.1 == ack then (l.dropWhile fun f => f.1 != ack).drop 1 else l

/-- Credits that a flit returns. -/
def addCredits (c : List Nat) (content : Bytes) : List Nat :=
  [5, 7].foldl (fun c o =>
    let v := fld content o 2
    let vc := bits v 13 12
    if vc < 3 then c.set vc (c.getD vc 0 + v % 4096) else c) c

/-- Messages in a stream of bytes, and what is left of an unfinished one; a zero opcode is padding to the end. -/
def splitMsgs : Nat → Bytes → List Bytes × Bytes
  | 0, b => ([], b)
  | fuel + 1, b =>
    if b.isEmpty || fld b 0 1 = 0 then ([], [])
    else if b.length < 16 || b.length < msgLen b then ([], b)
    else
      let n := msgLen b
      let r := splitMsgs fuel (b.drop n)
      (b.take n :: r.1, r.2)

/-- A module is MEMBER in the last accepted table. -/
def State.isMember (s : State) (m : Nat) : Bool := s.fab.members.any fun x => x.module == m && x.state == 1

/-- The row that a control message's body spells, from a source and a port (R251, log 12). An answer to POLL or OCCUPANCY is
longer than its question. -/
def rowOfCtl (p me op src : Nat) (b : Bytes) : Option Instr :=
  match op with
  | 0x20 => some (.hello p (fld b 0 8) (fld b 8 1) (fld b 9 1) (fld b 10 4))
  | 0x21 => some (.heartbeat src)
  | 0x22 => some (.joinReq p (slice b 2 16) (b.drop 18) (fld b 0 2))
  | 0x23 => some (.joinAck src (fld b 0 1) (fld b 1 4) ((b.drop 5).map (·.toNat)))
  | 0x24 =>
    let n := fld b 4 2
    let entry (k : Nat) : Member :=
      let o := 6 + 24 * k
      { module := fld b o 1, state := fld b (o + 1) 1, level := fld b (o + 2) 2, epoch := fld b (o + 4) 4, serial := slice b (o + 8) 16 }
    let table := (List.range n).map entry
    let routes := match (List.range n).find? fun k => (entry k).module == me with
      | some k => (slice b (6 + 24 * n + 256 * k) 256).map (·.toNat)
      | none => []
    some (.membership src (fld b 0 4) table routes)
  | 0x25 => some (.membershipAck src (fld b 0 4))
  | 0x26 => some (if b.isEmpty then .poll src else .pollAnswer src (fld b 1 4) (slice b 7 16) (fld b 5 2))
  | 0x28 => some (.windowNotice src (fld b 0 1) (fld b 1 2) (fld b 3 1) (fld b 4 2))
  | 0x29 => some (.windowInfo src (fld b 0 1))
  | 0x2A => some (if b.length ≤ 1 then .occupancy src (fld b 0 1) else .occupancyAnswer src (fld b 0 1) (fld b 1 2))
  | _ => none

/-- The row of an FW_CHAIN message (14 R481). -/
def rowOfChain (m : Msg) : Option Instr :=
  let b := m.data
  match m.gen with
  | 0 => some (.announce m.src (fld b 0 8) (fld b 8 4) (fld b 12 4) (slice b 16 16) (fld b 32 1)
      ((slice b 256 (fld b 34 2)).map (·.toNat)))
  | 1 => some (.ready m.src (fld b 0 1))
  | 2 => some (.segment m.src m.ca b)
  | 3 => some (.resend m.src m.ca)
  | 4 => some (.done m.src)
  | 5 => some (.received m.src (fld b 0 1 != 0))
  | 6 => some (.result (fld b 0 1) (fld b 1 1) (fld b 2 1))
  | 7 => some (.activate m.src)
  | 8 => some (.activated (fld b 0 1) (fld b 1 1) (fld b 2 1))
  | _ => none

/-- The row of a message that is whole in itself. -/
def rowOfMsg (m : Msg) : Option Instr :=
  match m.opcode with
  | 0x01 => some (.rd m)
  | 0x02 => some (.wr m)
  | 0x10 => some (.rdData m)
  | 0x11 => some (.wrAck m)
  | 0x12 => some (.nack m)
  | 0x30 => rowOfChain m
  | _ => none

/-- A part of a control message: the state that keeps it, and the row once the last part is here. A part out of place ends
what was kept. -/
def State.takePart (s : State) (p : Nat) (m : Msg) : State × Option Instr :=
  let key := 65536 * p + 256 * m.opcode + m.src
  let had := if m.ca = 0 then [] else tabGet [] s.fab.ctlParts key
  let all := had ++ slice m.data 0 (min m.gen 1024)
  let last := m.gen ≤ 1024
  let place := had.length == m.ca
  let keep := if place && !last then tabSet s.fab.ctlParts key all else tabDel s.fab.ctlParts key
  (s.setFab { s.fab with ctlParts := keep }, if place && last then rowOfCtl p s.fab.me m.opcode m.src all else none)

/-- The row of a message for this module, where it completes one. -/
def State.takeMsg (s : State) (p : Nat) (m : Msg) : State × Option Instr :=
  if 0x20 ≤ m.opcode && m.opcode != 0x30 then s.takePart p m else (s, rowOfMsg m)

/-- A message for another module goes on by the route table, one hop fewer; at none left it is discarded and counted (R251).
Its credits on the incoming port are freed once it has those of the outgoing one (R248). Only control messages go on for a
neighbour that is not a member (R256). -/
def State.forward (s : State) (q : Nat) (m : Msg) (len : Nat) : State :=
  let out := (s.portsTo m.opcode m.dst).filter fun p => !broadcasts m.opcode m.dst || p != q
  if s.fab.mstate != 2 || out.isEmpty || (m.vc != 2 && !(s.sameConst q && s.isMember (s.peer q).neighbour)) then s.owe q m.vc len
  else if m.hops ≤ 1 then (s.setFab { s.fab with hopDrops := s.fab.hopDrops + 1 }).owe q m.vc len
  else
    let b := msgBytes { m with hops := m.hops - 1 }
    (s.emit (.msg m.dst m)).sendOn (out.map fun p => (p, m.vc, b, if out.getLast? == some p then some q else none))

/-- A message is for this module: by its number, or because it passes from neighbour to neighbour (R256). -/
def State.isMine (s : State) (m : Msg) : Bool :=
  m.dst == s.fab.me || m.opcode == 0x20 || m.opcode == 0x22 || m.opcode == 0x23

/-- One message of a flit: the state, and the row where it is for this module. A broadcast is taken from the port that
leads to its source, and goes on by the others (log 24). -/
def State.deliverOne (s : State) (p : Nat) (b : Bytes) : State × Option Instr :=
  let m := parseMsg b
  if broadcasts m.opcode m.dst then
    if s.fab.mstate == 2 && s.fab.routes.getD m.src 0xFF != p then (s.owe p m.vc b.length, none)
    else (s.forward p m b.length).takeMsg p m
  else if s.isMine m then (s.owe p m.vc b.length).takeMsg p m
  else (s.forward p m b.length, none)

/-- Messages of a flit: the rows of those for this module are next in the queue of commands, in order. -/
def State.deliver (s : State) (p : Nat) (l : List Bytes) : State :=
  let r := l.foldl (fun (r : State × List Instr) b =>
    let t := r.1.deliverOne p b
    (t.1, r.2 ++ t.2.toList)) (s, [])
  r.1.requeue r.2

/-- A DATA flit in order. -/
def State.acceptFlit (s : State) (p : Nat) (content : Bytes) : State :=
  let x := s.peer p
  let pay := slice content 10 242
  let start := fld content 9 1
  -- without a message under way, the first header of the flit begins at MSG_START
  let bytes := if x.partial_.isEmpty then (if start = 0xFF then [] else pay.drop start) else x.partial_ ++ pay
  let (l, rest) := splitMsgs 32 bytes
  let s := s.modPeer p fun x =>
    { x with rxSeq := (x.rxSeq + 1) % 4096, discarding := false, partial_ := rest, sinceAck := x.sinceAck + 1,
             progressAt := if x.discarding || x.replay.isEmpty then s.tbc else x.progressAt,
             lastGood := if x.sinceAck = 0 then s.tbc else x.lastGood }
  let s := s.deliver p l
  if 64 ≤ (s.peer p).sinceAck then s.idleFlit p else s

/-- FLIT_RECEIVE. -/
def flitReceive (p : Nat) (f : Bytes) (s : State) : State :=
  let x := s.peer p
  if x.link != 2 || f.length != 272 then s
  else match flitContent f with
    | none => if x.discarding then s else s.retryFlit p
    | some c =>
      let s := s.modPeer p fun x =>
        let x := { x with lastValid := s.tbc, credits := addCredits x.credits c }
        if bit (fld c 3 2) 12 then
          let l := acked x.replay (fld c 3 2 % 4096)
          if l.length < x.replay.length then { x with replay := l, replays := 0, progressAt := s.tbc } else x
        else x
      let s := s.pump p
      match fld c 0 1 % 16 with
      | 1 =>
        let seq := fld c 1 2 % 4096
        if seq = x.rxSeq then s.acceptFlit p c
        else if x.discarding || 2048 ≤ (seq + 4096 - x.rxSeq) % 4096 then s
        else s.retryFlit p
      | 2 => s.replayFrom p (fld c 10 2 % 4096)
      | _ => s

/-- RETRY_REQ_REPEAT: no progress for 2 microseconds (R249). -/
def retryRepeat (p : Nat) (s : State) : State :=
  let x := s.peer p
  if x.link != 2 || !x.discarding then s else (s.until (x.retrySent + 2 * us)).retryFlit p

/-- ACK_TIMER: 100 ns after the oldest flit not acknowledged (R249). -/
def ackTimer (p : Nat) (s : State) : State :=
  let x := s.peer p
  if x.link != 2 || x.sinceAck = 0 then s else (s.until (x.lastGood + 100)).idleFlit p

/-- PEER_LINK_RETRAINED: unacknowledged flits leave again; no message is lost (R250). -/
def peerRetrained (p lanes : Nat) (s : State) : State :=
  let x := s.peer p
  let w := widthOf lanes
  if x.link != 1 || x.downAt.isNone || w = 0 then s
  else
    let s := s.modPeer p fun x => { x with link := 2, width := w, retrains := x.retrains + 1, downAt := none, lastValid := s.tbc, progressAt := s.tbc, replays := 0 }
    (((s.peer p).replay.foldl (fun s f => s.emit (.flit p f.2)) s).hello p).pump p

/-- Messages that wait at a port are dropped; those forwarded free their credits. -/
def State.dropQueued (s : State) (p : Nat) : State :=
  (s.peer p).txq.foldl (fun s m => match m.2.2 with
    | some q => s.owe q m.1 m.2.1.length
    | none => s) (s.modPeer p fun x => { x with txq := [] })

/-- PORT_DOWN: not retrained within 10 ms (R250, R275). -/
def portDown (p : Nat) (s : State) : State :=
  match (s.peer p).downAt with
  | none => s
  | some t =>
    let s := ((s.until (t + 10 * ms)).dropQueued p).modPeer p fun x =>
      { x with link := 3, width := 0, replay := [], partial_ := [], downAt := none, neighbour := 0xFF, cid := 0 }
    (s.dropParts p).signalPf0 6

def execPeerLinkTrain (port lanes : Nat) (s : State) : Host.Outcome State Fault Refusal := .next (peerTrain port lanes s)
def execFlitReceive (port : Nat) (flit : Bytes) (s : State) : Host.Outcome State Fault Refusal := .next (flitReceive port flit s)
def execRetryReq (port seq : Nat) (s : State) : Host.Outcome State Fault Refusal := .next (s.replayFrom port (seq % 4096))
def execRetryReqRepeat (port : Nat) (s : State) : Host.Outcome State Fault Refusal := .next (retryRepeat port s)
def execAckTimer (port : Nat) (s : State) : Host.Outcome State Fault Refusal := .next (ackTimer port s)
def execPeerLinkDown (port : Nat) (s : State) : Host.Outcome State Fault Refusal := .next (peerLinkDown port s)
def execPeerLinkRetrained (port lanes : Nat) (s : State) : Host.Outcome State Fault Refusal := .next (peerRetrained port lanes s)
def execPortDown (port : Nat) (s : State) : Host.Outcome State Fault Refusal := .next (portDown port s)

end Sys2Proof.Machine
end

