-- ==== Sys2Proof/Machine/Windows.lean ====
section
/-! DEFINITION. Lend and Periscope windows: requests served and made, staging and commit (08 R253, R262-R271). -/
namespace Sys2Proof.Machine
open Sys2Proof

/-! ### The end of a read or write of a home in T3 or T4 -/

/-- Reads of a page that waited for its block are answered; those behind held writes stay. -/
def State.answerReads (s : State) (n : Nat) : State :=
  let tier := ((s.homeOf (.page n)).map (·.tier)).getD 2
  s.pool.waiting.foldl (fun s r =>
    if r.dpa / 4096 != n || s.lineBusy (r.dpa / 64) then s
    else
      let s := s.setPool { s.pool with waiting := s.pool.waiting.erase r }
      s.respondRead r tier (if s.linePoison (r.dpa / 64) then none else some (s.lineData (r.dpa / 64)))) s

def State.answerItem (s : State) (i : Item) : State :=
  (match i with
  | .page n => s.answerReads n
  | _ => s).wake

/-- The block of an item has arrived with bits in error (11 R353, R363). A page is decoded on its slice; what an engine fetches
is decoded where it is used. -/
def State.farArrived (s : State) (i : Item) (flips : List Nat) : State :=
  let s := match s.homeOf i with
    | none => s
    | some h => match h.blk, i with
      | none, _ => s
      | some b, .page _ => (s.readItem i h b flips 1 0 0).2
      | some b, _ => (s.blockRead i h b flips 0).2
  s.answerItem i

/-- The block of an item does not arrive: it is uncorrectable (R253, R271, R274). -/
def State.farFailed (s : State) (i : Item) : State :=
  (if (s.homeOf i).any fun h => 2 < h.tier then s.uncorrectable i 0 else s).answerItem i

/-- Requests of an item that are under way: reads, or writes. -/
def State.farOut (s : State) (kind : Nat) (i : Item) : Bool :=
  (s.fab.reqs.any fun r => r.2.item == some i && r.2.kind == kind && !r.2.timedOut) ||
  s.fab.heldReqs.any fun r => r.item == some i && r.kind == kind

/-- The block of an item is written: its writes complete, as poison where the fabric refused one (R253). -/
def State.farWritten (s : State) (i : Item) (good : Bool) : State :=
  match i with
  | .page n =>
    let ws := (s.pool.far.filter fun w => w.1 == n).map (·.2)
    let s := s.setPool { s.pool with far := s.pool.far.filter fun w => w.1 != n }
    let s := ws.foldl (fun s w => (if good then s else (s.poisonLine w.line).loupeDrop n).complete w 3) s
    let s := if good then s else match s.moveOf i with
      | some m => if m.dest.tier = 3 then s.endMove m else s
      | none => s
    s.answerItem i
  | _ =>
    if good then s
    else match s.moveOf i with
      | some m => if m.dest.tier = 3 then s.endMove m else s.uncorrectable i 0
      | none => s.uncorrectable i 0

/-- A request has ended, and with it perhaps the read or write of its item. -/
def State.reqEnded (s : State) (r : FReq) (good : Bool) : State :=
  match r.item with
  | none => s
  | some i =>
    if r.kind = 1 then (if !good then s.farWritten i false else if s.farOut 1 i then s else s.farWritten i true)
    else if !good then s.farFailed i
    else if s.farOut 0 i then s
    else
      let fl := (s.fab.flips.filter fun f => f.1 == i).map (·.2)
      (s.setFab { s.fab with flips := s.fab.flips.filter fun f => f.1 != i }).farArrived i fl

def State.dropReq (s : State) (t : Nat) : State := (s.setFab { s.fab with reqs := tabDel s.fab.reqs t }).sendHeld

/-! ### The lender (R262, R267, R269) -/

/-- Window, offset and outcome of a request at the lender: 0 served, 2 STALE, 3 RANGE. -/
def State.lendCheck (s : State) (m : Msg) : Nat × Nat × LendWin × Nat :=
  let w := bits m.ca 43 38
  let off := m.ca % 2 ^ 38
  let x := tabGet ({} : LendWin) s.fab.lw w
  let inside := off + 256 * m.len ≤ x.size * 2 ^ 30 && ((lendSlice x.mask (off / 2 ^ 30)).any s.up)
  let serve := if inside then 0 else 3
  let prev := (x.gen + 65535) % 65536
  let out := if !x.valid || m.src != x.borrower then 3
    else if m.gen = x.gen then serve
    else if m.gen = prev && s.tbc < x.commitAt + x.graceUs * us then serve
    else 2
  (w, off, x, out)

def State.reply (s : State) (m : Msg) (op : Nat) (x : LendWin) (status : Nat) (data : Bytes) : State :=
  s.sendMsg { opcode := op, vc := 1, len := if op = 0x10 && status = 0 then m.len else 0, src := s.fab.me, dst := m.src, tag := m.tag, hops := 8,
              gen := x.gen, ca := m.ca, cls := x.cls, status := status, data := data }

/-- A request refused: RANGE, or STALE with its record. -/
def State.refuseMsg (s : State) (m : Msg) (w : Nat) (x : LendWin) (out : Nat) : State :=
  let s := if out != 2 then s
    else (s.setFab { s.fab with staleNacks := s.fab.staleNacks + 1 }).recordLim 0 0x0007 w ms fun held =>
      flds [(1, m.src), (1, w), (2, m.gen), (2, x.gen), (2, held), (8, m.ca), (8, x.commitAt), (8, s.tbc)]
  s.reply m 0x12 x out []

/-- A message that this module takes: it is a member, and the message is its own. -/
def State.takesMsg (s : State) (m : Msg) : Bool := s.fab.mstate == 2 && m.dst == s.fab.me

/-- A request for this module, or one to be forwarded. -/
def State.atLender (s : State) (m : Msg) (h : Nat → Nat → LendWin → State) : State :=
  if s.fab.mstate != 2 then s
  else if m.dst != s.fab.me then (if m.hops ≤ 1 then s.setFab { s.fab with hopDrops := s.fab.hopDrops + 1 } else s.sendMsg { m with hops := m.hops - 1 })
  else
    let (w, off, x, out) := s.lendCheck m
    if out = 0 then h w off x else s.refuseMsg m w x out

/-- A sector of a lend window; one never written reads as zeros (log 23). -/
def sectorOf (x : LendWin) (k : Nat) : Bytes := (tabFind x.cells k).getD (List.replicate 256 0)

/-- The controller of a lent stretch that is frozen. -/
def State.lentFrozen (s : State) (w off len : Nat) : Option Ctl := (s.lentAt w off).bind fun p => s.homeFrozen p.1 p.2 0 len

/-- A lent stretch holds content that was lost (R262). -/
def State.lentBad (s : State) (w off len : Nat) : Bool :=
  let x := tabGet ({} : LendWin) s.fab.lw w
  (s.lentFrozen w off len).isSome ||
  (List.range (len / 256)).any fun k => !x.fresh.contains (off / 256 + k) && s.lentOn w (off + 256 * k) 256 x.gone

/-- A request to a lent stretch is carried out, or waits while a controller is frozen that does not yet poison (10 R336). -/
def State.atLent (s : State) (m : Msg) (w off : Nat) (h : State → State) : State :=
  match s.lentFrozen w off (256 * m.len) with
  | some c => if (s.chan c).poisoning then h s else s.setFab { s.fab with lendWait := s.fab.lendWait ++ [m] }
  | none => h s

/-- The accesses of a lent stretch, under the window's class (R262). -/
def State.lentAccess (s : State) (w off len : Nat) (write : Bool) (cls : Nat) : State :=
  match s.lentAt w off with
  | some p => s.access p.1 p.2 0 len write cls
  | none => s

/-- RD. -/
def rdMsg (m : Msg) (s : State) : State :=
  s.atLender m fun w off x => s.atLent m w off fun s =>
    let bad := s.lentBad w off (256 * m.len)
    let data := if bad then [] else (List.range m.len).flatMap fun k => sectorOf x (off / 256 + k)
    (s.lentAccess w off (256 * m.len) false x.cls).reply m 0x10 x (b2n bad) data

/-- WR: stored, or refused as poison by a controller that has been frozen too long. -/
def wrMsg (m : Msg) (s : State) : State :=
  s.atLender m fun w off x => s.atLent m w off fun s =>
    if (s.lentFrozen w off (256 * m.len)).isSome then s.reply m 0x11 x 1 []
    else
      let ks := (List.range m.len).map (off / 256 + ·)
      let cells := (List.range m.len).foldl (fun c k => tabSet c (off / 256 + k) (slice m.data (256 * k) 256)) x.cells
      let x' : LendWin := { x with cells := cells, fresh := if x.gone.isEmpty then [] else (x.fresh.filter fun k => !ks.contains k) ++ ks }
      let s := (s.lentAccess w off (256 * m.len) true x.cls).setFab { s.fab with lw := tabSet s.fab.lw w x' }
      s.reply m 0x11 x 0 []

/-! ### The borrower (R253, R268) -/

/-- The outstanding request that a response answers; a late response is discarded and counted. -/
def State.answered (s : State) (m : Msg) (h : FReq → State) : State :=
  if s.fab.mstate != 2 then s
  else if m.dst != s.fab.me then (if m.hops ≤ 1 then s.setFab { s.fab with hopDrops := s.fab.hopDrops + 1 } else s.sendMsg { m with hops := m.hops - 1 })
  else match tabFind s.fab.reqs m.tag with
    | some r =>
      if r.timedOut || r.msg.dst != m.src then
        s.setFab { s.fab with lateRsp := s.fab.lateRsp + 1,
                              reqs := if r.timedOut && r.msg.dst = m.src then tabSet s.fab.reqs m.tag { r with lateSeen := true } else s.fab.reqs }
      else h r
    | none => s.setFab { s.fab with lateRsp := s.fab.lateRsp + 1 }

/-- Bits in which a stretch of a block as it arrives differs from the block as it was stored. -/
def flipsOf (stored arrived : Bytes) (off : Nat) : List Nat :=
  ((stored.zip arrived).zipIdx).flatMap fun x =>
    ((List.range 8).filter fun k => bit (x.1.1.toNat ^^^ x.1.2.toNat) k).map fun k => 8 * (off + x.2) + (7 - k)

/-- RD_DATA. -/
def rdDataMsg (m : Msg) (s : State) : State :=
  s.answered m fun r =>
    let s := s.dropReq m.tag
    if m.status != 0 then s.reqEnded r false
    else match r.item with
      | none => s
      | some i =>
        let fl := match s.homeOf i with
          | some h => match h.blk with
            | some b =>
              let off := r.msg.ca % 2 ^ 38 - h.ma
              if h.tier = 3 then flipsOf (slice (blockBytes b) off (256 * r.msg.len)) (slice m.data 0 (256 * r.msg.len)) off else []
            | none => []
          | none => []
        (s.setFab { s.fab with flips := s.fab.flips ++ fl.map fun k => (i, k) }).reqEnded r true

/-- WR_ACK. -/
def wrAckMsg (m : Msg) (s : State) : State := s.answered m fun r => (s.dropReq m.tag).reqEnded r (m.status == 0)

/-- A granule whose lender answers RANGE; a window all of whose granules do is LOST (R271). -/
def State.rangeSeen (s : State) (r : FReq) : State :=
  let g := r.msg.ca % 2 ^ 38 / 2 ^ 30
  s.modPw r.win fun w =>
    let l := if w.ranged.contains g then w.ranged else w.ranged ++ [g]
    { w with ranged := l, state := if w.valid && w.size ≤ l.length then 2 else w.state }

/-- NACK. -/
def nackMsg (m : Msg) (s : State) : State :=
  s.answered m fun r =>
    if m.status = 2 then
      -- STALE: new requests are held until the notice that answers WINDOW_INFO
      let s := s.setFab { s.fab with staleNacks := s.fab.staleNacks + 1, reqs := tabSet s.fab.reqs m.tag { r with again := true } }
      let w := s.pw r.win
      if w.hold then s else (s.modPw r.win fun w => { w with hold := true }).mgmt 0x29 w.lender [w.lw]
    else
      let s := s.setFab { s.fab with rangeNacks := if m.status = 3 then s.fab.rangeNacks + 1 else s.fab.rangeNacks }
      let s := if m.status = 3 then s.rangeSeen r else s
      (s.dropReq m.tag).reqEnded r false

/-- REQ_TIMEOUT_EXPIRY. -/
def reqTimeout (t : Nat) (s : State) : State :=
  match tabFind s.fab.reqs t with
  | none => s
  | some r =>
    if r.timedOut then s
    else
      let s := s.until (r.issued + r.limitUs * us)
      (s.setFab { s.fab with reqs := tabSet s.fab.reqs t { r with timedOut := true, again := false } }).reqEnded r false

/-- REQUEST_TAG_REUSE: the later of the late response and twice REQ_TIMEOUT. -/
def reqTagReuse (t : Nat) (s : State) : State :=
  match tabFind s.fab.reqs t with
  | none => s
  | some r => if r.timedOut && r.lateSeen then (s.until (r.issued + 2 * r.limitUs * us)).dropReq t else s

/-- A window's generation is known again: requests that waited for it are reissued, then those held (R268). -/
def State.resumeWindow (s : State) (w : Nat) : State :=
  let l := s.fab.reqs.filter fun r => r.2.win == w && r.2.again
  let g := (s.pw w).gen
  let s := l.foldl (fun s r =>
    let r' : FReq := { r.2 with again := false, msg := { r.2.msg with gen := g } }
    (s.setFab { s.fab with reqs := tabSet s.fab.reqs r.1 r' }).sendMsg r'.msg) s
  s.sendHeld

/-- WINDOW_NOTICE (R266). -/
def windowNotice (src lw size borrower gen : Nat) (s : State) : State :=
  if s.fab.mstate != 2 || borrower != s.fab.me then s
  else
    let s := s.setFab { s.fab with notices := tabSet s.fab.notices (src * 64 + lw) (size, gen) }
    let ws := (s.fab.pw.filter fun w => w.2.valid && w.2.lender == src && w.2.lw == lw).map (·.1)
    ws.foldl (fun s w => (s.modPw w fun x => { x with gen := gen, size := min x.size size, hold := false }).resumeWindow w) s

/-- The notice of a lend window to a module (R266). -/
def State.notice (s : State) (dst w : Nat) : State :=
  let x := tabGet ({} : LendWin) s.fab.lw w
  s.mgmt 0x28 dst [w, if x.valid then x.size else 0, x.borrower, x.gen]

/-- WINDOW_INFO. -/
def windowInfo (src lw : Nat) (s : State) : State := if s.fab.mstate != 2 then s else s.notice src lw

/-- Granules of a Periscope window up to the highest that holds a home; 0 where none does (R265, R270). -/
def State.occupied (s : State) (w : Nat) : Nat :=
  s.homes.foldl (fun n e => if e.2.tier = 3 && e.2.unit = w then max n ((e.2.ma + homeLen e.2 - 1) / 2 ^ 30 + 1) else n) 0

/-- OCCUPANCY. -/
def occupancy (src lw : Nat) (s : State) : State :=
  if s.fab.mstate != 2 then s
  else
    let n := s.fab.pw.foldl (fun n w => if w.2.valid && w.2.lender = src && w.2.lw = lw then max n (s.occupied w.1) else n) 0
    s.mgmt 0x2A src [lw, n]

/-! ### Staging and commit (R264-R266, R270, R271, 13 R444) -/

def stageCmd (inp : Bytes) (s : State) : Reply :=
  let kind := fld inp 0 1
  let b2 := fld inp 2 1
  let x : Staged := { kind := kind, win := fld inp 1 1, valid := bit b2 0, flag := bit b2 1, peer := fld inp 3 1, size := fld inp 4 2,
                      mask := fld inp 6 1, cls := fld inp 7 1 % 16 }
  if 1 < kind || 64 ≤ x.win || 256 < x.size || (kind = 1 && 64 ≤ x.mask) || (kind = 0 && (16 ≤ fld inp 7 1 || 2 ^ s.cfg.slices ≤ x.mask)) then fail s .invalidInput
  else if s.fab.commit.isSome then fail s .busy
  else ok (s.setFab { s.fab with staged := (s.fab.staged.filter fun y => !(y.kind == kind && y.win == x.win)) ++ [x] })

/-- The lend window that a staged copy makes of the present one. -/
def lendAfter (x : LendWin) (y : Staged) (now grace : Nat) : LendWin :=
  let tier := if y.flag then 2 else 1
  let same := y.valid && x.valid && x.borrower == y.peer
  let kept : LendWin :=
    { valid := y.valid, tier := tier, mask := y.mask, size := if y.valid then y.size else 0, borrower := y.peer, cls := y.cls,
      gen := x.gen, commitAt := x.commitAt, graceUs := x.graceUs, cells := if same then x.cells.filter fun c => c.1 < y.size * 2 ^ 22 else [],
      gone := if same then x.gone else [], fresh := if same then x.fresh.filter (· < y.size * 2 ^ 22) else [] }
  if kept = x then x else { kept with gen := (x.gen + 1) % 65536, commitAt := now, graceUs := grace }

def State.lwAfter (s : State) : Tab LendWin :=
  (s.fab.staged.filter fun y => y.kind == 0).foldl (fun t y =>
    tabSet t y.win (lendAfter (tabGet ({} : LendWin) t y.win) y s.tbc s.fab.graceUs)) s.fab.lw

/-- The Periscope window that a staged copy makes of the present one (R263, R270). -/
def State.pwAfter (s : State) (w : PsWin) (y : Staged) : PsWin :=
  if !y.valid then {}
  else
    let same := w.valid && w.lender == y.peer && w.lw == y.mask
    { valid := true, state := if y.flag then 1 else if same && w.state = 2 then 2 else 0, lender := y.peer, lw := y.mask, size := y.size,
      drain := y.flag, gen := ((tabFind s.fab.notices (y.peer * 64 + y.mask)).map (·.2)).getD (if same then w.gen else 0),
      hold := same && w.hold, ranged := if same then w.ranged else [] }

def State.pwsAfter (s : State) : Tab PsWin :=
  (s.fab.staged.filter fun y => y.kind == 1).foldl (fun t y => tabSet t y.win (s.pwAfter (tabGet ({} : PsWin) t y.win) y)) s.fab.pw

/-- Homes of a Periscope window that a commit leaves without a place. -/
def State.orphans (s : State) (y : Staged) : List Item :=
  let w := s.pw y.win
  let same := y.valid && w.lender == y.peer && w.lw == y.mask
  s.items.filter fun i => (s.homeOf i).any fun h =>
    h.tier == 3 && h.unit == y.win && (!same || y.size * 2 ^ 30 < h.ma + homeLen h)

/-- The checks of R265 that need no answer. -/
def State.commitOk (s : State) (force : Bool) : Bool :=
  let lw := s.lwAfter
  let lent (tier : Nat) : Nat := lw.foldl (fun n w => if w.2.valid && w.2.tier = tier then n + w.2.size * 2 ^ 30 else n) 0
  let t3 := s.pwsAfter.foldl (fun n w => if w.2.valid then n + w.2.size * 2 ^ 30 else n) 0
  s.fab.mstate == 2 &&
  (s.fab.staged.all fun y => !y.valid || (s.isMember y.peer && y.peer != s.fab.me &&
    (y.kind == 1 || (y.mask != 0 && (List.range 8).all fun n => !bit y.mask n || s.up n)) &&
    (y.kind == 0 || (tabFind s.fab.notices (y.peer * 64 + y.mask)).all fun x => y.size ≤ x.1))) &&
  lent 1 ≤ s.assignableT1 - s.quotaSum (·.t1) && lent 2 ≤ s.availT2 - s.deviceReserve - s.quotaSum (·.t2) - s.quotaSum (·.overflow) &&
  s.quotaSum (·.t3) ≤ t3 &&
  (force || s.fab.staged.all fun y => y.kind == 0 || (s.orphans y).isEmpty)

/-- Granules that a staged copy leaves to the present borrower of its lend window. -/
def keptGranules (x : LendWin) (y : Staged) : Nat := if y.valid && y.peer = x.borrower then y.size else 0

/-- Lend windows whose borrower must report its occupation before the commit. -/
def State.asked (s : State) : List Nat :=
  (s.fab.staged.filter fun y =>
    let x := tabGet ({} : LendWin) s.fab.lw y.win
    y.kind == 0 && x.valid && keptGranules x y < x.size && s.isMember x.borrower).map (·.win)

/-- Every staged window takes effect in one step; lenders send their notices. The output names the windows changed. -/
def State.applyCommit (s : State) : State × Bytes :=
  let lw := s.lwAfter
  let pw := s.pwsAfter
  let mask (f : Nat → Bool) : Nat := (List.range 64).foldl (fun m w => if f w then m + 2 ^ w else m) 0
  let lends := (List.range 64).filter fun w => tabFind lw w != tabFind s.fab.lw w
  let pws := mask fun w => tabFind pw w != tabFind s.fab.pw w
  let lost := (s.fab.staged.filter fun y => y.kind == 1).flatMap s.orphans
  let s := lost.foldl (fun s i => (s.poisonItem i 0).modEnt i fun e => { e with home := none, bad := false }) s
  let old := s.fab.lw
  let s := s.setFab { s.fab with lw := lw, pw := pw, staged := [] }
  let s := lends.foldl (fun s w =>
    let x := tabGet ({} : LendWin) old w
    let y := tabGet ({} : LendWin) lw w
    let s := if y.valid then s.notice y.borrower w else s
    if x.valid && (!y.valid || x.borrower != y.borrower) then s.notice x.borrower w else s) s
  (s.sendHeld, flds [(8, mask lends.contains), (8, pws)])

def commitCmd (v : Iface) (inp : Bytes) (s : State) : Reply :=
  let discard := bit (fld inp 0 1) 0
  let force := bit (fld inp 0 1) 1
  if s.fab.commit.isSome || (!discard && s.bistFull && s.fab.staged.any fun y => y.valid) then fail s .busy
  else if discard then ok (s.setFab { s.fab with staged := [] }) (flds [(8, 0), (8, 0)])
  else if !s.commitOk force then fail s .invalidInput
  else
    let l := if force then [] else s.asked
    if l.isEmpty then
      let r := s.applyCommit
      ok r.1 r.2
    else
      let s := l.foldl (fun s w => s.mgmt 0x2A (tabGet ({} : LendWin) s.fab.lw w).borrower [w]) s
      { ok (s.setFab { s.fab with commit := some { via := v, asked := l } }) with later := true }

/-- A commit goes on once every borrower still in the table has answered. -/
def State.commitStep (s : State) : State :=
  match s.fab.commit with
  | none => s
  | some c =>
    if c.asked.any fun w => (tabFind c.found w).isNone && s.isMember (tabGet ({} : LendWin) s.fab.lw w).borrower then s
    else
      let busy := s.fab.staged.any fun y => y.kind == 0 && (tabFind c.found y.win).any fun n =>
        keptGranules (tabGet ({} : LendWin) s.fab.lw y.win) y < n
      let s := s.setFab { s.fab with commit := none }
      if busy || !s.commitOk false then s.respond c.via 0xC041 .invalidInput []
      else
        let r := s.applyCommit
        r.1.respond c.via 0xC041 .success r.2

/-- OCCUPANCY_ANSWER. -/
def occupancyAnswer (src lw highest : Nat) (s : State) : State :=
  match s.fab.commit with
  | none => s
  | some c =>
    if !c.asked.contains lw || (tabGet ({} : LendWin) s.fab.lw lw).borrower != src then s
    else (s.setFab { s.fab with commit := some { c with found := tabSet c.found lw highest } }).commitStep

def execRd (msg : Msg) (s : State) : Host.Outcome State Fault Refusal := .next (rdMsg msg s)
def execWr (msg : Msg) (s : State) : Host.Outcome State Fault Refusal := .next (wrMsg msg s)
def execRdData (msg : Msg) (s : State) : Host.Outcome State Fault Refusal := .next (rdDataMsg msg s).dirSettle
def execWrAck (msg : Msg) (s : State) : Host.Outcome State Fault Refusal := .next (wrAckMsg msg s).dirSettle
def execNack (msg : Msg) (s : State) : Host.Outcome State Fault Refusal := .next (nackMsg msg s).dirSettle
def execReqTimeoutExpiry (tag : Nat) (s : State) : Host.Outcome State Fault Refusal := .next (reqTimeout tag s).dirSettle
def execRequestTagReuse (tag : Nat) (s : State) : Host.Outcome State Fault Refusal := .next (reqTagReuse tag s)
def execWindowNotice (src lw size borrower gen : Nat) (s : State) : Host.Outcome State Fault Refusal :=
  .next (windowNotice src lw size borrower gen s)
def execWindowInfo (src lw : Nat) (s : State) : Host.Outcome State Fault Refusal := .next (windowInfo src lw s)
def execOccupancy (src lw : Nat) (s : State) : Host.Outcome State Fault Refusal := .next (occupancy src lw s)
def execOccupancyAnswer (src lw highest : Nat) (s : State) : Host.Outcome State Fault Refusal := .next (occupancyAnswer src lw highest s).dirSettle
def rowStage : Row := { op := 0xC040, thru := 8, lo := 8, hi := 8 }
def execPeriscopeWindowStage (via : Iface) (inp : Bytes) (s : State) : Host.Outcome State Fault Refusal :=
  .next (mbxCall rowStage (.periscopeWindowStage via inp) via inp.length s (stageCmd inp))
def rowCommit : Row := { op := 0xC041, thru := 8, lo := 1, hi := 1 }
def execPeriscopeCommit (via : Iface) (inp : Bytes) (s : State) : Host.Outcome State Fault Refusal :=
  .next (mbxCall rowCommit (.periscopeCommit via inp) via inp.length s (commitCmd via inp)).dirSettle

end Sys2Proof.Machine
end

