-- ==== Sys2Proof/Machine/Trays.lean ====
section
/-! DEFINITION. The tray port: completions, timeouts, tags, LOST and draining trays (08 R272-R274, 12 R413-R417). -/
namespace Sys2Proof.Machine
open Sys2Proof

def State.trayTag (s : State) (e : Nat) : TrayTag := tabGet {} s.fab.tags e
def State.setTag (s : State) (e : Nat) (t : TrayTag) : State := s.setFab { s.fab with tags := tabSet s.fab.tags e t }

/-- A late completion is discarded, clears its bit and counts; its record carries the time since the issue (R414, R415). -/
def State.lateCpl (s : State) (tag : Nat) : State :=
  let e := tag % 4096
  let inc := tag / 4096 % 16
  let t := s.trayTag e
  let now := t.inc == inc
  let old := (t.past.find? fun p => p.1 == inc).map (·.2)
  let (issued, tray) := if now then (t.issued, t.tray) else old.getD (s.tbc, 0)
  let s := s.setTag e { t with mask := setBit t.mask inc false, lateSeen := t.lateSeen || (now && t.out), past := t.past.filter fun p => p.1 != inc }
  let s := s.setFab { s.fab with tpLate := s.fab.tpLate + 1 }
  s.recordLim 0 0x0012 0 ms fun held => flds [(1, tray), (1, 0), (2, tag), (4, (s.tbc - issued) / 1000), (4, held), (8, s.tbc)]

/-- TRAY_COMPLETION. -/
def trayCompletion (tag : Nat) (poison : Bool) (s : State) : State :=
  let e := tag % 4096
  let t := s.trayTag e
  match t.item with
  | some i =>
    if t.out || t.inc != tag / 4096 % 16 then s.lateCpl tag
    else
      let s := s.setTag e { t with item := none }
      if poison then s.farFailed i else s.farArrived i []
  | none => s.lateCpl tag

/-- A read of a tray ends without data. -/
def State.tagFails (s : State) (e : Nat) : State :=
  let t := s.trayTag e
  match t.item with
  | none => s
  | some i => (s.setTag e { t with item := none, out := true, timedOut := true, lateSeen := false }).farFailed i

/-- TRAY_READ_TIMEOUT. -/
def trayTimeout (e : Nat) (s : State) : State :=
  let t := s.trayTag e
  if t.item.isNone || t.out then s
  else
    let s := s.until (t.issued + t.limitUs * us)
    (s.setFab { s.fab with tpTimeouts := s.fab.tpTimeouts + 1 }).tagFails e

/-- TAG_REUSE: the entry returns at twice CPL_TIMEOUT with its incarnation advanced, unless the next one is still masked. -/
def tagReuse (e : Nat) (s : State) : State :=
  let t := s.trayTag e
  let next := (t.inc + 1) % 16
  if !t.out || bit t.mask next then s
  else
    let s := s.until (t.issued + 2 * t.limitUs * us)
    s.setTag e { t with out := false, inc := next, mask := if t.lateSeen then t.mask else setBit t.mask t.inc true, timedOut := false, lateSeen := false,
                        past := if t.lateSeen then t.past else (t.inc, t.issued, t.tray) :: t.past.filter fun p => p.1 != t.inc }

/-- TP0_LINK_ERROR: the trays behind the error are LOST, and their reads end (R274, R417). -/
def tp0Error (mask : Nat) (s : State) : State :=
  let put (t : Nat × Tray) : Nat × Tray := if bit mask t.1 && t.2.present then (t.1, { t.2 with lost := true }) else t
  let s := s.setFab { s.fab with trays := s.fab.trays.map put }
  let es := (s.fab.tags.filter fun t => t.2.item.isSome && !t.2.out && bit mask t.2.tray).map (·.1)
  es.foldl (fun s e => s.tagFails e) s

/-- TRAY_DRAIN: DRAIN of PSC_TRAY_CTL as software writes it. -/
def trayDrain (f : Func) (k : Nat) (drain : Bool) (s : State) : State :=
  s.pf0Write f fun s =>
    if !(tabGet ({} : Tray) s.fab.trays k).present then s
    else s.setFab { s.fab with trays := tabMod ({} : Tray) s.fab.trays k fun t => { t with drain := drain } }

/-- READY: a tray that is present and holds no home. -/
def State.trayReady (s : State) (k : Nat) : Bool :=
  (tabGet ({} : Tray) s.fab.trays k).present && !(s.homes.any fun h => h.2.tier == 4 && h.2.unit == k)

def execTrayCompletion (tag : Nat) (poison : Bool) (s : State) : Host.Outcome State Fault Refusal := .next (trayCompletion tag poison s).dirSettle
def execTrayReadTimeout (entry : Nat) (s : State) : Host.Outcome State Fault Refusal := .next (trayTimeout entry s).dirSettle
def execTagReuse (entry : Nat) (s : State) : Host.Outcome State Fault Refusal := .next (tagReuse entry s)
def execTp0LinkError (trays : Nat) (s : State) : Host.Outcome State Fault Refusal := .next (tp0Error trays s).dirSettle
def execTrayDrain (fn : Func) (tray : Nat) (drain : Bool) (s : State) : Host.Outcome State Fault Refusal := .next (trayDrain fn tray drain s)

end Sys2Proof.Machine
end

