-- ==== Sys2Proof/Machine/FwBase.lean ====
section
/-! DEFINITION. Firmware state records (14 R495-R497), chain messages (14 R481), and the switch back of a handover that
fails (14 R487, R488; 15 R529). -/
namespace Sys2Proof.Machine
open Sys2Proof

/-- The slices in service, as a mask. -/
def State.upMask (s : State) : Nat := s.upSlices.foldl (fun m n => m + 2 ^ n) 0

/-- An FW_STATE record, and the MGMT vector of every PF0 (R496, 12 R400). -/
def State.fwRecord (s : State) (log new prior result kind scope mask module detail offset : Nat) (version : Bytes) : State :=
  let p := flds [(1, new), (1, prior), (1, result), (1, kind), (1, scope), (1, mask), (1, module), (1, detail)] ++
    slice version 0 16 ++ flds [(4, offset), (4, 0), (8, s.tbc)]
  ((s.setFw { s.fw with lastResult := result }).record log 0x0017 p).signalPf0 6

/-- The log of a result. -/
def resultLog (result : Nat) : Nat := if result = 0 then 0 else if result = 15 then 2 else 1

/-- The firmware state changes, or an operation ends with a result: a record where either is so (R496). -/
def State.fwTo (s : State) (new result : Nat) (version : Bytes) (kind : Nat := 1) (scope : Nat := 0) (detail : Nat := 0)
    (offset : Nat := 0) (mask : Option Nat := none) : State :=
  let old := s.fw.state
  if new = old && result = 0 then s
  else (s.setFw { s.fw with state := new, prior := old }).fwRecord (resultLog result) new old result kind scope
    (mask.getD s.upMask) 0xFF detail offset version

/-- The return code of a background command that ends with a result (R497). -/
def resultRet (result : Nat) : Ret :=
  if result = 0 then .success else if result = 9 then .holdupLow else if result = 16 then .aborted else .invalidInput

/-- An FW_CHAIN message (R481): kind, byte offset and content. -/
def State.chainMsg (s : State) (dst num kind off : Nat) (data : Bytes) : State := s.mgmt 0x30 dst [num % 4096, kind, off] data

/-- ACTIVATED, or RESULT, to the master (R481, R491). -/
def State.reportMsg (s : State) (kind result : Nat) : State :=
  s.chainMsg s.fab.master ((s.fw.chain.map (·.num)).getD 0) kind 0 (flds [(1, s.fab.me), (1, result), (1, s.fw.state)])

/-- Records buffered during a pause are written (R487). -/
def State.flushRecords (s : State) : State :=
  let l := s.fw.buffered
  l.foldl (fun s r => s.recordNow r.1 r.2.1 r.2.2) (s.setFw { s.fw with buffered := [] })

/-- The pause of a unit ends: held commands resume, buffered records are written. -/
def State.pauseEnds (s : State) (h : Handover) : State :=
  let s := s.setFw { s.fw with handover := some { h with phase := 0, resumeAt := s.tbc } }
  s.flushRecords.releaseHeld

/-- A foreground command that waits for its end: a pause begins only when there is none (R487). -/
def State.foreground (s : State) : Bool :=
  (s.drc.chans.any fun c => c.2.thawing.isSome) || s.fab.commit.isSome || !s.pool.releasing.isEmpty || !s.tabLoads.isEmpty ||
  (s.ports.any fun p => p.2.releasing.isSome) || s.dir.publishes.any fun p => p.via.isSome

/-- Slices of a handover unit: one on a PM2 or PM4, all on a PM8 (R487). -/
def unitSlices (c : Cfg) (unit : Nat) : List Nat := if c.slices = 8 then List.range 8 else [unit]

/-- The activation ends with a result: the command completes, or the master is answered. -/
def State.activationEnds (s : State) (h : Handover) (result : Nat) : State :=
  match h.via with
  | some v => s.bgDone v 0xC059 (resultRet result) []
  | none => s.reportMsg 8 result

/-- A handover that failed ends once no unit runs the new firmware any longer (R488). -/
def State.handoverEnds (s : State) (h : Handover) : State :=
  let s := s.setFw { s.fw with handover := none }
  let mask := (unitSlices s.cfg h.unit).foldl (fun m n => m + 2 ^ n) 0
  (s.fwTo 5 h.why s.fw.main.version (scope := h.scope) (mask := some mask)).activationEnds h h.why

/-- The unit under handover switches back, and those switched before it hand back one at a time (R487, R488, R529). -/
def State.handoverFails (s : State) (result : Nat) : State :=
  match s.fw.handover with
  | none => s
  | some h =>
    let h' : Handover := { h with phase := 0, resumeAt := s.tbc, back := true, why := if h.back then h.why else result }
    let s := s.pauseEnds h'
    if h.doneUnits.isEmpty then s.handoverEnds h' else s.setFw { s.fw with handover := some h' }

/-- A slice reset or loss begins during a handover (15 R529). -/
def State.handoverHit (s : State) : State :=
  match s.fw.handover with
  | none => s
  | some h => s.handoverFails (if s.cfg.slices = 8 && h.phase ≤ 1 then 13 else 11)

end Sys2Proof.Machine
end

