-- ==== Sys2Proof/Machine/BistBase.lean ====
section
/-! DEFINITION. The course of a self-test run: suites that begin, end and are interrupted (18 R576-R578, R582). -/
namespace Sys2Proof.Machine
open Sys2Proof

def BistRun.of (r : BistRun) (n : Nat) : BistRes := tabGet {} r.res n

/-- Slices of a run. -/
def BistRun.members (r : BistRun) : List Nat := (List.range 8).filter (bit r.mask)

/-- The suites that a run carries out: DRAM_FREE does not run beside DRAM_FULL (R574). -/
def BistRun.todo (r : BistRun) : Nat := if bit r.suites 7 then setBit r.suites 6 false else r.suites

/-- Every suite of the run is over on a slice. -/
def BistRun.sliceDone (r : BistRun) (n : Nat) : Bool := (r.of n).cur == 15 && (r.todo &&& (r.of n).ended) == r.todo

/-- The next suite of a slice. D2D begins on a slice when every slice of the mask has ended its earlier suites (R577). -/
def BistRun.nextSuite (r : BistRun) (n : Nat) : Option Nat :=
  match (List.range 8).find? fun k => bit r.todo k && !bit (r.of n).ended k with
  | none => none
  | some k =>
    let early (m : Nat) : Bool := (List.range 4).all fun j => !bit r.todo j || bit (r.of m).ended j
    if k = 4 && !r.members.all early then none else some k

/-- The run that is not over. -/
def State.bistRun (s : State) : Option BistRun := s.bst.runs.find? fun r => !(r.members.all r.sliceDone)

def State.putRun (s : State) (r : BistRun) : State :=
  s.setBst { s.bst with runs := s.bst.runs.map fun x => if x.num = r.num then r else x }

/-- A suite begins on a slice (R576). -/
def State.suiteBegins (s : State) (n k : Nat) : State := if k = 2 then s.loupeFlush n else s

/-- Slices without a suite under way begin their next one; a run with none left completes (R577, R582). -/
def State.bistAdvance (s : State) (num : Nat) : State :=
  match s.bst.runs.find? fun r => r.num == num with
  | none => s
  | some r =>
    let s := r.members.foldl (fun s n =>
      match s.bst.runs.find? fun x => x.num == num with
      | none => s
      | some x =>
        if (x.of n).cur != 15 then s
        else match x.nextSuite n with
          | none => s
          | some k => (s.putRun { x with res := tabSet x.res n { x.of n with cur := k, began := s.tbc } }).suiteBegins n k) s
    match s.bst.runs.find? fun x => x.num == num with
    | none => s
    | some x =>
      if !x.members.all x.sliceDone then s
      else if x.state = 3 then s.bgDone x.via 0xC050 .aborted (flds [(2, num)])
      else (s.putRun { x with state := 2 }).bgDone x.via 0xC050 .success (flds [(2, num)])

/-- Suites unfinished on a slice that is reset or lost end INTERRUPTED (R582). -/
def State.bistInterrupt (s : State) (n : Nat) : State :=
  match s.bistRun with
  | none => s
  | some r =>
    if !bit r.mask n || r.sliceDone n then s
    else
      let x := r.of n
      let k := if x.cur = 15 then ((List.range 8).find? fun k => bit r.todo k && !bit x.ended k).getD 15 else x.cur
      let x' : BistRes := { x with ended := x.ended ||| r.todo, cur := 15, first := if x.first = 0 then k + 0x40 else x.first }
      (s.putRun { r with res := tabSet r.res n x' }).bistAdvance r.num

end Sys2Proof.Machine
end

