-- ==== Sys2Proof/Machine/Tenants.lean ====
section
/-! DEFINITION. Host records, tenants and classes: QOS_SET_CLASS (09 R278-R290, 13 R439); T0 shares that fall (04 R120). -/
namespace Sys2Proof.Machine
open Sys2Proof

/-- The common T0 factor of a slice set anew; staging copies beyond a share that falls go (09 R290, 04 R120). -/
def State.fitT0 (s : State) (n cause : Nat) : State :=
  let s := s.rescaleT0 n cause
  ((s.eng.t0.map (·.tenant)).eraseDups).foldl (fun s t => s.t0Trim t) s

/-- QOS_SET_CLASS, HOST form (R279, R281). Requests that the bucket already holds keep the class and the limit they arrived under. -/
def setHost (inp : Bytes) (s : State) : Reply :=
  let h := fld inp 2 2
  let port := fld inp 4 1
  let link := 2 * (port % 4) + b2n (bit port 2)
  let fl := fld inp 5 1
  let t := fld inp 6 2
  let c := fld inp 8 1
  let lim := fld inp 12 4
  let burst := fld inp 16 4
  let old := s.hostRec h
  let busy := s.hostHasExtents h || s.dir.sweep.any fun w => w.host == h
  if 1024 ≤ h then fail s .invalidInput
  else if !bit fl 1 then
    match old with
    | none => ok s
    | some r =>
      if busy then fail s .invalidInput
      else ok ((s.setQos { s.qos with hosts := tabDel s.qos.hosts h }).requeue (r.held.map (·.1) ++ r.recv))
  else
    let clash := bit fl 0 && s.qos.hosts.any fun r => r.1 != h && r.2.direct && r.2.port == link
    let moves := match old with
      | some r => r.tenant != t || r.port != link
      | none => false
    if 16 ≤ c || 1048575 < lim || burst < 4 || 4096 < burst || !linkFitted s.cfg link ||
        (tenantPort s.cfg t).map (·.1) != some (link / 2) || clash || (moves && busy) then fail s .invalidInput
    else
      let o : HostRec := old.getD { port := link, tenant := t, cls := c, burst := burst, tokens := burst * 1024000, tokensAt := s.tbc }
      let r : HostRec := { o with port := link, direct := bit fl 0, tenant := t, cls := c, limit := lim, burst := burst,
                                  tokens := min (burst * 1024000) (bucketNow o s.tbc), tokensAt := s.tbc }
      ok (s.setQos { s.qos with hosts := tabSet s.qos.hosts h r })

/-- QOS_SET_CLASS, TENANT form (R283, R290). -/
def setTenant (inp : Bytes) (s : State) : Reply :=
  let t := fld inp 2 2
  let c := fld inp 4 1
  let share := fld inp 5 1
  let s' := s.setQos { s.qos with tenants := tabSet s.qos.tenants t { cls := c, t0Mib := share } }
  if 1024 ≤ t || 16 ≤ c || 120 < share || s.upSlices.any fun n => s.assignableT0 n < s'.t0Sum then fail s .invalidInput
  else ok ((s.upSlices.foldl (fun s n => s.rescaleT0 n 5) s').t0Trim t)

/-- QOS_SET_CLASS, CLASS form (R284). -/
def setClass (inp : Bytes) (s : State) : Reply :=
  let k := fld inp 2 1
  let w := fld inp 3 1
  let q := fld inp 4 1
  let m := fld inp 5 1
  let c1 := fld inp 8 4
  let c2 := fld inp 12 4
  let r := s.cls k
  let low := s.upSlices.any fun n => c1 * 1024 < r.t1Floor * s.factor n 1 || c2 * 1024 < r.t2Floor * s.factor n 2
  if 16 ≤ k || w = 0 || q = 0 || 16 < q || m = 0 || 16 < m || c1 = 0 || c2 = 0 || low || q < r.qMin || m < r.minWays then
    fail s .invalidInput
  else
    let r' : ClassRec := { r with weight := w, qMax := q, maxWays := m, t1Ceil := c1, t2Ceil := c2 }
    ok (s.setQos { s.qos with classes := tabSet s.qos.classes k r' })

/-- QOS_SET_CLASS (13 R439). -/
def qosSetCmd (inp : Bytes) (s : State) : Reply :=
  match fld inp 0 1 with
  | 0 => setHost inp s
  | 1 => setTenant inp s
  | 2 => setClass inp s
  | _ => fail s .invalidInput

def rowQosSet : Row := { op := 0xC028, thru := 8, lo := 20, hi := 20 }
def execQosSetClassHost (via : Iface) (inp : Bytes) (s : State) : Host.Outcome State Fault Refusal :=
  .next (mbxCall rowQosSet (.qosSetClassHost via inp) via inp.length s (qosSetCmd inp))
def execQosSetClassTenant (via : Iface) (inp : Bytes) (s : State) : Host.Outcome State Fault Refusal :=
  .next (mbxCall rowQosSet (.qosSetClassTenant via inp) via inp.length s (qosSetCmd inp))
def execQosSetClassClass (via : Iface) (inp : Bytes) (s : State) : Host.Outcome State Fault Refusal :=
  .next (mbxCall rowQosSet (.qosSetClassClass via inp) via inp.length s (qosSetCmd inp))

end Sys2Proof.Machine
end

