-- ==== Sys2Proof/Machine/Reset.lean ====
section
/-! DEFINITION. Resets below the module: a tenant context, a link, the engine side of a slice, and the loss of a slice
(15 R512-R530). -/
namespace Sys2Proof.Machine
open Sys2Proof

/-! ### Steps that a reset ends (R516-R519, R530) -/

/-- A step ends by a reset; one that a reset has ended already and whose entry is not written yet records this one too. -/
def State.resetStep (s : State) (cond id : Nat) : State :=
  match s.step' id with
  | none => s
  | some x =>
    if x.phase != 3 then s.abortStep id cond fun _ => 0xFFFF
    else if bit x.conds 7 || bit x.conds 8 || bit x.conds 9 then s.setStep id { x with conds := x.conds ||| 2 ^ cond }
    else s

/-- The entry of a step sets no arithmetic flag of its tenant any longer (R526, 02 R72). -/
def State.quietStep (s : State) (id : Nat) : State :=
  match s.step' id with
  | none => s
  | some x => s.setStep id { x with quiet := true }

/-- Steps of a kind, with their tenants. -/
def State.stepsIf (s : State) (p : StepSt → Bool) : List (Nat × Nat) :=
  (s.eng.steps.filter fun e => p e.2).map fun e => (e.1, e.2.tenant)

/-- Open sequence slots that a slice hosts, with their tenants. -/
def State.hosted (s : State) (n : Nat) : List (Nat × Nat) :=
  (s.eng.seqs.filter fun z => hostSlice z.1 == n).map fun z => (z.1, z.2.tenant)

/-- The PF1 ERROR vector of every port with an affected tenant, and the ERROR vector of the VFs whose sequences alone are
affected: a VF with an ended step is signalled with its completion entry (R520, 12 R400). -/
def State.signalAffected (s : State) (ended closed : List Nat) : State :=
  let ports := ((ended ++ closed).filterMap fun t => (tenantPort s.cfg t).map (·.1)).eraseDups
  let s := ports.foldl (fun s p => s.signal (.pf1 p) 1) s
  ((closed.filter fun t => !ended.contains t).eraseDups).foldl (fun s t => s.signal (.vf t) 1) s

/-! ### A tenant context (R526) -/

/-- Cursors that nothing waits for any longer are gone, and releases that waited for them go on. -/
def State.dropIdleCursors (s : State) (cs : List Nat) : State :=
  (cs.foldl (fun s c =>
    if (s.cur c).any (fun x => x.unbinding.isNone) && !(s.eng.steps.any fun e => e.2.cursor == c) then s.removeCursor c else s) s).releaseEnds

/-- The reset of a tenant context, each step stopping at its op boundary. The entries of its steps come before ENG_ARITH_STICKY
returns to its reset value, so their flags set nothing in it any longer. -/
def State.resetTenantNow (s : State) (t : Nat) : State :=
  let s := (s.stepsIf fun x => x.tenant == t).foldl (fun s e => (s.resetStep 7 e.1).quietStep e.1) s
  let cs := (s.eng.cursors.filter fun c => c.2.tenant == t).map (·.1)
  let s := (cs.foldl (fun s c => s.stopCursor c) s).dropIdleCursors cs
  let qs := (s.eng.seqs.filter fun z => z.2.tenant == t).map (·.1)
  let s := (qs.foldl (fun s q => s.closeSeq q) s).abandonLoad t .aborted
  let s := (s.signal (.vf t) 1).modFn (.vf t) fun f => { f with vecs := [], sticky := 0, curSel := 0, curSnap := none }
  s.setRst { s.rst with tenants := s.rst.tenants.filter fun x => x.1 != t }

/-- A tenant reset; while a slice drains it waits for the cut (R530). -/
def tenantReset (t : Nat) (s : State) : State :=
  if 1024 ≤ t then s
  else if (List.range 8).any fun n => (s.sl n).state == 2 then
    if s.rst.tenants.any fun x => x.1 == t then s else s.setRst { s.rst with tenants := s.rst.tenants ++ [(t, s.tbc)] }
  else s.resetTenantNow t

/-- Tenant resets that waited for the cut of a slice. -/
def State.resetWaiting (s : State) : State :=
  if (List.range 8).any fun n => (s.sl n).state == 2 then s
  else s.rst.tenants.foldl (fun s t => s.resetTenantNow t.1) s

/-- The tenant contexts of a port. -/
def portTenants (c : Cfg) (p : Nat) : List Nat := (List.range (c.vfCount.getD p 0)).map (c.vfBase.getD p 0 + ·)

/-! ### A link (R512, R514; 12 R396, R397, R410) -/

/-- The MSI-X table of a function as a reset leaves it; `keep` leaves the pending bits (12 R410). -/
def freshVecs (keep : Bool) (v : Tab Vec) : Tab Vec :=
  if keep then (v.filter fun e => e.2.pending).map fun e => (e.1, { pending := true }) else []

/-- PF1 of a port and what hangs on it: its registers, VF Enable, every tenant context (12 R397). -/
def State.resetPf1 (s : State) (p : Nat) (keep : Bool) : State :=
  let s := (portTenants s.cfg p).foldl (fun s t => tenantReset t s) s
  let s := (portTenants s.cfg p).foldl (fun s t => s.modFn (.vf t) fun f => { f with msixEnable := false, fmask := false }) s
  let s := s.modFn (.pf1 p) fun f =>
    { f with vecs := freshVecs keep f.vecs, msixEnable := false, fmask := false, d3hot := false, numVfs := 0, vfEnable := false,
             sticky := 0, curSel := 0, curSnap := none }
  s.modIface (.pf1 p) fun i => { bg := i.bg }

/-- A PORT reset of a link. -/
def State.resetLink (s : State) (l : Nat) (keep : Bool) : State :=
  let s := s.modPort l fun p => { p with biEnabled := false, hdm := [], viralEnable := false, storm := 0x3E8, stormNow := 0x3E8,
                                         aerUncor := 0, aerAdvisory := false, memActive := false, static := none }
  let s := s.modFn (.pf0 l) fun f => { f with vecs := freshVecs keep f.vecs, msixEnable := false, fmask := false, d3hot := false }
  if l % 2 = 0 then s.resetPf1 (l / 2) keep else s

/-- A link goes down (12 R410). -/
def State.linkLost (s : State) (l : Nat) : State :=
  let p := s.port l
  if p.link != 1 && p.link != 2 then s
  else (s.modPort l fun p => { p with link := 3, speed := 0, width := 0, linkDowns := p.linkDowns + 1 }).resetLink l true

/-! ### The engine side of a slice (R515, R516, R520, R521) -/

/-- What the Rangefinder of a slice plans, and what its T0 holds, is gone; its promotions are cancelled. -/
def State.dropRangefinder (s : State) (n : Nat) : State :=
  let ms := s.pool.moves.filter fun m => (m.kind == 6 || m.kind == 7) && s.itemSlice m.item == n
  let s := ms.foldl (fun s m => (s.modMig n fun g => { g with cancelled := g.cancelled + 1 }).endMove m) s
  s.setEng { s.eng with fetches := s.eng.fetches.filter fun f => f.2.slice != n
                        t0 := s.eng.t0.filter fun c => c.slice != n
                        cursors := s.eng.cursors.map fun c => (c.1, { c.2 with planned := tabDel c.2.planned n }) }

/-- Cursors whose lines a slice homes restart their estimators in state COLD (R520, 04 R113). -/
def State.restartCursors (s : State) (n : Nat) : State :=
  s.eng.cursors.foldl (fun s e =>
    if s.cursorHome e.2 != n || e.2.unbound then s
    else (s.modCur e.1 fun c => { restartEst c 0 with entry := s.tbc, skip := c.paused }).sendAdvance e.1) s

/-- DRAIN_CUT (R515, R516, R520): the drain ends or DRAIN_US has passed. -/
def drainCut (n : Nat) (s : State) : State :=
  let r := s.sl n
  if r.state != 2 then s
  else
    let inside := s.stepsIf fun x => (x.phase == 1 || x.phase == 2) && s.hasWork x n
    let s := if inside.isEmpty then s else s.until (r.fenceAt + r.drainLimit * us)
    let closed := s.hosted n
    let s := inside.foldl (fun s e => s.resetStep 8 e.1) s
    let s := closed.foldl (fun s q => s.closeSeq q.1) s
    let s := (s.dropRangefinder n).restartCursors n
    let s := s.signalAffected (inside.map (·.2)) (closed.map (·.2))
    let s := s.modSl n fun r => { r with state := 3, lastDrainUs := min ((s.tbc - r.fenceAt) / 1000) 0xFFFF, parked := false,
                                         parkIdleUs := 0x3E8, wakes := 0 }
    s.resetWaiting

/-! ### The loss of a slice (R521-R525) -/

/-- A rebuild that can go on no longer. -/
def State.endRebuild (s : State) (o : Nat) (r : Rebuild) : State :=
  let s := s.modEccReg o fun e => { e with rebuilds := e.rebuilds.erase r }
  if r.running then (s.rescaleParts o r 4).startRebuild o else s

/-- Parity, rebuilds and hot spares when a slice goes (R522). -/
def State.loseSpares (s : State) (n : Nat) : State :=
  let groups := ((List.range 3).map fun i => (parityGroup s.cfg n i).1).eraseDups
  let s := if hasParity s.cfg then
      groups.foldl (fun s g => (s.loseUnrebuilt g).upSlices.foldl (fun s k =>
        s.modEccReg k fun e => { e with degraded := setBit e.degraded g true }) (s.loseUnrebuilt g)) s
    else s
  let s := (s.eccReg n).rebuilds.foldl (fun s r => s.endRebuild n r) s
  let away := s.drc.remap.filter fun e => e.2.slice == n && e.1 / 256 != n && !s.drc.retired.contains e.1
  away.foldl (fun s e =>
    let own := e.1 / 256
    let s := ((s.eccReg own).rebuilds.filter fun r => 2 ≤ r.kind).foldl (fun s r => s.endRebuild own r) s
    let s := (s.unitsLost own 2 [e.1 % 128] 3).1
    (s.setDrc { s.drc with retired := s.drc.retired ++ [e.1] }).rescale own 2) s

/-- The links of hosts whose completed writes were still on their way in a slice's memory (12 R411). -/
def State.lostWriters (s : State) (n : Nat) : List Nat :=
  let queued := s.drc.chans.flatMap fun c => if (ctlOf c.1).slice != n then [] else
    c.2.queue.filterMap fun e => if e.write && e.job.all (fun k => (tabFind s.drc.jobs k).isNone) then e.link else none
  let coded := (s.pool.coding.filter fun w => w.done && s.sliceOf (w.line * 64) == n).filterMap (·.link)
  (queued ++ coded).eraseDups

/-- The controllers of a lost slice hold nothing; host accesses of other slices owe them nothing any longer. -/
def State.loseQueues (s : State) (n : Nat) : State :=
  let mine (k : Nat) : Bool := (ctlOf k).slice == n
  let owed := (s.drc.chans.filter fun c => mine c.1).flatMap (fun c => c.2.queue.filter fun e => !e.write) ++
    (s.drc.ingress.filter fun e => mine e.1).map (·.2)
  let s := s.setDrc { s.drc with chans := s.drc.chans.filter fun c => !mine c.1
                                 ingress := s.drc.ingress.filter fun e => !mine e.1 }
  owed.foldl (fun s e => s.jobStep e.job) s

/-- Homes, lines and charges of a lost slice are gone (R522). -/
def State.loseHomes (s : State) (n : Nat) : State :=
  let on (line : Nat) : Bool := s.sliceOf (line * 64) == n
  let s := (s.dropRequestsIf on).dropLinesIf on
  let is := s.items.filter fun i => s.itemSlice i == n
  let s := s.setPool { s.pool with moves := s.pool.moves.filter fun m => s.itemSlice m.item != n
                                   loupe := s.pool.loupe.filter fun c => s.sliceOf (c.page * 4096) != n
                                   draws := s.pool.draws.filter fun d => d.1 % 8 != n
                                   extents := s.pool.extents.map fun e => (e.1, { e.2 with drawn := tabDel e.2.drawn n }) }
  is.foldl (fun s i => s.modEnt i fun e => { e with home := none, bad := false }) s

/-- A cursor with its line or a ring of its on a page of a lost slice (R523). -/
def State.cursorLost (s : State) (n : Nat) (c : Cursor) : Bool :=
  (cursorSpans c).any fun x =>
    (List.range ((c.extent + x.2 - 1) / 4096 + 1 - (c.extent + x.1) / 4096)).any fun k =>
      s.sliceOf (((c.extent + x.1) / 4096 + k) * 4096) == n

/-- Completion entries of an ended cursor: written where the ring lies on a slice that serves and has room, else lost. -/
def State.flushEntries (s : State) (cu q : Nat) : Nat → State
  | 0 => s
  | k + 1 =>
    match s.oldest cu q with
    | none => s
    | some (id, x) =>
      let s' := stepComplete cu q s
      let s' := if (s'.step' id).isSome then (s'.setEng { s'.eng with steps := tabDel s'.eng.steps id }).completed x else s'
      s'.flushEntries cu q k

/-- A cursor is unbound without waiting for its steps. -/
def State.unbindLost (s : State) (cu : Nat) : State :=
  match s.cur cu with
  | none => s
  | some c =>
    let s := c.queues.foldl (fun s q => s.flushEntries cu q.1 (s.eng.steps.length)) (s.stopCursor cu)
    let s := s.removeCursor cu
    match c.unbinding with
    | some v => s.bgDone v 0xC021 .success []
    | none => s

/-- Models that a lost slice makes lost (R525). -/
def State.loseModels (s : State) (n : Nat) : State :=
  let holds (h : Nat) (m : Model) : Bool :=
    m.tiles.any (fun t => t.slice == n) ||
    (m.kvSplit == 0 && (List.range m.kvHeads).any fun k => kvHome s.cfg.slices k == n) ||
    s.eng.seqs.any fun z => z.2.handle == h && hostSlice z.1 == n
  s.setEng { s.eng with models := s.eng.models.map fun m => if holds m.1 m.2 then (m.1, { m.2 with lost := setBit m.2.lost n true }) else m }

/-- The host, peer and tray ports of a slice go down (R522). -/
def State.losePorts (s : State) (n : Nat) : State :=
  let s := ((links s.cfg).filter fun l => hostPortSlice s.cfg (l / 2) == n).foldl (fun s l => s.linkLost l) s
  let ps := (List.range (peerPorts s.cfg)).filter fun p => peerPortSlice s.cfg p == n && (s.peer p).link != 0
  let s := ps.foldl (fun s p => s.modPeer p fun x =>
    { x with link := 3, width := 0, replay := [], downAt := none, neighbour := 0xFF, txq := [] }) s
  let s := if ps.isEmpty then s else s.signalPf0 6
  if n = 1 && hasTp s.cfg then
    (tp0Error 0xFFFF s).setFab { (tp0Error 0xFFFF s).fab with tpLink := 3, tpSpeed := 0, tpWidth := 0 }
  else s

/-- SLICE_LOST (R521-R523, R525, R529). -/
def sliceLost (n cause : Nat) (s : State) : State :=
  if !s.up n then s
  else
    let s := s.handoverHit.bistInterrupt n
    let was := s.restarting n && n == s.rst.packageMaster
    let writers := s.lostWriters n
    let gone := (s.eng.cursors.filter fun c => s.cursorLost n c.2).map (·.1)
    let ended := s.stepsIf fun x => x.phase != 3 && (s.hasWork x n || gone.contains x.cursor)
    let also := s.stepsIf fun x => x.phase == 3 && (s.hasWork x n || gone.contains x.cursor)
    let closed := s.hosted n
    let s := s.loseModels n
    let s := (s.modSl n fun r => { r with state := 4, lastCause := cause, parked := false }).setRst
      { s.rst with degraded := true, slices := tabMod {} s.rst.slices n fun r => { r with state := 4, lastCause := cause, parked := false } }
    let s := s.setRst { s.rst with packageMaster := if n = s.rst.packageMaster then s.upSlices.headD n else s.rst.packageMaster }
    let s := (s.freqCancel n 2).freqPart n 2
    let s := s.modCk n fun c => { c with pending := false, relock := false, deferCause := 0, busyGroups := [], latest := [] }
    -- steps, sequences and cursors
    let s := (ended ++ also).foldl (fun s e => s.resetStep 9 e.1) s
    let s := closed.foldl (fun s q => s.closeSeq q.1) s
    let s := (s.eng.loads.filter fun l => l.model.tiles.any fun t => t.slice == n).foldl (fun s l => s.abandonLoad l.tenant .invalidInput) s
    let s := (gone.foldl (fun s c => s.unbindLost c) s).releaseEnds
    let s := s.dropRangefinder n
    let s := s.setEng { s.eng with advances := s.eng.advances.filter fun a => a.1 != n }
    -- memory
    let s := ((s.loseHomes n).loseQueues n).loseSpares n
    let s := s.tabLoadDone
    let s := writers.foldl (fun s l => s.freezePort l 5) s
    -- ports, signals, what was held
    let s := (s.losePorts n).signalError
    let s := (s.signalAffected (ended.map (·.2)) (closed.map (·.2))).resetWaiting
    if was then s.releaseHeld else s

/-! ### Lines of the map region and the program area (11 R349, R358) -/

/-- A copy of a slice's map region and program area serves: it has missed no write, and its controller is in service. -/
def State.copyServes (s : State) (n k : Nat) : Bool :=
  !bit (s.mapOf n).stale k && (s.physOf n 1 (mapUnit (s.mapOf n) k)).any fun c => s.chanState c == 2

/-- A line read with bits in error: 0 to 575 in the first copy, 576 to 1,151 in the second. The first copy that serves is read; where the
line code cannot correct it, the other is, and the failed copy is rewritten from it. With no copy left the slice is lost,
which no code of LAST_CAUSE names (log 95). -/
def copiedLineRead (n : Nat) (bs : List Nat) (s : State) : State :=
  if !s.up n then s
  else
    let good (k : Nat) : Bool :=
      s.copyServes n k && (lineDecode (lineErrors ((bs.filter fun b => 576 * k ≤ b).map (· - 576 * k)))).isSome
    let serving := (List.range 2).filter (s.copyServes n)
    match serving.find? good with
    | none => sliceLost n (s.sl n).lastCause s
    | some k => if serving.head? == some k then s else s.moved n 1 s.qos.sysClass ((if hasParity s.cfg then 5 else 2) * 64)

/-- BLOCK_DECODE of a block, or of a line that has two copies. -/
def anyDecode (i : Item) (source unit : Nat) (bs : List Nat) (s : State) : State :=
  match i with
  | .mapLine n _ _ => copiedLineRead n bs s
  | _ => blockDecode i source unit bs s

/-- SLICE_RESET (R515, R520, R521, R529, R530): the fence; the third reset within 10 s loses the slice. -/
def sliceReset (n cause : Nat) (s : State) : State :=
  let r := s.sl n
  if r.state != 1 || cause = 0 || 5 < cause then s
  else
    let recent := r.history.filter fun t => s.tbc < t + 10000 * ms
    if 2 ≤ recent.length then sliceLost n cause s
    else
      let s := s.handoverHit.bistInterrupt n
      let s := s.modSl n fun r =>
        { r with state := 2, lastCause := cause, resets := r.resets + 1, fenceAt := s.tbc, drainLimit := s.rst.drainUs,
                 history := s.tbc :: recent }
      if (s.ck n).pending then s.retarget n else s

/-- SLICE_RETURN (R520, R581): the units that pass their start-up checks serve; those marked failed stay out (18 R580). -/
def sliceReturn (n badClusters badBanks : Nat) (s : State) : State :=
  if (s.sl n).state != 3 then s
  else
    let b := tabGet (0, 0, 0, false) s.bst.slices n
    let fc := b.1 ||| (badClusters % 256)
    let fb := b.2.1 ||| (badBanks % 65536)
    let s := s.setBst { s.bst with slices := tabSet s.bst.slices n (fc, fb, b.2.2.1, badClusters % 256 = 0 && badBanks % 65536 = 0) }
    let s := s.modSl n fun r => { r with state := 1, lastWork := s.tbc, clusters := 0xFF - fc, banks := 0xFFFF - fb }
    let s := s.fitT0 n 2
    if n = s.rst.packageMaster then s.releaseHeld else s

/-- SLICE_RETURN_TIMEOUT (R521). -/
def sliceReturnTimeout (n : Nat) (s : State) : State :=
  if !s.restarting n then s else sliceLost n (s.sl n).lastCause (s.until ((s.sl n).fenceAt + 1000 * ms))

/-! ### UCIe (R522, 11 R381) -/

/-- One end of an edge that is down: traffic goes over the slice's other edges; with none left the slice is lost. -/
def State.edgeEnd (s : State) (n e : Nat) : State :=
  if !s.up n || !bit (s.sl n).edgesUp e then s
  else
    let s := s.modSl n fun r => { r with edgesUp := setBit r.edgesUp e false }
    if (s.sl n).edgesUp = 0 then sliceLost n 6 s else s.modSl n fun r => { r with reroutes := r.reroutes + 1 }

/-- UCIE_EDGE_DOWN: an edge is down at both its ends, the named slice's first (01 R28, log 92). -/
def edgeDown (n e : Nat) (s : State) : State :=
  if !s.up n || !bit (s.sl n).edgesUp e then s
  else match edgePeer s.cfg n e with
    | none => s.edgeEnd n e
    | some x => (s.edgeEnd n e).edgeEnd x.1 x.2

/-- UCIE_LANE_REPAIR: while a repair lane remains. -/
def laneRepair (n : Nat) (s : State) : State :=
  if !s.up n || (s.sl n).spareLanes = 0 then s
  else s.modSl n fun r => { r with laneRepairs := r.laneRepairs + 1, spareLanes := r.spareLanes - 1 }

def execBlockDecode (item : Item) (source unit : Nat) (flips : List Nat) (s : State) : Host.Outcome State Fault Refusal :=
  .next (anyDecode item source unit flips s).dirSettle
def execTenantReset (tenant : Nat) (s : State) : Host.Outcome State Fault Refusal := .next (tenantReset tenant s).dirSettle
def execSliceReset (slice cause : Nat) (s : State) : Host.Outcome State Fault Refusal := .next (sliceReset slice cause s).dirSettle
def execDrainCut (slice : Nat) (s : State) : Host.Outcome State Fault Refusal := .next (drainCut slice s).dirSettle
def execSliceReturn (slice badClusters badBanks : Nat) (s : State) : Host.Outcome State Fault Refusal :=
  .next (sliceReturn slice badClusters badBanks s).dirSettle
def execSliceReturnTimeout (slice : Nat) (s : State) : Host.Outcome State Fault Refusal := .next (sliceReturnTimeout slice s).dirSettle
def execSliceLost (slice cause : Nat) (s : State) : Host.Outcome State Fault Refusal :=
  .next (if cause = 0 || 8 < cause then s else sliceLost slice cause s).dirSettle
def execUcieEdgeDown (slice edge : Nat) (s : State) : Host.Outcome State Fault Refusal := .next (edgeDown slice edge s).dirSettle
def execUcieLaneRepair (slice : Nat) (s : State) : Host.Outcome State Fault Refusal := .next (laneRepair slice s)

end Sys2Proof.Machine
end

