-- ==== Sys2Proof/Machine/HostPorts.lean ====
section
/-! DEFINITION. Host ports: training, PERST, function-level resets, virtual functions, Back-Invalidate, D3hot, held
vectors, containment and its release (12 R383-R412; 15 R508, R512). -/
namespace Sys2Proof.Machine
open Sys2Proof

/-! ### Configuration requests (12 R387, R393; 15 R508) -/

/-- The link answers configuration requests with other than Retry: step 6 of the start is done, or it is the one link of
recovery mode (14 R498). -/
def State.cfgOpen (s : State) (l : Nat) : Bool :=
  linkFitted s.cfg l && s.linkOpen l && (s.rst.configReady || (s.rst.recovery && l == 0))

/-- A configuration request on a link: served by `f`, or discarded on a frozen link. -/
def State.config (s : State) (l : Nat) (f : State → State) : State :=
  if s.cfgOpen l then f s else s.dropIo l

/-! ### Held vectors (R402) -/

/-- The function of a key. -/
def funcOf (k : Nat) : Func := if k < 8 then .pf0 k else if k < 16 then .pf1 (k - 8) else .vf (k - 16)

/-- Every vector of a function that nothing holds any longer sends its message. -/
def State.releaseFn (s : State) (f : Func) : State :=
  if !s.fnThere f then s else ((s.fn f).vecs.map (·.1)).foldl (fun s v => s.release f v) s

/-- The same for every function of a link. -/
def State.releaseLink (s : State) (l : Nat) : State :=
  ((s.fns.map fun e => funcOf e.1).filter fun f => funcLink s.cfg f == l).foldl (fun s f => s.releaseFn f) s

/-! ### Training (R383-R390, 15 R511) -/

/-- The extents of a host, as base and length, lowest first. -/
def State.hostRanges (s : State) (h : Nat) : List (Nat × Nat) :=
  (s.pool.extents.filter fun e => e.2.hosts.contains h).map fun e => (e.1, e.2.len)

/-- The contiguous run that begins at the lowest range. -/
def firstRun : List (Nat × Nat) → Option (Nat × Nat)
  | [] => none
  | r :: rs => some (rs.foldl (fun a b => if b.1 = a.1 + a.2 then (a.1, a.2 + b.2) else a) r)

/-- The link signals memory active, and on CXL 1.1 or 2.0 its static range is fixed (R389, 15 R511). -/
def State.linkMemActive (s : State) (l : Nat) : State :=
  let p := s.port l
  let direct := (s.qos.hosts.find? fun r => r.2.direct && r.2.port == l).map (·.1)
  let range : Option (Nat × Nat) :=
    if p.cxlGen = 1 || p.cxlGen = 2 then direct.bind fun h => firstRun (s.hostRanges h) else none
  s.modPort l fun p => { p with memActive := true, static := range }

/-- The freeze of a link lifts: a new poison count, its requests, its vectors, and the record of the release (R407, R408). -/
def State.unfreeze (s : State) (l : Nat) : State :=
  let s := s.modPort l fun p => { p with poisonCount := 0, frozen := false }
  ((s.releaseLink l).record 0 0x0013 ((s.releaseLink l).frozenRecord l 0 1)).signalOthers l

/-- The widths that a link trains at, by its lanes: 3 x16, 2 x8, 1 x4, 0 none. -/
def linkWidth (c : Cfg) (l lanes : Nat) : Nat :=
  if 16 ≤ lanes && !bit c.portSplit (l / 2) then 3 else if 8 ≤ lanes then 2 else if 4 ≤ lanes then 1 else 0

/-- The tray port trains: a retrain clears every mask of its read entries (R414, R416); its trays stay as they were found at module
reset (08 R272). -/
def State.tpTrain (s : State) (o : LinkOffer) : State :=
  if !hasTp s.cfg || s.rst.phase < 5 || !s.up 1 || (s.fab.tpLink != 1 && s.fab.tpLink != 3) then s
  else
    let w := if 16 ≤ o.lanes then 3 else if 8 ≤ o.lanes then 2 else if 4 ≤ o.lanes then 1 else 0
    let s := s.setClk { s.clk with tpRef := o.refclk }
    let f := { s.fab with tpNoRefclk := !o.refclk }
    if !o.refclk || w = 0 || o.speed = 0 then s.setFab { f with tpLink := 3 }
    else s.setFab { f with tpLink := 2, tpSpeed := min o.speed 6, tpWidth := w, tags := f.tags.map fun t => (t.1, { t.2 with mask := 0 }) }

/-- The tray-port link is down: every tray is LOST (R417). -/
def State.trayPortDown (s : State) (noRef : Bool) : State :=
  let s := tp0Error 0xFFFF s
  s.setFab { s.fab with tpLink := 3, tpSpeed := 0, tpWidth := 0, tpNoRefclk := noRef || s.fab.tpNoRefclk }

/-- The reference of a host port is there, or missing (R385). -/
def State.portRef (s : State) (l : Nat) (there : Bool) : State := s.setClk { s.clk with hpRef := setBit s.clk.hpRef (l / 2) there }

/-- LINK_UP: a link trains with what the host offers; link 8 is the tray port (log 65). -/
def linkUp (l : Nat) (o : LinkOffer) (s : State) : State :=
  if l = 8 && !linkFitted s.cfg l then s.tpTrain o
  else
  let p := s.port l
  let rom := s.rst.recovery
  let powered := if rom then l == 0 else 5 ≤ s.rst.phase && s.up (hostPortSlice s.cfg (l / 2))
  if !linkFitted s.cfg l || !powered || p.perst || p.failed || (p.link != 1 && p.link != 3) then s
  else if !o.refclk then (s.portRef l false).modPort l fun p => { p with link := 3, noRefclk := true }
  else
    let s := s.portRef l true
    let w := linkWidth s.cfg l o.lanes
    if w = 0 || o.speed = 0 then s.modPort l fun p => { p with link := 3, noRefclk := false }
    else
      let gen := if rom then 0 else min o.gen 3
      let top := if rom then 4 else if gen = 1 || gen = 2 then 5 else 6
      let s := s.modPort l fun p => { p with link := 2, cxlGen := gen, speed := min o.speed top, width := w, noRefclk := false,
                                             viralEnable := o.viral && gen != 0 }
      let s := if s.rst.memoryActive then s.linkMemActive l else s
      match p.releasing with
      | some v => ((s.modPort l fun p => { p with releasing := none }).unfreeze l).respond v 0xC048 .success []
      | none => if p.frozen then s else s.releaseLink l

/-- LINK_DOWN; link 8 is the tray port. -/
def linkDown (l : Nat) (s : State) : State :=
  if l = 8 && !linkFitted s.cfg l then (if hasTp s.cfg && s.fab.tpLink == 2 then (s.trayPortDown false).dirSettle else s) else s.linkLost l

/-- PERST: the port domain of both halves is reset, and the links stay down until it is deasserted (15 R508, R512). -/
def perst (p : Nat) (s : State) : State :=
  if hostPorts s.cfg ≤ p then s
  else ([2 * p, 2 * p + 1].filter (linkFitted s.cfg)).foldl (fun s l =>
    let lost := (s.port l).link == 2
    (s.modPort l fun q => { q with perst := true, link := 0, speed := 0, width := 0,
                                   linkDowns := if lost then q.linkDowns + 1 else q.linkDowns }).resetLink l false) s

/-- PERST deasserted: the port trains where step 5 has powered its slice. -/
def perstDeassert (p : Nat) (s : State) : State :=
  if hostPorts s.cfg ≤ p then s
  else ([2 * p, 2 * p + 1].filter (linkFitted s.cfg)).foldl (fun s l =>
    if !(s.port l).perst then s
    else if (s.port l).failed then s.modPort l fun q => { q with perst := false }
    else s.modPort l fun q =>
      { q with perst := false,
               link := if (s.rst.recovery && l == 0) || (5 ≤ s.rst.phase && s.up (hostPortSlice s.cfg p)) then 1 else q.link }) s

/-! ### Function-level resets (R397) -/

/-- FLR of a VF: its tenant context and its MSI-X state. -/
def flrVf (t : Nat) (s : State) : State :=
  match tenantPort s.cfg t with
  | none => s
  | some (p, _) => s.config (2 * p) fun s =>
    if !s.vfEnabled t then s
    else (tenantReset t s).modFn (.vf t) fun f => { f with msixEnable := false, fmask := false }

def flrPf1 (p : Nat) (s : State) : State :=
  if hostPorts s.cfg ≤ p || s.rst.recovery then s else s.config (2 * p) fun s => s.resetPf1 p false

/-- FLR of PF0: mailbox, MSI-X and AER state; a background operation runs on. -/
def flrPf0 (l : Nat) (s : State) : State :=
  s.config l fun s =>
    let s := s.modIface (.pf0 l) fun i => { bg := i.bg }
    let s := s.modFn (.pf0 l) fun f =>
      { f with vecs := [], msixEnable := false, fmask := false, d3hot := false, policy := [false, false, false, false] }
    s.modPort l fun p => { p with aerUncor := 0, aerAdvisory := false }

/-! ### Configuration writes (R390, R396, R398, R402) -/

/-- VF_ENABLE: VF Enable and NumVFs of PF1. -/
def vfEnable (p n : Nat) (e : Bool) (s : State) : State :=
  if hostPorts s.cfg ≤ p || s.rst.recovery then s
  else s.config (2 * p) fun s => s.modFn (.pf1 p) fun f => { f with numVfs := n % 65536, vfEnable := e }

/-- BI Enable cannot be cleared: a host of the link is in a share group of SHARED_COHERENT (R390). -/
def State.biLocked (s : State) (l : Nat) : Bool :=
  s.pool.extents.any fun e => e.2.policy.sharing == 1 && e.2.hosts.any fun h => s.hostLink h == l

/-- BI_ENABLE_WRITE on a CXL 3.1 link. -/
def biEnableWrite (l : Nat) (e : Bool) (s : State) : State :=
  s.config l fun s =>
    if (s.port l).cxlGen != 3 || (!e && s.biLocked l) then s else s.modPort l fun p => { p with biEnabled := e }

/-- POWER_STATE_WRITE of PF0 or PF1. -/
def powerState (f : Func) (d3 : Bool) (s : State) : State :=
  match f with
  | .vf _ => s
  | _ => s.config (funcLink s.cfg f) fun s => (s.modFn f fun g => { g with d3hot := d3 }).releaseFn f

/-- MSIX_RELEASE: software clears what masks a vector, and every vector of the function that nothing holds any longer sends its
message (R402). -/
def msixRelease (f : Func) (v : Nat) (s : State) : State :=
  s.config (funcLink s.cfg f) fun s =>
    if !s.fnThere f then s else
    (s.modFn f fun g => { g with msixEnable := true, fmask := false,
                                 vecs := tabMod ({} : Vec) g.vecs v fun e => { e with masked := false } }).releaseFn f

/-! ### Containment (R404-R408) -/

/-- PORT_FREEZE: a cause is detected on a link. The bits of Uncorrectable Error Status that causes 1 and 2 set are a
free value. -/
def portFreeze (l cause : Nat) (s : State) : State :=
  let p := s.port l
  if cause = 0 || 5 < cause || (cause = 3 && p.stormNow = 0) || (4 ≤ cause && p.cxlGen = 0) then s
  else if cause ≤ 2 && p.link = 2 && !p.frozen && linkFitted s.cfg l then
    let d := s.draw
    (d.2.modPort l fun p => { p with aerUncor := d.1 % 2 ^ 32 }).freezePort l cause
  else s.freezePort l cause

/-- POISON_COUNT_RESTART: the next millisecond boundary of TBC, unless the count has not restarted at the last one. -/
def poisonCountRestart (l : Nat) (s : State) : State :=
  if !linkFitted s.cfg l then s
  else if (s.port l).countMs < s.tbc / ms then s.poisonTick l
  else (s.until (((s.port l).countMs + 1) * ms)).poisonTick l

/-- PORT_RELEASE (R407): through MCTP or the mailbox of another link. -/
def portReleaseCmd (v : Iface) (inp : Bytes) (s : State) : Reply :=
  let b := fld inp 0 1
  let l := 2 * (b % 4) + b2n (bit b 2)
  if v == .pf0 l then fail s .unsupported
  else if !linkFitted s.cfg l || !(s.port l).frozen then fail s .invalidInput
  else if (s.port l).releasing.isSome then fail s .busy
  else if bit (fld inp 1 1) 0 then
    { ret := .success, st := s.modPort l (fun p => { p with releasing := some v, link := if p.link = 2 then 1 else p.link }), later := true }
  else { ret := .success, st := s, after := fun s => s.unfreeze l }

def rowPortRelease : Row := { op := 0xC048, thru := 5, lo := 2, hi := 2 }

/-- UNEXPECTED_COMPLETION (R412). -/
def unexpectedCompletion (l : Nat) (s : State) : State :=
  if linkFitted s.cfg l && s.linkOpen l then s.modPort l fun p => { p with aerAdvisory := true } else s

/-- GLOBAL_PERSISTENT_FLUSH (R392): a phase completes at once, on links that offer it. -/
def persistentFlush (l phase : Nat) (s : State) : State :=
  if linkFitted s.cfg l && 2 ≤ (s.port l).cxlGen && (phase = 1 || phase = 2) then s.send l (.gpf l phase) else s

def execLinkUp (link : Nat) (offer : LinkOffer) (s : State) : Host.Outcome State Fault Refusal := .next (linkUp link offer s)
def execLinkDown (link : Nat) (s : State) : Host.Outcome State Fault Refusal := .next (linkDown link s)
def execPerst (port : Nat) (s : State) : Host.Outcome State Fault Refusal := .next (perst port s)
def execPerstDeassert (port : Nat) (s : State) : Host.Outcome State Fault Refusal := .next (perstDeassert port s)
def execFlrVf (tenant : Nat) (s : State) : Host.Outcome State Fault Refusal := .next (flrVf tenant s)
def execFlrPf1 (port : Nat) (s : State) : Host.Outcome State Fault Refusal := .next (flrPf1 port s)
def execFlrPf0 (link : Nat) (s : State) : Host.Outcome State Fault Refusal := .next (flrPf0 link s)
def execVfEnable (port numVfs : Nat) (enable : Bool) (s : State) : Host.Outcome State Fault Refusal :=
  .next (vfEnable port numVfs enable s)
def execBiEnableWrite (link : Nat) (enable : Bool) (s : State) : Host.Outcome State Fault Refusal := .next (biEnableWrite link enable s)
def execPowerStateWrite (fn : Func) (d3hot : Bool) (s : State) : Host.Outcome State Fault Refusal := .next (powerState fn d3hot s)
def execMsixRelease (fn : Func) (vector : Nat) (s : State) : Host.Outcome State Fault Refusal := .next (msixRelease fn vector s)
def execPortFreeze (link cause : Nat) (s : State) : Host.Outcome State Fault Refusal := .next (portFreeze link cause s)
def execPoisonCountRestart (link : Nat) (s : State) : Host.Outcome State Fault Refusal := .next (poisonCountRestart link s)
def execPortRelease (via : Iface) (inp : Bytes) (s : State) : Host.Outcome State Fault Refusal :=
  .next (mbxCall rowPortRelease (.portRelease via inp) via inp.length s (portReleaseCmd via inp))
def execPortReleaseLinkReset (via : Iface) (inp : Bytes) (s : State) : Host.Outcome State Fault Refusal :=
  .next (mbxCall rowPortRelease (.portReleaseLinkReset via inp) via inp.length s (portReleaseCmd via inp))
def execUnexpectedCompletion (link : Nat) (s : State) : Host.Outcome State Fault Refusal := .next (unexpectedCompletion link s)
def execGlobalPersistentFlush (link phase : Nat) (s : State) : Host.Outcome State Fault Refusal := .next (persistentFlush link phase s)

end Sys2Proof.Machine
end

