-- ==== Sys2Proof/Machine/Crossings.lean ====
section
/-! DEFINITION. References that are lost, clocks that stop, and one-sided resets of crossings (16 R531-R547). -/
namespace Sys2Proof.Machine
open Sys2Proof

/-! ### References (R532, R533) -/

/-- The first present source in the order of R532: host-port references, TP0, the management reference times 4. -/
def refSource (hpRef : Nat) (tpRef mgRef : Bool) : Option Nat :=
  match (List.range 4).find? (bit hpRef) with
  | some p => some p
  | none => if tpRef then some 4 else if mgRef then some 5 else none

/-- REF_LOST: the core PLLs hold over, and the ports of the lost reference go down (12 R385, R416). -/
def refLost (s : State) : State :=
  if s.rst.phase < 5 || s.clk.holdover.isSome then s
  else
    let c := s.clk.coreRef
    let s := s.setClk { s.clk with holdover := some s.tbc, hpRef := if c < 4 then setBit s.clk.hpRef c false else s.clk.hpRef,
                                   tpRef := s.clk.tpRef && c != 4, mgRef := s.clk.mgRef && c != 5 }
    if c < 4 then
      ([2 * c, 2 * c + 1].filter (linkFitted s.cfg)).foldl (fun s l => (s.linkLost l).modPort l fun p =>
        { p with noRefclk := true, link := if p.perst || p.failed then p.link else 3 }) s
    else if c = 4 && hasTp s.cfg then s.trayPortDown true
    else s

/-- REF_SWITCH: the core PLLs lock to the next present source. -/
def refSwitch (s : State) : State :=
  match s.clk.holdover, refSource s.clk.hpRef s.clk.tpRef s.clk.mgRef with
  | some _, some c => s.setClk { s.clk with holdover := none, coreRef := c, switches := s.clk.switches + 1 }
  | _, _ => s

/-! ### Stopped clocks (R544) -/

/-- CLOCK_FAULT: `port` names the host port (4 the tray port) or the peer port whose clock it is. No cause
code is stated for a slice that is lost so: LAST_CAUSE is a free value. -/
def clockFault (n : Nat) (d : ClkDomain) (port : Nat) (s : State) : State :=
  if !s.up n then s
  else match d with
    | .eng => if (s.ck n).relock || (s.sl n).parked then s else sliceReset n 5 s
    | .hpp =>
      if port = 4 then (if n = 1 && hasTp s.cfg then s.trayPortDown false else s)
      else if port < hostPorts s.cfg && hostPortSlice s.cfg port = n then
        ([2 * port, 2 * port + 1].filter (linkFitted s.cfg)).foldl (fun s l => s.linkLost l) s
      else s
    | .ppp => if port < peerPorts s.cfg && peerPortSlice s.cfg port = n then s.linkFails port else s
    | _ => let d := s.draw; sliceLost n (1 + d.1 % 8) d.2

/-! ### One-sided resets (R545-R547) -/

/-- CROSSING_FLUSH: what the crossing holds is discarded. Cursor lines that wait are held by group 1. -/
def crossingFlush (n g : Nat) (s : State) : State :=
  if !s.up n || 16 ≤ g then s
  else s.modCk n fun c => { c with flushes := c.flushes + 1, lastGroup := g, lastEscalated := false,
                                   busyGroups := c.busyGroups.filter (· != g), latest := if g = 1 then [] else c.latest }

/-- A write that the cut ends: its line is poison (15 R516). -/
def State.cutWrite (s : State) (n : Nat) (w : WReq) : State :=
  ((s.poisonLine w.line).loupeDrop (w.line / 64)).modSl n fun r => { r with dropped := r.dropped + 1 }

/-- A read that the cut ends completes with poison; no line is marked. -/
def State.countCutRead (s : State) (n : Nat) : State := s.modSl n fun x => { x with cutReads := x.cutReads + 1 }

/-- A host access not yet answered ends at the cut. -/
def State.cutJob (s : State) (n k : Nat) (j : Job) : State :=
  let s := match j.write with
    | some w => s.cutWrite n w
    | none => if j.read.isSome then s.countCutRead n else s
  s.endJob k true

/-- A network endpoint of a slice resets alone; the requests inside it end under R516 of 15. Groups 2 to 5 are the
endpoints of the controllers, 6 and 7 those of the host ports. -/
def State.endpointCut (s : State) (n g : Nat) : State :=
  if g = 6 || g = 7 then
    let mine (l : Nat) : Bool := hostPortSlice s.cfg (l / 2) == n
    let rs := s.pool.waiting.filter fun r => mine r.link
    let ws := s.pool.held.filter fun w => !w.done && w.link.any mine
    let s := s.setPool { s.pool with waiting := s.pool.waiting.filter fun r => !mine r.link
                                     held := s.pool.held.filter fun w => w.done || !w.link.any mine }
    let js := s.drc.jobs.filter fun j => j.2.read.any (fun r => mine r.link) || j.2.write.any fun w => w.link.any mine
    let s := js.foldl (fun s j => s.cutJob n j.1 j.2) s
    let s := ws.foldl (fun s w => (s.cutWrite n w).complete w 2) s
    rs.foldl (fun s r => (s.respondRead r 2 none).countCutRead n) s
  else if 2 ≤ g && g ≤ 5 then
    let tier := if g ≤ 3 then 1 else 2
    let mine (k : Nat) : Bool := (ctlOf k).slice == n && (ctlOf k).tier == tier
    let es := (s.drc.chans.filter fun c => mine c.1).flatMap (fun c => c.2.queue.filter fun e => !e.write) ++
      (s.drc.ingress.filter fun e => mine e.1).map (·.2)
    let js := s.drc.jobs.filter fun j => es.any fun e => e.job == some j.1
    let ended (e : QEnt) : Bool := e.job.any fun k => js.any fun j => j.1 == k
    let cut (c : Nat × Chan) : Nat × Chan :=
      if mine c.1 then (c.1, { c.2 with queue := c.2.queue.filter fun e => e.write || !ended e }) else c
    let s := s.setDrc { s.drc with chans := s.drc.chans.map cut
                                   ingress := s.drc.ingress.filter fun e => !(mine e.1 && ended e.2) }
    js.foldl (fun s j => s.cutJob n j.1 j.2) s
  else s

/-- CROSSING_ESCALATION: the side that failed to acknowledge is reset too. Link 8 is the tray port's. -/
def crossingEscalation (n g : Nat) (side : XSide) (s : State) : State :=
  if !s.up n || 16 ≤ g then s
  else
    let s := s.modCk n fun c => { c with escalations := c.escalations + 1, lastGroup := g, lastEscalated := true }
    match side with
    | .engine => sliceReset n 5 s
    | .endpoint => s.endpointCut n g
    | .hostLink l =>
      if l = 8 then (if n = 1 && hasTp s.cfg then s.trayPortDown false else s)
      else if linkFitted s.cfg l && hostPortSlice s.cfg (l / 2) = n then s.resetLink l true else s
    | .peerLink p => if p < peerPorts s.cfg && peerPortSlice s.cfg p = n then s.linkFails p else s
    | .controller c => if c.slice = n then controllerFreeze c 2 none s else s

def execRefLost (s : State) : Host.Outcome State Fault Refusal := .next (refLost s)
def execRefSwitch (s : State) : Host.Outcome State Fault Refusal := .next (refSwitch s)
def execClockFault (slice : Nat) (domain : ClkDomain) (inst : Nat) (s : State) : Host.Outcome State Fault Refusal :=
  .next (clockFault slice domain inst s).dirSettle
def execCrossingFlush (slice group : Nat) (s : State) : Host.Outcome State Fault Refusal := .next (crossingFlush slice group s).dirSettle
def execCrossingEscalation (slice group : Nat) (side : XSide) (s : State) : Host.Outcome State Fault Refusal :=
  .next (crossingEscalation slice group side s).dirSettle

end Sys2Proof.Machine
end

