-- ==== Sys2Proof/Machine/Integrity.lean ====
section
/-! DEFINITION. Rebuild (11 R376-R382), scrubbing (11 R369-R371) and the retire list as read and saved (11 R367). -/
namespace Sys2Proof.Machine
open Sys2Proof

/-! ### Rebuild -/

/-- Stripes of a stack: 24,576 for each of its 31 logical pseudo-channels (R374). -/
def stripeTotal : Nat := 31 * 24576

/-- The first stripe from `k` on that needs work: its parity does not lie on the failed stack. -/
def stripeFrom (c : Cfg) (g k : Nat) : Nat := if (k % 24576) % groupWidth c = g then k + 1 else k

/-- Writes that waited for stripes go on where they need wait no longer. -/
def State.releaseStripes (s : State) (slice : Nat) : State :=
  let ws := (s.eccReg slice).waitWrites
  ws.foldl (fun s w => s.enterWrite w) (s.modEccReg slice fun e => { e with waitWrites := [] })

/-- STRIPE_REBUILT: the next stripe of the failed stack that runs on a slice (R377). -/
def stripeRebuilt (slice : Nat) (s : State) : State :=
  match (s.eccReg slice).rebuilds with
  | [] => s
  | r :: rs =>
    if r.kind != 1 || !r.running || stripeTotal ≤ r.done then s
    else
      let g := (parityGroup s.cfg slice (r.unit % 3)).2
      let k := stripeFrom s.cfg g r.done
      ((s.modEccReg slice fun e => { e with rebuilds := { r with done := k + 1 } :: rs }).releaseStripes slice).wake

/-- Homes with content that a rebuild has stored anew: their tallies restart (R363). -/
def State.rebuiltTallies (s : State) (slice : Nat) (r : Rebuild) : State :=
  let tier := if r.kind ≤ 1 then 1 else 2
  s.items.foldl (fun s i =>
    if s.itemSlice i == slice && (s.homeOf i).any fun h => h.tier == tier && (homePieces s.cfg slice h).any fun p => r.units.contains p.2.1 then
      s.modEnt i fun e => { e with heavy := 0, any := 0 }
    else s) s

/-- REBUILD_DONE: the rebuild of a slice ends and the next begins (R377, R379, R382). -/
def rebuildDone (slice : Nat) (s : State) : State :=
  match (s.eccReg slice).rebuilds with
  | [] => s
  | r :: rs =>
    if !r.running then s
    else
      let s := (s.modEccReg slice fun e => { e with rebuilds := rs }).rebuiltTallies slice r
      let s := if r.kind = 1 then
          s.upSlices.foldl (fun s n => s.modEccReg n fun e => { e with degraded := setBit e.degraded r.group true }) s
        else s
      let s := s.rescaleParts slice r 4
      let s := s.record 0 0x0015 (s.rebuildRecord slice r r.bytes r.lost)
      ((s.startRebuild slice).releaseStripes slice).wake

/-- STACK_FAILURE (R377). -/
def stackFailure (slice stack : Nat) (s : State) : State := if s.up slice && stack < 3 then s.failStack slice stack else s

/-! ### Scrubbing -/

/-- An item lies in a scrub's scope and its home in T1 or T2. -/
def State.inScope (s : State) (x : Scrub) (i : Item) : Bool :=
  match s.homeOf i with
  | none => false
  | some h =>
    h.tier ≤ 2 &&
    match x.scope with
    | 0 => (match i with | .page n => x.start ≤ n * 4096 && n * 4096 < x.start + x.len | _ => false)
    | 1 => bit x.mask (s.itemSlice i) && h.tier == x.tier
    | 2 => (match i with | .tile m _ => m == x.handle | _ => false)
    | _ => true

/-- Homes of a scope that the scrubber skips: pages without a home and homes in T3 or T4 (R370). -/
def State.scrubSkipped (s : State) (x : Scrub) : Nat :=
  let far (i : Item) : Bool := (s.homeOf i).any fun h => 2 < h.tier
  match x.scope with
  | 0 => x.len / 4096 - x.visited.length
  | 1 => 0
  | 2 => (s.items.filter fun i => (match i with | .tile m _ => m == x.handle | _ => false) && far i).length
  | _ => (s.items.filter far).length + ((s.pool.extents.foldl (fun n e => n + e.2.len / 4096) 0) -
      (s.pool.pages.filter fun p => p.2.ent.home.isSome).length)

/-- A scrub is queued or runs. -/
def scrubActive (x : Scrub) : Bool := x.state ≤ 1

/-- A scrub's homes not yet visited. -/
def State.scrubLeft (s : State) (x : Scrub) : List Item := s.items.filter fun i => s.inScope x i && !x.visited.contains i

/-- A scrub ends: it moves behind the active ones, and of those that ended the last 64 are kept (R371). -/
def State.scrubEnd (s : State) (x : Scrub) (state : Nat) : State :=
  let y : Scrub := { x with state := state, notRead := if state = 2 then x.notRead + s.scrubSkipped x else x.notRead }
  let rest := s.ecc.scrubs.filter fun z => z.num != x.num
  let act := rest.filter scrubActive
  let old := (rest.filter fun z => !scrubActive z) ++ [y]
  s.setEcc { s.ecc with scrubs := act ++ old.drop (old.length - 64) }

/-- Scrubs with nothing left end. -/
def State.scrubAdvance (s : State) : State :=
  s.ecc.scrubs.foldl (fun s x => if scrubActive x && (s.scrubLeft x).isEmpty then s.scrubEnd x 2 else s) s

def State.setScrub (s : State) (x : Scrub) : State :=
  s.setEcc { s.ecc with scrubs := s.ecc.scrubs.map fun z => if z.num = x.num then x else z }

/-- SCRUB_RANGE (R369, R371, R443). -/
def scrubRangeCmd (inp : Bytes) (s : State) : Reply :=
  let scope := fld inp 0 1
  let handle := fld inp 6 2
  if bit (fld inp 1 1) 0 then
    match s.ecc.scrubs.find? fun x => x.num == handle with
    | none => fail s .invalidInput
    | some x => ok (if scrubActive x then s.scrubEnd x 3 else s) (flds [(2, handle)])
  else
    let start := fld inp 8 8
    let len := fld inp 16 8
    let tier := fld inp 3 1
    let good := match scope with
      | 0 => start % 4096 == 0 && len % 4096 == 0 && len != 0
      | 1 => tier == 1 || tier == 2
      | 2 => (s.model handle).any fun m => m.tenant == fld inp 4 2
      | 3 => true
      | _ => false
    if !good then fail s .invalidInput
    else if 8 ≤ (s.ecc.scrubs.filter scrubActive).length then fail s .busy
    else
      let n := s.ecc.nextScrub
      let x : Scrub := { num := n, scope := scope, mask := fld inp 2 1, tier := tier, handle := handle, start := start, len := len }
      let x : Scrub := { x with total := if scope = 0 then len / 4096 else (s.scrubLeft x).length }
      let act := s.ecc.scrubs.filter scrubActive
      let old := s.ecc.scrubs.filter fun z => !scrubActive z
      let s := s.setEcc { s.ecc with scrubs := act ++ [x] ++ old, nextScrub := (n + 1) % 65536 }
      ok s.scrubAdvance (flds [(2, n)])

/-- SCRUB_STATUS (R371, R443). -/
def scrubStatusCmd (inp : Bytes) (s : State) : Reply :=
  let s := s.scrubAdvance
  match s.ecc.scrubs.find? fun x => x.num == fld inp 0 2 with
  | none => fail s .invalidInput
  | some x =>
    let pct := if x.state = 2 then 100 else min 100 (100 * x.visited.length / max 1 x.total)
    ok s (flds [(1, x.state), (1, pct), (6, 0), (8, x.read), (8, x.symbols), (8, x.tripped), (8, x.uncorrectable), (8, x.moved), (8, x.notRead)])

/-- The symbols in error of a line of a T1 page from the bits in error of the page; the 64 metadata bits of each line are numbered
after the data of the whole page. -/
def lineFlips (flips : List Nat) (line : Nat) : List Flip :=
  lineErrors (flips.filterMap fun k =>
    if k < 32768 then (if k / 512 = line then some (k % 512) else none)
    else if (k - 32768) / 64 = line then some (512 + (k - 32768) % 64) else none)

/-- A T1 page read by the scrubber: symbols corrected, and whether a line was uncorrectable; corrected lines are written
back in place (R370). -/
def State.scrubPage (s : State) (n : Nat) (h : Home) (flips : List Nat) : State × Nat × Bool :=
  (List.range 64).foldl (fun (a : State × Nat × Bool) j =>
    let (s, k, u) := a
    let f := lineFlips flips j
    if f.isEmpty then a
    else match lineDecode f with
      | none => (s.uncorrectableLine (64 * n + j), k, true)
      | some (left, m) =>
        let s := if left.isEmpty then s
          else s.setPool { s.pool with mem := memWriteN s.pool.mem ((64 * n + j) * 64) (applyFlips (s.lineData (64 * n + j)) left) }
        (if m = 0 then s
         else (s.access (s.sliceOf (n * 4096)) h (64 * j) 64 true s.qos.sysClass).corrected (.page n) false [(h.ma + 64 * j) / 256],
         k + m, u)) (s, 0, false)

/-- SCRUB_HOME_READ: one home of a scrub that is first on its slice (R369, R370). -/
def scrubHomeRead (num : Nat) (i : Item) (flips : List Nat) (s : State) : State :=
  match s.ecc.scrubs.find? fun x => x.num == num, s.homeOf i with
  | some x, some h =>
    let slice := s.itemSlice i
    let first := s.ecc.scrubs.find? fun z => scrubActive z && (s.scrubLeft z).any fun j => s.itemSlice j == slice
    if !scrubActive x || !s.inScope x i || x.visited.contains i || first.map (·.num) != some num then s
    else
      let x : Scrub := { x with state := 1, visited := x.visited ++ [i] }
      if (s.homeFrozen slice h 0 (homeLen h)).isSome then (s.setScrub { x with notRead := x.notRead + 1 }).scrubAdvance
      else
        let still := (s.moveOf i).isNone
        let s := s.access slice h 0 (homeLen h) false s.qos.sysClass
        let (s, k, bad) := match i, h.blk with
          | .page n, none => s.scrubPage n h flips
          | _, some b =>
            (match s.blockRead i h b flips 2 with
            | (none, s) => (s, 0, true)
            | (some m, s) => (s, m, false))
          | _, none => (s, 0, false)
        let lim := s.eccReg slice
        let tripped := still && 0 < k && (s.entOf i).any fun e => lim.heavyLimit ≤ e.heavy || lim.anyLimit ≤ e.any
        let x : Scrub := { x with read := x.read + 1, symbols := x.symbols + k, uncorrectable := x.uncorrectable + b2n bad,
                                  tripped := x.tripped + b2n tripped, moved := x.moved + b2n (still && (s.moveOf i).isSome) }
        (s.setScrub x).scrubAdvance
  | _, _ => s

/-! ### The retire list -/

/-- RETIRE_LIST_GET (13 R452). -/
def retireListCmd (v : Iface) (inp : Bytes) (s : State) : Reply :=
  let n := fld inp 0 1
  let start := fld inp 4 4
  if s.cfg.slices ≤ n then fail s .invalidInput
  else
    let l := (s.eccReg n).retire
    let out := (l.drop start).take ((ifaceLimit v - 8) / 8)
    ok s (flds [(4, l.length), (4, out.length)] ++ out.flatMap fun r => le 8 (r.2 % 2 ^ 40 + 2 ^ 40 * r.1))

/-- A flash write of the module's own that is due: it waits in the guard and during a hold-up test, and is refused by
the pre-write check, which retries every second (17 R559, R564). -/
def State.flashWrite (s : State) (kind : Nat) (go : State → State) : State :=
  if s.pwr.guard then s.setPwr { s.pwr with deferred := if s.pwr.deferred.contains kind then s.pwr.deferred else s.pwr.deferred ++ [kind] }
  else if s.pwr.testing then s
  else if s.canWriteFlash then go s
  else (s.until (s.tbc + 1000 * ms)).prewriteRefused

/-- A settings save of firmware that is not PENDING rewrites the area of another format in its own (14 R494). -/
def State.settingsSaved (s : State) : State :=
  let j := s.fw.journal
  if s.fw.base = 7 || (j.fmtA = s.fw.runFmt && j.fmtB = s.fw.runFmt) then s
  else s.setFw { s.fw with journal := { j with seq := j.seq + 1, fmtA := s.fw.runFmt, fmtB := s.fw.runFmt } }

/-- RETIRE_LIST_SAVE: the lists that have changed go to flash, at most once in 60 s (R367). -/
def retireListSave (s : State) : State :=
  let l := (List.range s.cfg.slices).filter fun n => (s.eccReg n).savePending
  if l.isEmpty then s
  else
    let last := l.foldl (fun m n => max m (((s.eccReg n).lastSave.map (· + 60000 * ms)).getD 0)) 0
    (s.until last).flashWrite 0 fun s =>
      (l.foldl (fun s n => s.modEccReg n fun e => { e with saved := e.retire, savePending := false, lastSave := some s.tbc }) s).settingsSaved

/-! ### Meanings -/

def execStackFailure (slice stack : Nat) (s : State) : Host.Outcome State Fault Refusal := .next (stackFailure slice stack s).dirSettle
def execStripeRebuilt (slice : Nat) (s : State) : Host.Outcome State Fault Refusal := .next (stripeRebuilt slice s).dirSettle
def execRebuildDone (slice : Nat) (s : State) : Host.Outcome State Fault Refusal := .next (rebuildDone slice s).dirSettle
def rowScrubRange : Row := { op := 0xC038, thru := 5, lo := 24, hi := 24 }
def execScrubRange (via : Iface) (inp : Bytes) (s : State) : Host.Outcome State Fault Refusal :=
  .next (mbxCall rowScrubRange (.scrubRange via inp) via inp.length s (scrubRangeCmd inp))
def execScrubCancel (via : Iface) (inp : Bytes) (s : State) : Host.Outcome State Fault Refusal :=
  .next (mbxCall rowScrubRange (.scrubCancel via inp) via inp.length s (scrubRangeCmd inp))
def execScrubHomeRead (scrub : Nat) (item : Item) (flips : List Nat) (s : State) : Host.Outcome State Fault Refusal :=
  .next (scrubHomeRead scrub item flips s)
def rowScrubStatus : Row := { op := 0xC039, thru := 5, lo := 2, hi := 2 }
def execScrubStatus (via : Iface) (inp : Bytes) (s : State) : Host.Outcome State Fault Refusal :=
  .next (mbxCall rowScrubStatus (.scrubStatus via inp) via inp.length s (scrubStatusCmd inp))
def rowRetireListGet : Row := { op := 0xC03A, thru := 5, lo := 8, hi := 8 }
def execRetireListGet (via : Iface) (inp : Bytes) (s : State) : Host.Outcome State Fault Refusal :=
  .next (mbxCall rowRetireListGet (.retireListGet via inp) via inp.length s (retireListCmd via inp))
def execRetireListSave (s : State) : Host.Outcome State Fault Refusal := .next (retireListSave s)

end Sys2Proof.Machine
end

