-- ==== Sys2Proof/Machine/Presence.lean ====
section
/-! DEFINITION. Physical presence, DEBUG_UNLOCK, SANITIZE_ALL and HOLDUP_STATUS (13 R450, R453-R460). -/
namespace Sys2Proof.Machine
open Sys2Proof

/-! ### Presence sources (R455-R457) -/

/-- The window closes when the last source ends (R458, R459). -/
def State.presClosed (s : State) (source : Nat) : State := if s.presOpen then s else s.presEvent 2 source 0

/-- BUTTON_PRESSED: the 2 s hold begins. -/
def buttonPressed (s : State) : State :=
  if s.pwr.state = 0 || s.mbx.buttonDown.isSome then s
  else s.setMbx { s.mbx with buttonDown := some s.tbc, holdDone := false }

def buttonReleased (s : State) : State := s.setMbx { s.mbx with buttonDown := none, holdDone := false }

/-- PRESENCE_BUTTON: the hold reaches 2 s, and the button window runs for 120 s from then. -/
def presenceButton (s : State) : State :=
  match s.mbx.buttonDown with
  | none => s
  | some t =>
    if s.mbx.holdDone then s
    else
      let s := s.until (t + 2000 * ms)
      let was := s.presOpen
      (s.setMbx { s.mbx with holdDone := true, windowEnd := some (s.tbc + 120000 * ms) }).presEvent (if was then 1 else 0) 1 0

/-- BUTTON_WINDOW_EXPIRY. -/
def windowExpiry (s : State) : State :=
  match s.mbx.windowEnd with
  | none => s
  | some t =>
    let s := s.until t
    (s.setMbx { s.mbx with windowEnd := none }).presClosed 1

/-- The seal break goes to the identity area, or waits to be tried again (R457, 17 R559, R564). -/
def State.sealWrite (s : State) : State :=
  let wait (s : State) : State := s.setFw { s.fw with sealRetry := some s.tbc }
  if s.fw.sealRec.isSome then s
  else if !s.rst.mbxReady || s.pwr.testing then wait s
  else if s.pwr.guard then
    wait (s.setPwr { s.pwr with deferred := if s.pwr.deferred.contains 1 then s.pwr.deferred else s.pwr.deferred ++ [1] })
  else if s.canWriteFlash then (s.setFw { s.fw with sealRec := some s.stamp, sealRetry := none }).presEvent 4 4 0
  else wait s.prewriteRefused

/-- SEAL_OPEN: presence at once, and the record. -/
def sealOpened (s : State) : State :=
  if s.pwr.state = 0 || s.mbx.sealOpen then s
  else
    let was := s.presOpen
    let s := (s.setMbx { s.mbx with sealOpen := true }).presEvent 3 4 0
    let s := if was then s else s.presEvent 0 4 0
    s.sealWrite

/-- SEAL_RECORD_RETRY: 1 s after the last attempt. -/
def sealRetry (s : State) : State :=
  match s.fw.sealRetry with
  | none => s
  | some t => (s.until (t + 1000 * ms)).sealWrite

/-- SEAL_LOOP_CLOSED: a break that is still to be recorded is recorded all the same. -/
def sealClosed (s : State) : State :=
  if !s.mbx.sealOpen then s else (s.setMbx { s.mbx with sealOpen := false }).presClosed 4

def jumperRemoved (s : State) : State :=
  if !s.mbx.jumper then s else (s.setMbx { s.mbx with jumper := false }).presClosed 2

/-! ### PRESENCE_STATUS (R459, R460) -/

/-- MBX_PRES (R460). -/
def State.presReg (s : State) : Nat :=
  let left := match s.mbx.windowEnd with
    | some t => (t - s.tbc + 999999999) / 1000000000
    | none => 0
  b2n s.presOpen + 2 * b2n s.buttonOpen + 4 * b2n s.mbx.jumper + 8 * b2n s.mbx.sealOpen + 16 * b2n s.fw.sealRec.isSome +
  32 * b2n (s.mbx.debugOpen != 0) + 64 * b2n s.mbx.buttonDown.isSome + 256 * (left % 128) + 65536 * s.mbx.authorised.toNat

def presenceStatusCmd (s : State) : Reply :=
  let ev (e : PresEvent) : Bytes := flds [(1, e.event), (1, e.source), (2, e.opcode), (4, 0), (8, e.tbc)]
  ok s (flds [(4, s.presReg), (4, 0), (8, s.fw.sealRec.getD 0), (1, s.mbx.history.length)] ++ List.replicate 15 0 ++
    s.mbx.history.flatMap ev)

def rowPresenceStatus : Row := { op := 0xC060, thru := 5, rom := true }

/-! ### DEBUG_UNLOCK (R454, R458) -/

def debugUnlockCmd (inp : Bytes) (s : State) : Reply :=
  if s.fw.sealRec.isNone then fail s (if s.mbx.sealOpen then .busy else .sealIntact)
  else
    let s := s.setMbx { s.mbx with debugOpen := s.mbx.debugOpen ||| (fld inp 0 1 % 4) }
    ok (s.setFw { s.fw with debugRec := s.fw.debugRec <|> some s.stamp })

def rowDebugUnlock : Row := { op := 0xC064, thru := 5, pres := true, flash := true, lo := 1, hi := 1 }

/-! ### SANITIZE_ALL (R453) -/

/-- Bytes of T1 and T2 that a controller reaches, retired units apart. -/
def State.reachableBytes (s : State) : Nat :=
  s.upSlices.foldl (fun n k =>
    let has (c : Ctl) : Bool := s.chanState c == 2 || s.chanState c == 5
    let t1 := ((List.range 96).filter fun u => has { slice := k, tier := 1, unit := u }).length
    let t2 := ((List.range 24).filter fun u => has { slice := k, tier := 2, unit := u }).length
    n + (t1 * (3 * 2 ^ 29) + t2 * 2 ^ 35 - 256 * (s.eccReg k).retire.length)) 0

/-- Content that SANITIZE_ALL and the DRAM_FULL suite refuse to destroy: extents, models, VALID windows (R453, 18 R575). -/
def State.holdsContent (s : State) : Bool :=
  !s.pool.extents.isEmpty || !s.eng.models.isEmpty || !s.eng.loads.isEmpty ||
  (s.fab.lw.any fun w => w.2.valid) || (s.fab.pw.any fun w => w.2.valid)

def sanitizeCmd (inp : Bytes) (s : State) : Reply :=
  if s.bistFull then fail s .busy
  else if fld inp 0 1 != 1 || s.holdsContent then fail s .invalidInput
  else started s

/-- SANITIZE_ALL_DONE: every location has been written and read back. -/
def sanitizeDone (fails : Nat) (s : State) : State :=
  match s.bgOf 0xC063 with
  | none => s
  | some v =>
    let s := s.setPool { s.pool with mem := [], pages := [], loupe := [] }
    let s := s.setDir { s.dir with ents := [], waiting := [] }
    let s := s.setEng { s.eng with t0 := [], fetches := [] }
    s.bgDone v 0xC063 .success (flds [(8, s.reachableBytes), (4, fails)])

def rowSanitize : Row := { op := 0xC063, thru := 5, pres := true, lo := 1, hi := 1 }

/-! ### HOLDUP_STATUS (R450) -/

def holdupStatusCmd (s : State) : Reply :=
  let p := s.pwr
  ok (s.setPwr { p with minStatus := p.inputMv })
    (flds [(4, p.energyMj), (2, p.esr), (1, b2n (1200 ≤ p.energyMj)), (1, b2n p.guard), (8, p.testAt.getD 0), (4, p.inputMv),
      (4, p.minStatus), (2, p.warnMv)])

def rowHoldupStatus : Row := { op := 0xC069, thru := 5 }

/-- MCTP_SET_ENDPOINT_ID (R460). -/
def setEid (eid : Nat) (s : State) : State :=
  if s.cfg.mctp = 0 || !(s.rst.mbxReady || s.rst.recovery) then s else s.setMbx { s.mbx with eid := eid % 256 }

def execPresenceButton (s : State) : Host.Outcome State Fault Refusal := .next (presenceButton s)
def execButtonPressed (s : State) : Host.Outcome State Fault Refusal := .next (buttonPressed s)
def execButtonReleased (s : State) : Host.Outcome State Fault Refusal := .next (buttonReleased s)
def execButtonWindowExpiry (s : State) : Host.Outcome State Fault Refusal := .next (windowExpiry s)
def execSealOpen (s : State) : Host.Outcome State Fault Refusal := .next (sealOpened s)
def execSealRecordRetry (s : State) : Host.Outcome State Fault Refusal := .next (sealRetry s)
def execSealLoopClosed (s : State) : Host.Outcome State Fault Refusal := .next (sealClosed s)
def execServiceJumperRemoved (s : State) : Host.Outcome State Fault Refusal := .next (jumperRemoved s)
def execPresenceStatus (via : Iface) (inp : Bytes) (s : State) : Host.Outcome State Fault Refusal :=
  .next (mbxCall rowPresenceStatus (.presenceStatus via inp) via inp.length s presenceStatusCmd)
def execDebugUnlock (via : Iface) (inp : Bytes) (s : State) : Host.Outcome State Fault Refusal :=
  .next (mbxCall rowDebugUnlock (.debugUnlock via inp) via inp.length s (debugUnlockCmd inp))
def execSanitizeAll (via : Iface) (inp : Bytes) (s : State) : Host.Outcome State Fault Refusal :=
  .next (mbxCall rowSanitize (.sanitizeAll via inp) via inp.length s (sanitizeCmd inp))
def execSanitizeAllDone (fails : Nat) (s : State) : Host.Outcome State Fault Refusal := .next (sanitizeDone fails s)
def execHoldupStatus (via : Iface) (inp : Bytes) (s : State) : Host.Outcome State Fault Refusal :=
  .next (mbxCall rowHoldupStatus (.holdupStatus via inp) via inp.length s holdupStatusCmd)
def execMctpSetEndpointId (eid : Nat) (s : State) : Host.Outcome State Fault Refusal := .next (setEid eid s)

end Sys2Proof.Machine
end

