-- ==== Sys2Proof/Machine/Signatures.lean ====
section
/-! DEFINITION. Dual signatures, certificates and the verification of a report (14 R461-R467, R500, R501). -/
namespace Sys2Proof.Machine
open Sys2Proof

/-- KEY_ID of a key record (R464). -/
def keyId (key : Bytes) : Bytes := (Config.sha384 (slice key 16 432)).take 8

/-- The signatures of a dual signature block that fail under a key record: bit 0 RSA, bit 1 SLH-DSA (R461, R463). -/
def dsbFails (key digest dsb : Bytes) : Nat :=
  b2n (!Config.rsaOk (slice key 16 384) digest (slice dsb 16 384)) + 2 * b2n (!Config.slhOk (slice key 400 48) digest (slice dsb 400 16224))

/-- The two digests in mask ROM are those of a root key record (R467). -/
def rootOk (root : Bytes) : Bool :=
  Config.sha384 (slice root 16 384) == Config.romDigest 0 && Config.sha384 (slice root 400 48) == Config.romDigest 1

/-- A dual certificate's own fields: a certificate, by an issuer, of a key of a usage (R465-R467). -/
def certNames (issuer cert : Bytes) (usage : Nat) : Bool :=
  fld cert 0 4 == 0x43445254 && fld cert 4 2 == 1 && fld cert 6 1 == 3 && slice cert 8 8 == keyId issuer && fld cert 24 1 == usage

/-- Signatures of a certificate that fail under its issuer's keys. -/
def certFails (issuer cert : Bytes) : Nat := dsbFails issuer (Config.sha384 (cert.take 528)) (slice cert 528 16640)

/-- The key record in a certificate. -/
def certKey (cert : Bytes) : Bytes := slice cert 16 512

/-- A report with its chain: the root of the mask ROM, the MFG certificate by it, the base identity certificate, each rotation
certificate by the pair before it, and the report by the last (R466, R472, R500, R501). -/
def reportOk (b : Bytes) : Bool :=
  let n := fld b 355 1
  let root := slice b 17152 512
  let certs := (List.range n).map fun k => slice b (17664 + 17168 * k) 17168
  let issuers := root :: certs.map certKey
  let last := certKey (certs.getLastD [])
  b.length == 17664 + 17168 * n && 2 ≤ n && fld b 0 4 == 0x52505254 && fld b 4 2 == 1 && fld b 6 1 == 4 && rootOk root &&
  ((certs.zip issuers).zipIdx.all fun c => certNames c.1.2 c.1.1 (if c.2 = 0 then 4 else 5) && certFails c.1.2 c.1.1 == 0) &&
  slice b 512 8 == keyId last && dsbFails last (Config.sha384 (b.take 512)) (slice b 512 16640) == 0

end Sys2Proof.Machine
end

