-- ==== Sys2Proof/Machine/Verify.lean ====
section
/-! DEFINITION. Signed objects: signature trailers, FIRMWARE images, LOADER objects and configuration blocks (14 R461-R470,
R475-R477, R480). -/
namespace Sys2Proof.Machine
open Sys2Proof

/-! ### Signatures (R461-R467) -/

def trailerBytes : Nat := 34320

/-- The digest of an object: over its signed range, which runs up to the trailer. -/
def objDigest (b : Bytes) : Bytes := Config.sha384 (b.take (b.length - trailerBytes))

/-- The checks of R467 on an object that must be signed with a key of a usage: result (0, KEY_CHAIN or SIGNATURE) and the
signatures that failed. -/
def verifyTrailer (b : Bytes) (usage : Nat) : Nat × Nat :=
  let n := b.length - trailerBytes
  let root := slice b n 512
  let cert := slice b (n + 512) 17168
  let dsb := slice b (n + 17680) 16640
  let key := certKey cert
  if b.length < trailerBytes || !rootOk root then (3, 0)
  else
    let cf := certFails root cert
    if !certNames root cert usage || cf != 0 then (3, cf)
    else
      let df := dsbFails key (objDigest b) dsb
      if slice dsb 0 8 != keyId key || df != 0 then (2, df) else (0, 0)

/-! ### FIRMWARE images (R468, R475, R477) -/

/-- The bit of VARIANTS that names the module. -/
def variantBit (c : Cfg) : Nat := if c.slices = 2 then 0 else if c.slices = 4 then 1 else 2

/-- A component of the manifest: TYPE, offset and bytes. -/
def manifest (b : Bytes) : List (Nat × Nat × Nat) :=
  (List.range (fld b 40 2)).map fun i => (fld b (256 + 64 * i) 1, fld b (260 + 64 * i) 4, fld b (264 + 64 * i) 4)

/-- Bytes that a table gives as 0. -/
def zeroAt (b : Bytes) (l : List (Nat × Nat)) : Bool := l.all fun r => fld b r.1 r.2 == 0

/-- A LOADER object (R476). -/
def loaderFormatOk (b : Bytes) : Bool :=
  let t := fld b 36 4
  zeroAt b [(24, 2), (28, 4), (48, 208)] &&
  fld b 0 4 == 0x4C445250 && fld b 4 2 == 1 && fld b 6 1 == 5 && fld b 32 4 == b.length && b.length ≤ 4194304 &&
  t + trailerBytes == b.length && fld b 40 4 % 4096 == 0 && 4096 ≤ fld b 40 4 && fld b 40 4 + fld b 44 4 ≤ t

/-- The BOOT_LOADER component of an image. -/
def bootLoaderOf (b : Bytes) : Option Bytes :=
  ((manifest b).find? fun m => m.1 == 5).map fun m => slice b m.2.1 m.2.2

/-- The format rules of R475 and R477. -/
def imageFormatOk (b : Bytes) : Bool :=
  let n := fld b 32 4
  let t := fld b 36 4
  let ms := manifest b
  let count (k : Nat) : Nat := (ms.filter fun m => m.1 == k).length
  fld b 0 4 == 0x4657494D && fld b 4 2 == 1 && fld b 6 1 == 1 && n == b.length && n ≤ 50331648 && t + trailerBytes == n &&
  1 ≤ fld b 40 2 && fld b 40 2 ≤ 32 && count 1 == 1 && count 2 == 1 && count 3 == 1 && count 4 == 1 && count 5 ≤ 1 &&
  zeroAt b [(25, 1), (30, 2), (42, 214)] && ((List.range (fld b 40 2)).all fun i => zeroAt b [(258 + 64 * i, 2), (268 + 64 * i, 4)]) &&
  (ms.all fun m => 1 ≤ m.1 && m.1 ≤ 5 && m.2.1 % 4096 == 0 && m.2.1 + m.2.2 ≤ t) &&
  (List.range (fld b 40 2)).all fun i =>
    Config.sha384 (slice b (fld b (260 + 64 * i) 4) (fld b (264 + 64 * i) 4)) == slice b (272 + 64 * i) 48

/-- The header of an image. -/
def imageOf (b : Bytes) : Img :=
  { version := slice b 8 16, level := fld b 24 1, svn := fld b 26 2, setFmt := fld b 28 1, minFmt := fld b 29 1,
    variants := fld b 7 1, digest := objDigest b, ok := true, loader := (bootLoaderOf b).isSome, bytes := b.length }

/-- Verification of an offered image, in the order of R480: result and detail. -/
def State.verifyImage (s : State) (b : Bytes) : Nat × Nat :=
  if !imageFormatOk b then (4, 0)
  else
    let v := verifyTrailer b 2
    if v.1 != 0 then v
    else if !bit (fld b 7 1) (variantBit s.cfg) then (5, 0)
    else if fld b 26 2 < s.fw.svnFloor then (6, 0)
    else (0, 0)

/-! ### Configuration blocks (R469, R470) -/

/-- The valid configuration copy: the one with the higher CONFIG_SEQ of those that verify (R474). -/
def bestConf (l : List Conf) : Option Conf :=
  l.foldl (fun (a : Option Conf) c => if !c.ok then a else match a with
    | none => some c
    | some d => if d.seq < c.seq then some c else a) none

/-- The fields of a configuration body, over the part that carries it. -/
def confOf (part : Cfg) (b : Bytes) : Cfg :=
  let p4 (off : Nat) : List Nat := (List.range 4).map fun p => fld b (off + 4 * p) 2
  { part with vfBase := p4 64, vfCount := p4 66, portSplit := fld b 80 1, fmLinks := fld b 81 1, mctp := fld b 82 1,
              sliceGrain := fld b 84 1, t1Grain := fld b 85 1, t2Grain := fld b 86 1, mapFlags := fld b 87 1,
              sparePc := (List.range 24).map fun i => fld b (88 + i) 1, mapWords := fld b 112 4, programMib := fld b 116 2,
              reserveBp := fld b 118 2, floorBp := fld b 120 2, reserveTenantPct := fld b 122 1,
              dcRegionMib := (List.range 64).map fun i => fld b (128 + 4 * i) 4, serial := slice b 8 16 }

/-- Raw fitted T1 and T2 in MiB (01 R26). -/
def rawMib (c : Cfg) : Nat := c.slices * (3 * 48 * 1024 + (if c.half then 3 else 6) * 128 * 1024)

/-- Virtual functions of two ports do not share a tenant context. -/
def rangesApart : List (Nat × Nat) → Bool
  | [] => true
  | r :: rs => (rs.all fun q => r.2 == 0 || q.2 == 0 || r.1 + r.2 ≤ q.1 || q.1 + q.2 ≤ r.1) && rangesApart rs

/-- The ranges of R470. -/
def confFormatOk (part : Cfg) (b : Bytes) : Bool :=
  let c := confOf part b
  let body := fld b 32 4
  let grain (g : Nat) : Bool := 8 ≤ g && g ≤ 16
  let zero (off n : Nat) : Bool := fld b off n == 0
  fld b 0 4 == 0x43464750 && fld b 4 2 == 1 && b.length ≤ 2 ^ 20 && 320 ≤ body && 64 + body + trailerBytes == b.length &&
  c.vfBase.all (· ≤ 1023) && c.vfCount.all (· ≤ 1024) && c.vfCount.foldl (· + ·) 0 ≤ 1024 && rangesApart (c.vfBase.zip c.vfCount) &&
  c.portSplit < 16 && c.mctp < 4 && zero 83 1 && 12 ≤ c.sliceGrain && c.sliceGrain ≤ 30 && grain c.t1Grain && grain c.t2Grain &&
  c.mapFlags < 16 && (c.sparePc.zipIdx.all fun x => if x.2 < 3 * part.slices then x.1 < 32 else x.1 == 0xFF) &&
  64 ≤ c.programMib && c.programMib ≤ 8192 && 200 ≤ c.reserveBp && c.reserveBp ≤ 10000 && 25 ≤ c.floorBp && c.floorBp < c.reserveBp &&
  1 ≤ c.reserveTenantPct && c.reserveTenantPct ≤ 100 && zero 123 5 && c.dcRegionMib.all (· % 256 == 0) &&
  ((List.range 8).all fun l => ((c.dcRegionMib.drop (8 * l)).take 8).foldl (· + ·) 0 ≤ rawMib part) &&
  ((b.drop 384).take (body - 320)).all (· == 0)

/-- Verification of a configuration block. -/
def State.verifyConf (s : State) (b : Bytes) : Nat × Nat :=
  if !confFormatOk s.cfg b then (4, 0)
  else
    let v := verifyTrailer b 3
    if v.1 != 0 then v
    else if slice b 8 16 != s.cfg.serial || fld b 24 4 ≤ ((bestConf s.fw.configs).map (·.seq)).getD 0 then (18, 0)
    else (0, 0)

/-- A block takes the copy that is not valid, or that of the lower CONFIG_SEQ (R474). -/
def State.storeConf (s : State) (b : Bytes) : State :=
  let c : Conf := { seq := fld b 24 4, floor := fld b 28 2, cfg := confOf s.cfg b, digest := objDigest b }
  s.setFw { s.fw with configs := (bestConf s.fw.configs).toList ++ [c] }

/-- Verification of an offer: FIRMWARE or CONFIG, else FORMAT (R480). -/
def State.verifyOffer (s : State) (o : Offer) : Nat × Nat :=
  if o.kind = 1 then s.verifyImage o.bytes else if o.kind = 2 then s.verifyConf o.bytes else (4, 0)

end Sys2Proof.Machine
end

