-- ==== Sys2Proof/Machine/Firmware.lean ====
section
/-! DEFINITION. Offers, the firmware chain and the image writer (14 R447, R480-R485). -/
namespace Sys2Proof.Machine
open Sys2Proof

/-! ### Ends of an offer -/

/-- This module forwards a chain. -/
def State.forwarding (s : State) : Bool := s.fw.chain.any fun c => c.next.isSome

/-- The command, or the master of a chain received, learns the result of an offer. -/
def State.offerAnswer (s : State) (o : Offer) (result : Nat) : State :=
  match o.via with
  | some v => s.bgDone v 0xC058 (resultRet result) []
  | none => s.reportMsg 6 result

/-- The module's own part of an offer ends (R480, R484, R485): while it forwards, it goes on reporting DISTRIBUTING. -/
def State.offerEnds (s : State) (result base : Nat) (detail : Nat := 0) (offset : Nat := 0) : State :=
  match s.fw.offer with
  | none => s
  | some o =>
    let s := s.setFw { s.fw with base := base, write := none }
    if s.forwarding then
      let s := (s.setFw { s.fw with ownResult := some result }).fwTo 3 result o.img.version o.kind o.scope detail offset
      if o.via.isNone then s.reportMsg 6 result else s
    else
      let s := (s.setFw { s.fw with offer := none, ownResult := none }).fwTo base result o.img.version o.kind o.scope detail offset
      s.offerAnswer o result

/-- Forwarding ends: WRITING where the own write still runs, else the offer ends (R495). -/
def State.forwardEnds (s : State) : State :=
  match s.fw.chain, s.fw.offer with
  | some c, some o =>
    let s := s.setFw { s.fw with chain := some { c with next := none } }
    match s.fw.ownResult with
    | none => s.fwTo (if s.fw.write.isSome then 4 else s.fw.base) 0 o.img.version o.kind o.scope
    | some r =>
      let s := (s.setFw { s.fw with offer := none, ownResult := none }).fwTo s.fw.base 0 o.img.version o.kind o.scope
      match o.via with
      | some v => s.bgDone v 0xC058 (resultRet r) []
      | none => s
  | some c, none => s.setFw { s.fw with chain := some { c with next := none } }
  | none, _ => s

/-! ### The chain (R481-R483) -/

/-- A RESULT for a module, at the master a record (R483). What the record or the message says of the other module's state
and its previous one, where nothing told it, is a free value. -/
def State.resultRecord (s : State) (module result fwState : Nat) : State :=
  let d := s.draw
  let v := ((d.2.fw.chain.map (·.version)).getD [])
  let k := ((d.2.fw.chain.map (·.kind)).getD 1)
  d.2.fwRecord (resultLog result) fwState (d.1 % 10) result k 1 0 module 0 0 v

/-- ANNOUNCE to the next module of ORDER, or the end of the chain here. -/
def State.chainHop (s : State) (after : Option Nat) : State :=
  match s.fw.chain with
  | none => s
  | some c =>
    let rest := match after with
      | none => c.order
      | some m => (c.order.dropWhile (· != m)).drop 1
    match rest with
    | [] => s.forwardEnds
    | m :: _ =>
      let head := flds [(8, c.num), (4, c.bytes), (4, c.crc)] ++ slice c.version 0 16 ++ flds [(1, c.kind), (1, 0), (2, c.order.length)]
      let data := slice head 0 256 ++ c.order.map (BitVec.ofNat 8)
      (s.setFw { s.fw with chain := some { c with next := some m, ready := false, tries := 0, lastAt := s.tbc } }).chainMsg m c.num 0 0 data

/-- SEGMENTs of at most 1,024 B from an offset, and DONE. -/
def State.sendSegments (s : State) (m num : Nat) (b : Bytes) : Nat → Nat → State
  | 0, _ => s.chainMsg m num 4 0 []
  | fuel + 1, off =>
    if b.length ≤ off then s.chainMsg m num 4 0 []
    else (s.chainMsg m num 2 off (slice b off (min 1024 (b.length - off)))).sendSegments m num b fuel (off + 1024)

def State.sendImage (s : State) (m off : Nat) : State :=
  match s.fw.chain, s.fw.offer with
  | some c, some o =>
    (s.setFw { s.fw with chain := some { c with lastAt := s.tbc } }).sendSegments m c.num o.bytes ((o.bytes.length - off) / 1024 + 1) off
  | _, _ => s

/-- A hop skips its module (R483): the master learns CHAIN_SKIPPED. -/
def State.chainSkip (s : State) (m : Nat) : State :=
  let d := s.draw
  let st := d.1 % 10
  let s := if s.fab.isMaster then d.2.resultRecord m 17 st
    else d.2.chainMsg s.fab.master ((s.fw.chain.map (·.num)).getD 0) 6 0 (flds [(1, m), (1, 17), (1, st)])
  s.chainHop (some m)

/-- The module that this holder serves now. -/
def State.serving (s : State) (src : Nat) : Bool := s.fw.chain.any fun c => c.next == some src

def chainReady (src result : Nat) (s : State) : State :=
  match s.fw.chain with
  | none => s
  | some c =>
    if !s.serving src || c.ready then s
    else if result != 0 then s.chainSkip src
    else (s.setFw { s.fw with chain := some { c with ready := true, lastAt := s.tbc } }).sendImage src 0

def chainResend (src off : Nat) (s : State) : State := if s.serving src then s.sendImage src off else s

def chainReceived (src : Nat) (mismatch : Bool) (s : State) : State :=
  match s.fw.chain with
  | none => s
  | some c =>
    if !s.serving src || !c.ready then s
    else if !mismatch then s.forwardEnds
    else if 2 ≤ c.tries then s.chainSkip src
    else (s.setFw { s.fw with chain := some { c with tries := c.tries + 1 } }).sendImage src 0

/-- CHAIN_HOP_TIMEOUT: no READY within 500 ms, or silence for 2 s. -/
def chainHopTimeout (s : State) : State :=
  match s.fw.chain with
  | none => s
  | some c => match c.next with
    | none => s
    | some m => (s.until (c.lastAt + (if c.ready then 2000 else 500) * ms)).chainSkip m

/-- RESULT at the master (R483). -/
def chainResult (module result fwState : Nat) (s : State) : State :=
  match s.fw.chain with
  | none => s
  | some c =>
    if !s.fab.isMaster then s
    else
      let s := if result = 0 && !c.staged.contains module then s.setFw { s.fw with chain := some { c with staged := c.staged ++ [module] } } else s
      s.resultRecord module result fwState

/-! ### The receiver -/

/-- The states in which an offer is accepted: IDLE, STAGED, FALLEN_BACK (R480). -/
def offerState (b : Nat) : Bool := b == 0 || b == 5 || b == 8

/-- A chain that this module receives now. -/
def State.receiving (s : State) : Bool := s.fw.chain.any fun c => c.source.isSome

/-- ANNOUNCE: READY, or a refusal (log 40). -/
def announce (src num bytes crc : Nat) (version : Bytes) (kind : Nat) (order : List Nat) (s : State) : State :=
  if s.fab.mstate != 2 || s.rst.recovery then s
  else if !offerState s.fw.state || s.fw.part.isSome || s.receiving || s.forwarding then s.chainMsg src num 1 0 (le 1 17)
  else if 50331648 < bytes then s.chainMsg src num 1 0 (le 1 4)
  else
    let c : Chain := { num := num, bytes := bytes, crc := crc, version := slice version 0 16, kind := kind, order := order,
                       source := some src, lastAt := s.tbc }
    let s := (s.setFw { s.fw with chain := some c, offered := slice version 0 16 }).fwTo 1 0 version kind 1
    s.chainMsg src num 1 0 (le 1 0)

/-- SEGMENT: the next bytes are kept; after a gap the holder is asked to resend. -/
def chainSegment (src off : Nat) (data : Bytes) (s : State) : State :=
  match s.fw.chain with
  | none => s
  | some c =>
    if c.source != some src then s
    else if off = c.recv.length then s.setFw { s.fw with chain := some { c with recv := (c.recv ++ data).take c.bytes, lastAt := s.tbc } }
    else if c.recv.length < off then s.chainMsg src c.num 3 c.recv.length []
    else s

/-- DONE: the transit CRC is checked; the image goes on to verification (R482). -/
def chainDone (src : Nat) (s : State) : State :=
  match s.fw.chain with
  | none => s
  | some c =>
    if c.source != some src then s
    else if c.recv.length < c.bytes then s.chainMsg src c.num 3 c.recv.length []
    else if crc32c c.recv = c.crc then
      let o : Offer := { kind := c.kind, bytes := c.recv, img := imageOf c.recv, scope := 1 }
      let s := s.setFw { s.fw with offer := some o, chain := some { c with source := none, recv := [] } }
      (s.fwTo 2 0 c.version c.kind 1).chainMsg src c.num 5 0 (le 1 0)
    else
      let s := s.chainMsg src c.num 5 0 (le 1 1)
      -- at which byte the transit went wrong no message tells
      if 2 ≤ c.tries then (s.draw.2.setFw { s.fw with chain := none }).fwTo s.fw.base 1 c.version c.kind 1 (offset := s.draw.1 % max 1 c.bytes)
      else s.setFw { s.fw with chain := some { c with recv := [], tries := c.tries + 1 } }

/-! ### FW_CHAIN_OFFER (R447, R480) -/

def rowChainOffer : Row := { op := 0xC058, thru := 8, flash := true, lo := 16, hi := 65536, rom := true }

/-- The offer buffer is in use: an offer is verified, forwarded or written, or a chain is received. -/
def State.bufferBusy (s : State) : Bool := s.fw.offer.isSome || s.receiving || s.fw.handover.isSome

def beginCmd (inp : Bytes) (s : State) : Reply :=
  let n := fld inp 4 4
  if s.bufferBusy && !s.rst.recovery then fail s .busy
  else if n = 0 || 50331648 < n then fail s .invalidInput
  else
    let s := s.setFw { s.fw with part := some (n, []), offer := if s.rst.recovery then none else s.fw.offer }
    ok (if offerState s.fw.base && !s.rst.recovery then s.fwTo 1 0 s.fw.offered else s)

def segmentCmd (inp : Bytes) (s : State) : Reply :=
  let off := fld inp 8 4
  let n := fld inp 12 4
  match s.fw.part with
  | none => fail s .invalidInput
  | some (total, b) =>
    if inp.length < 16 + n then fail s .invalidPayloadLength
    else if off % 4096 != 0 || off != b.length || total < b.length + n then fail s .invalidInput
    else ok (s.setFw { s.fw with part := some (total, b ++ slice inp 16 n) })

/-- ORDER: every MEMBER in ascending number, starting after the master (R482). -/
def State.chainOrder (s : State) : List Nat :=
  let ms := (List.range 256).filter fun m => m != s.fab.me && s.fab.members.any fun x => x.module == m && x.state == 1
  (ms.filter fun m => s.fab.me < m) ++ ms.filter fun m => m < s.fab.me

def offerCmd (v : Iface) (inp : Bytes) (s : State) : Reply :=
  let scope := fld inp 1 1
  match s.fw.part with
  | none => fail s .invalidInput
  | some (total, b) =>
    if b.length != total || 1 < scope || (scope = 1 && (!s.fab.isMaster || s.fab.masterLost)) then fail s .invalidInput
    else if (!s.rst.recovery && !offerState s.fw.base) || s.bufferBusy then fail s .busy
    else
      let kind := fld b 6 1
      let o : Offer := { kind := kind, bytes := b, img := imageOf b, scope := scope, via := some v }
      started s |> fun r => { r with after := fun s =>
        let s := s.setFw { s.fw with part := none, offer := some o, offered := if kind = 1 then o.img.version else s.fw.offered }
        if s.rst.recovery then s else s.fwTo 2 0 o.img.version kind scope }

/-! ### Verification ends (R480) -/

/-- Write steps of an object: an erase and a program for each 4 KiB unit (R485). -/
def writeSteps (bytes : Nat) : Nat := 2 * ((bytes + 4095) / 4096)

/-- The write of a verified image begins (R484). -/
def State.startWrite (s : State) (o : Offer) : State :=
  let copy := s.fw.journal.fbDigest != s.fw.running.digest
  let w : FwWrite := if copy then { phase := 0, total := writeSteps s.fw.running.bytes } else { phase := 1, total := writeSteps o.bytes.length }
  s.setFw { s.fw with write := some w }

/-- The chain starts at the master, or goes on at a receiver whose signatures passed (R482). -/
def State.startChain (s : State) (o : Offer) : State :=
  let order := s.chainOrder
  match o.via with
  | some _ =>
    let c : Chain := { num := s.fw.nextChain, bytes := o.bytes.length, crc := crc32c o.bytes, version := o.img.version,
                       kind := o.kind, order := order, level := o.img.level }
    (s.setFw { s.fw with chain := some c, nextChain := s.fw.nextChain + 1 }).chainHop none
  | none => s.chainHop (some s.fab.me)

/-- A failed check pauses the write (R485). -/
def State.pauseWrite (s : State) (w : FwWrite) : State :=
  s.prewriteRefused.setFw { s.prewriteRefused.fw with write := some { w with paused := some s.tbc, retryAt := s.tbc } }

/-- The writer may take its next flash step: 0 it may, 1 it waits, 2 the check failed. -/
def State.flashGate (s : State) : Nat := if s.pwr.guard || s.pwr.testing then 1 else if s.canWriteFlash then 0 else 2

/-- A step that waits in the guard is one deferred write (17 R561). -/
def State.deferFlash (s : State) (kind : Nat) : State :=
  if s.pwr.guard && !s.pwr.deferred.contains kind then s.setPwr { s.pwr with deferred := s.pwr.deferred ++ [kind] } else s

/-- A configuration block that cannot be written at once waits as an image's step does (R480, R485). -/
def State.confWaits (s : State) (g : Nat) : State :=
  match s.fw.write with
  | some w => if g = 1 then s.deferFlash 2 else s.pauseWrite w
  | none => s

def offerVerified (s : State) : State :=
  match s.fw.offer with
  | none => s
  | some o =>
    if s.rst.recovery then
      let r := s.verifyOffer o
      let s := if r.1 = 0 then s else s.setFw { s.fw with offer := none, lastResult := r.1 }
      s.offerAnswer o r.1
    else if s.fw.state != 2 then s
    else
      let (result, detail) := s.verifyOffer o
      -- an object whose format or signatures fail is forwarded by no one
      if result = 2 || result = 3 || result = 4 || (result != 0 && o.via.isSome) then s.offerEnds result s.fw.base detail
      else
        let s := if o.scope = 1 then
            let s := s.startChain o
            if s.forwarding then s.fwTo 3 0 o.img.version o.kind o.scope else s
          else s
        if result != 0 then s.offerEnds result s.fw.base detail
        else if o.kind = 2 then
          match s.flashGate with
          | 0 => (s.storeConf o.bytes).offerEnds 0 0
          | g => ((s.setFw { s.fw with write := some { phase := 3, total := 0 } }).confWaits g).fwTo 4 0 o.img.version 2 o.scope
        else
          let s := s.startWrite o
          if s.forwarding then s else s.fwTo 4 0 o.img.version o.kind o.scope

/-! ### The image writer (R484, R485) -/

/-- A boot-control record (R478). -/
def State.journalTo (s : State) (f : Journal → Journal) : State :=
  let j := f s.fw.journal
  s.setFw { s.fw with journal := { j with seq := s.fw.journal.seq + 1 } }

/-- The record that step 1 of R484 leaves: the fall-back slot holds the running image, the main slot is about to be written. -/
def State.mainErased (s : State) : State :=
  s.journalTo fun j => { j with active := 1, mainState := 1, fbDigest := s.fw.running.digest }

/-- The write ends early: the slot being written is invalid, and STAGED is lost with the main slot. -/
def State.writeEnds (s : State) (w : FwWrite) (result offset : Nat) : State :=
  if w.phase = 2 then
    match s.bgOf 0xC059 with
    | some v => (s.setFw { s.fw with write := none, lastResult := result }).bgDone v 0xC059 (resultRet result) []
    | none => s.setFw { s.fw with write := none, lastResult := result }
  else s.offerEnds result (if w.phase = 1 && s.fw.base = 5 then 0 else s.fw.base) 0 offset

/-- FLASH_WRITE_STEP: one erase or program. The first step of the main slot follows the record of step 1 of R484. -/
def flashWriteStep (s : State) : State :=
  match s.fw.write with
  | none => s
  | some w =>
    if w.paused.isSome || w.total ≤ w.step then s
    else match s.flashGate with
      | 1 => s.deferFlash 3
      | 2 => s.pauseWrite w
      | _ =>
        let s := s.setFw { s.fw with write := some { w with step := w.step + 1 } }
        if w.phase = 0 then s.setFw { s.fw with fallback := { s.fw.fallback with ok := false } }
        else if w.phase = 1 && w.step = 0 then
          let s := if w.recorded then s else s.mainErased
          s.setFw { s.fw with main := { s.fw.main with ok := false } }
        else if w.phase = 2 && s.fw.offer.any (fun o => o.kind == 1) then s.setFw { s.fw with main := { s.fw.main with ok := false } }
        else s

/-- FLASH_WRITE_RETRY: every 1 s, for 60 s. -/
def flashWriteRetry (s : State) : State :=
  match s.fw.write with
  | none => s
  | some w => match w.paused with
    | none => s
    | some t =>
      let s := s.until (w.retryAt + 1000 * ms)
      match s.flashGate with
      | 0 => s.setFw { s.fw with write := some { w with paused := none } }
      | _ =>
        let s := s.prewriteRefused
        if t + 60000 * ms ≤ s.tbc then s.writeEnds w 9 0 else s.setFw { s.fw with write := some { w with retryAt := s.tbc } }

/-- What a write of recovery mode leaves (R499): the ROM then resets the module, which waits for its start. -/
def State.romWritten (s : State) (o : Offer) : State :=
  let s := if o.kind = 2 then s.storeConf o.bytes
    else
      let s := s.setFw { s.fw with main := o.img }
      let s := match bootLoaderOf o.bytes with
        | some l => if loaderFormatOk l && (verifyTrailer l 2).1 == 0 then s.setFw { s.fw with loaderOk := true, loaderDigest := objDigest l } else s
        | none => s
      s.journalTo fun j => { j with active := 0, mainState := 3, boots := 0, mainDigest := o.img.digest }
  let s := s.bgDoneOp 0xC059 .success []
  (s.setRst { s.rst with recovery := false, phase := 0 }).setFw { s.fw with offer := none, write := none }

/-- IMAGE_WRITE_DONE: the slot has been written and is read back. -/
def imageWriteDone (good : Bool) (offset : Nat) (s : State) : State :=
  match s.fw.write, s.fw.offer with
  | some w, some o =>
    if w.paused.isSome || w.step < w.total then s
    else if !good then s.writeEnds w 10 offset
    else match s.flashGate with
      | 1 => s.deferFlash 2
      | 2 => s.pauseWrite w
      | _ =>
        if w.phase = 0 then
          let s := s.mainErased
          s.setFw { s.fw with fallback := { s.fw.running with ok := true },
                              write := some { phase := 1, total := writeSteps o.bytes.length, recorded := true } }
        else if w.phase = 1 then
          let s := s.journalTo fun j => { j with mainState := 2, mainDigest := o.img.digest }
          (s.setFw { s.fw with main := o.img }).offerEnds 0 5
        else if w.phase = 3 then (s.storeConf o.bytes).offerEnds 0 0
        else s.romWritten o
  | _, _ => s

/-- ABORT: the write ends after its current step (R485). -/
def abortCmd (s : State) : Reply :=
  match s.fw.write with
  | none => fail s .invalidInput
  | some w => { ret := .success, st := s, after := fun s => s.writeEnds w 16 0 }

/-- FW_CHAIN_OFFER by its ACTION (R447), reserved codes of ACTION and SCOPE being Invalid Input (00 R10); recovery mode takes SCOPE 0 alone (13 R424). -/
def chainOfferCmd (v : Iface) (inp : Bytes) (s : State) : Reply :=
  if 1 < fld inp 1 1 then fail s .invalidInput
  else if s.rst.recovery && fld inp 1 1 = 1 then fail s .recoveryMode
  else if fld inp 1 1 = 1 && !s.fab.isMaster then fail s .invalidInput
  else match fld inp 0 1 with
    | 0 => beginCmd inp s
    | 1 => segmentCmd inp s
    | 2 => offerCmd v inp s
    | 3 => abortCmd s
    | _ => fail s .invalidInput

def execFwChainOfferBegin (via : Iface) (inp : Bytes) (s : State) : Host.Outcome State Fault Refusal :=
  .next (mbxCall rowChainOffer (.fwChainOfferBegin via inp) via inp.length s (chainOfferCmd via inp))
def execFwChainOfferSegment (via : Iface) (inp : Bytes) (s : State) : Host.Outcome State Fault Refusal :=
  .next (mbxCall rowChainOffer (.fwChainOfferSegment via inp) via inp.length s (chainOfferCmd via inp))
def execFwChainOfferOffer (via : Iface) (inp : Bytes) (s : State) : Host.Outcome State Fault Refusal :=
  .next (mbxCall rowChainOffer (.fwChainOfferOffer via inp) via inp.length s (chainOfferCmd via inp))
def execFwChainOfferAbort (via : Iface) (inp : Bytes) (s : State) : Host.Outcome State Fault Refusal :=
  .next (mbxCall rowChainOffer (.fwChainOfferAbort via inp) via inp.length s (chainOfferCmd via inp))
def execOfferVerified (s : State) : Host.Outcome State Fault Refusal := .next (offerVerified s)
def execFlashWriteStep (s : State) : Host.Outcome State Fault Refusal := .next (flashWriteStep s)
def execFlashWriteRetry (s : State) : Host.Outcome State Fault Refusal := .next (flashWriteRetry s)
def execImageWriteDone (readback : Bool) (offset : Nat) (s : State) : Host.Outcome State Fault Refusal :=
  .next (imageWriteDone readback offset s)
def execAnnounce (src chain bytes crc : Nat) (version : Bytes) (kind : Nat) (order : List Nat) (s : State) :
    Host.Outcome State Fault Refusal := .next (announce src chain bytes crc version kind order s)
def execReady (src result : Nat) (s : State) : Host.Outcome State Fault Refusal := .next (chainReady src result s)
def execSegment (src offset : Nat) (data : Bytes) (s : State) : Host.Outcome State Fault Refusal := .next (chainSegment src offset data s)
def execResend (src offset : Nat) (s : State) : Host.Outcome State Fault Refusal := .next (chainResend src offset s)
def execDone (src : Nat) (s : State) : Host.Outcome State Fault Refusal := .next (chainDone src s)
def execReceived (src : Nat) (mismatch : Bool) (s : State) : Host.Outcome State Fault Refusal := .next (chainReceived src mismatch s)
def execResult (module result fwState : Nat) (s : State) : Host.Outcome State Fault Refusal := .next (chainResult module result fwState s)
def execChainHopTimeout (s : State) : Host.Outcome State Fault Refusal := .next (chainHopTimeout s)

end Sys2Proof.Machine
end

