-- ==== Sys2Proof/Machine/Handover.lean ====
section
/-! DEFINITION. Activation, handover, confirmation and FW_STATUS (14 R486-R494, R499, 13 R448). -/
namespace Sys2Proof.Machine
open Sys2Proof

/-! ### Activation (R486, R491, R499) -/

/-- Two interface levels lie within 1 of each other. -/
def levelNear (a b : Nat) : Bool := a ≤ b + 1 && b ≤ a + 1

/-- What keeps the staged image from activation: LEVEL_GAP, SETTINGS_GAP or nothing (R486). -/
def State.activateGap (s : State) : Nat :=
  if !(s.upSlices.all fun n => levelNear s.fw.main.level (s.fw.levels.getD n 0)) then 7
  else if s.fw.runFmt < s.fw.main.minFmt then 8 else 0

/-- The handover begins with the highest-numbered slice (R488). -/
def State.beginHandover (s : State) (via : Option Iface) (scope : Nat) : State :=
  let h : Handover := { via := via, unit := s.upSlices.foldl max 0, scope := scope }
  (s.setFw { s.fw with handover := some h }).fwTo 6 0 s.fw.main.version (scope := scope)

/-- A result that changes no state is recorded (R496). -/
def State.fwNote (s : State) (result scope : Nat) : State := s.fwTo s.fw.state result s.fw.main.version (scope := scope)

/-- FW_ACTIVATE with SCOPE 0. -/
def activateCmd (v : Iface) (s : State) : Reply :=
  if s.rst.recovery then
    match s.fw.offer with
    | some o =>
      if (s.bgOf 0xC058).isSome || s.fw.write.isSome then fail s .invalidInput
      else started (s.setFw { s.fw with write := some { phase := 2, total := writeSteps o.bytes.length } })
    | none => fail s .invalidInput
  else if s.fw.state != 5 then fail s .invalidInput
  else if s.upSlices.any s.restarting then fail s .busy
  else if s.activateGap != 0 then { fail s .invalidInput with after := fun s => s.fwNote s.activateGap 0 }
  else { started s with after := fun s => s.beginHandover (some v) 0 }

/-- The next module of a constellation activation, the master last (R491). -/
def State.activateNext (s : State) (a : ActAll) : State :=
  match a.left with
  | m :: rest =>
    let s := s.setFw { s.fw with actAll := some { a with left := rest, waiting := some (m, s.tbc) } }
    s.chainMsg m ((s.fw.chain.map (·.num)).getD 0) 7 0 []
  | [] =>
    let s := s.setFw { s.fw with actAll := none }
    if s.fw.state != 5 || s.upSlices.any s.restarting then s.bgDone a.via 0xC059 .invalidInput []
    else if s.activateGap != 0 then (s.fwNote s.activateGap 1).bgDone a.via 0xC059 .invalidInput []
    else s.beginHandover (some a.via) 1

/-- FW_ACTIVATE with SCOPE 1, at the master. -/
def activateAllCmd (v : Iface) (s : State) : Reply :=
  match s.fw.chain with
  | none => fail s .invalidInput
  | some c =>
    if s.rst.recovery then fail s .recoveryMode
    else if !s.fab.isMaster || s.forwarding then fail s .invalidInput
    else
      let l := if levelNear c.level s.fw.running.level then c.order.filter c.staged.contains else []
      { started s with after := fun s => s.activateNext { via := v, left := l } }

def fwActivateCmd (v : Iface) (inp : Bytes) (s : State) : Reply :=
  match fld inp 0 1 with
  | 0 => activateCmd v s
  | 1 => activateAllCmd v s
  | _ => fail s .invalidInput

def rowActivate : Row := { op := 0xC059, thru := 8, flash := true, lo := 1, hi := 1, rom := true }

/-- ACTIVATE from the master (R491): a module that cannot begin answers at once (log 41). -/
def activateMsg (src : Nat) (s : State) : State :=
  if s.fab.mstate != 2 || src != s.fab.master || s.fab.isMaster then s
  else if s.fw.state != 5 then s.reportMsg 8 17
  else if s.upSlices.any s.restarting then s.reportMsg 8 11
  else if s.activateGap != 0 then (s.fwNote s.activateGap 1).reportMsg 8 s.activateGap
  else s.beginHandover none 1

/-- ACTIVATED: the sequence goes on, or stops at a failure. -/
def activatedMsg (module result : Nat) (s : State) : State :=
  match s.fw.actAll with
  | none => s
  | some a =>
    if a.waiting.map (·.1) != some module then s
    else if result != 0 then (s.setFw { s.fw with actAll := none }).bgDone a.via 0xC059 (resultRet result) []
    else s.activateNext { a with waiting := none }

/-- ACTIVATE_TIMEOUT: 10 s without an answer. -/
def activateTimeout (s : State) : State :=
  match s.fw.actAll with
  | none => s
  | some a => match a.waiting with
    | none => s
    | some (_, t) =>
      let s := s.until (t + 10000 * ms)
      (s.setFw { s.fw with actAll := none }).bgDone a.via 0xC059 .invalidInput []

/-! ### Handover of a unit (R487, R488) -/

/-- The unit now named is due: not yet switched, or to be switched back. -/
def Handover.due (h : Handover) : Bool := h.back == h.doneUnits.contains h.unit

/-- HANDOVER_PAUSE: commands are held. A PM8 waits for eight exports; a single slice exports and switches. -/
def handoverPause (s : State) : State :=
  match s.fw.handover with
  | none => s
  | some h =>
    if h.phase != 0 || !h.due || s.foreground || s.upSlices.any s.restarting then s
    else s.setFw { s.fw with handover := some { h with phase := if s.cfg.slices = 8 then 1 else 3, pauseAt := s.tbc } }

/-- HANDOVER_BARRIER: all eight cores have exported and switch. -/
def handoverBarrier (s : State) : State :=
  match s.fw.handover with
  | none => s
  | some h => if h.phase != 1 then s else s.setFw { s.fw with handover := some { h with phase := 3 } }

/-- Levels of the slices of a unit. -/
def setLevels (l : List Nat) (ns : List Nat) (level : Nat) : List Nat :=
  l.zipIdx.map fun x => if ns.contains x.2 then level else x.1

/-- HANDOVER_IMPORT_DONE: the unit runs the other firmware, and held commands resume. -/
def importDone (accepted : Bool) (s : State) : State :=
  match s.fw.handover with
  | none => s
  | some h =>
    if h.phase != 3 then s
    else if !accepted then s.handoverFails 12
    else
      let level := if h.back then s.fw.running.level else s.fw.main.level
      let h' : Handover := { h with phase := 0, resumeAt := s.tbc,
                                    doneUnits := if h.back then h.doneUnits.erase h.unit else h.unit :: h.doneUnits }
      let s := (s.setFw { s.fw with levels := setLevels s.fw.levels (unitSlices s.cfg h.unit) level }).pauseEnds h'
      if h.back && h'.doneUnits.isEmpty then s.handoverEnds h' else s

/-- HANDOVER_TIMEOUT: 90 ms after the pause began. -/
def handoverTimeout (s : State) : State :=
  match s.fw.handover with
  | none => s
  | some h => if h.phase = 0 then s else (s.until (h.pauseAt + 90 * ms)).handoverFails 11

/-- BARRIER_ABORT: an export is missing 40 ms after the pause began. -/
def barrierAbort (s : State) : State :=
  match s.fw.handover with
  | none => s
  | some h => if h.phase != 1 then s else (s.until (h.pauseAt + 40 * ms)).handoverFails 13

/-- HANDOVER_NEXT_UNIT: after 50 ms of service, the next slice down, or the last one switched when handing back. -/
def nextUnit (s : State) : State :=
  match s.fw.handover with
  | none => s
  | some h =>
    if h.phase != 0 || s.cfg.slices = 8 && !h.back || !h.back && h.due then s
    else
      let next := if h.back then h.doneUnits.head?
        else ((s.upSlices.filter fun n => !h.doneUnits.contains n).reverse).head?
      match next with
      | none => s
      | some n => (s.until (h.resumeAt + 50 * ms)).setFw { s.fw with handover := some { h with unit := n } }

/-- Every unit has switched. -/
def State.allSwitched (s : State) (h : Handover) : Bool :=
  !h.back && h.phase == 0 && (if s.cfg.slices = 8 then h.doneUnits.contains h.unit else s.upSlices.all h.doneUnits.contains)

/-- HANDOVER_COMPLETE (R490): the settings convert, the record is written, and the image is PENDING. -/
def handoverComplete (s : State) : State :=
  match s.fw.handover with
  | none => s
  | some h =>
    if !s.allSwitched h then s
    else if s.flashGate != 0 then s.deferFlash 2
    else
      let new := s.fw.main.setFmt
      let onA := s.fw.journal.fmtA = s.fw.runFmt
      let s := s.journalTo fun j => { j with active := 0, mainState := 3, boots := 0,
                                             fmtA := if new != s.fw.runFmt && !onA then new else j.fmtA,
                                             fmtB := if new != s.fw.runFmt && onA then new else j.fmtB }
      let s := s.setFw { s.fw with runFmt := new, running := s.fw.main, base := 7, handover := none,
                                   deadline := some (s.tbc + s.fw.confirmMin * 60000 * ms) }
      (s.fwTo 7 0 s.fw.main.version (scope := h.scope)).activationEnds h 0

/-! ### Confirmation (R493, R494) -/

def confirmCmd (s : State) : Reply :=
  let v := s.fw.running.version
  if s.fw.state = 7 && s.fw.deadline.any (s.tbc < ·) then
    let s := s.journalTo fun j => { j with mainState := 4, boots := 0, fmtA := s.fw.runFmt, fmtB := s.fw.runFmt }
    ok ((s.setFw { s.fw with base := 0, deadline := none }).fwTo 0 0 v)
  else if s.fw.state = 8 then
    let s := s.journalTo fun j => { j with mainState := if j.mainState = 6 then 0 else j.mainState }
    ok ((s.setFw { s.fw with base := 0 }).fwTo 0 0 v)
  else fail s .invalidInput

def rowConfirm : Row := { op := 0xC05A, thru := 8, flash := true }

/-- CONFIRM_EXPIRED: once the write may go to flash. -/
def confirmExpired (s : State) : State :=
  match s.fw.deadline with
  | none => s
  | some t =>
    if s.fw.base != 7 then s
    else
      let s := s.until t
      match s.flashGate with
      | 0 => ((s.journalTo fun j => { j with mainState := 5 }).setFw
          { (s.journalTo fun j => { j with mainState := 5 }).fw with deadline := none }).fwNote 14 0
      | 1 => s.deferFlash 2
      | _ => (s.until (s.tbc + 1000 * ms)).prewriteRefused

/-! ### FW_STATUS (13 R448) -/

/-- Seconds to the confirm deadline, rounded up (log 42). -/
def State.confirmLeft (s : State) : Nat :=
  match s.fw.deadline with
  | none => 0
  | some t => (t - s.tbc + 999999999) / 1000000000

def fwStatusCmd (s : State) : Reply :=
  let f := s.fw
  ok s (flds [(1, f.state), (1, b2n f.main.ok), (1, b2n f.fallback.ok), (1, b2n s.rst.recovery), (4, s.confirmLeft)] ++
    slice f.main.version 0 16 ++ slice f.fallback.version 0 16 ++ slice f.offered 0 16 ++
    (List.range 8).flatMap (fun n => le 1 (if n < s.cfg.slices then f.levels.getD n 0 else 0)) ++
    le 4 ((f.part.map (·.2.length)).getD 0))

def rowFwStatus : Row := { op := 0xC05B, thru := 5, rom := true }

def execFwActivate (via : Iface) (inp : Bytes) (s : State) : Host.Outcome State Fault Refusal :=
  .next (mbxCall rowActivate (.fwActivate via inp) via inp.length s (fwActivateCmd via inp))
def execFwActivateConstellation (via : Iface) (inp : Bytes) (s : State) : Host.Outcome State Fault Refusal :=
  .next (mbxCall rowActivate (.fwActivateConstellation via inp) via inp.length s (fwActivateCmd via inp))
def execActivate (src : Nat) (s : State) : Host.Outcome State Fault Refusal := .next (activateMsg src s)
/-- FW_STATE of the answer tells the master nothing that it acts on. -/
def execActivated (module result fwState : Nat) (s : State) : Host.Outcome State Fault Refusal :=
  let _ := fwState
  .next (activatedMsg module result s)
def execActivateTimeout (s : State) : Host.Outcome State Fault Refusal := .next (activateTimeout s)
def execHandoverPause (s : State) : Host.Outcome State Fault Refusal := .next (handoverPause s)
def execHandoverBarrier (s : State) : Host.Outcome State Fault Refusal := .next (handoverBarrier s)
def execHandoverImportDone (accepted : Bool) (s : State) : Host.Outcome State Fault Refusal := .next (importDone accepted s)
def execHandoverTimeout (s : State) : Host.Outcome State Fault Refusal := .next (handoverTimeout s)
def execBarrierAbort (s : State) : Host.Outcome State Fault Refusal := .next (barrierAbort s)
def execHandoverNextUnit (s : State) : Host.Outcome State Fault Refusal := .next (nextUnit s)
def execHandoverComplete (s : State) : Host.Outcome State Fault Refusal := .next (handoverComplete s)
def execFwConfirm (via : Iface) (inp : Bytes) (s : State) : Host.Outcome State Fault Refusal :=
  .next (mbxCall rowConfirm (.fwConfirm via inp) via inp.length s confirmCmd)
def execConfirmExpired (s : State) : Host.Outcome State Fault Refusal := .next (confirmExpired s)
def execFwStatus (via : Iface) (inp : Bytes) (s : State) : Host.Outcome State Fault Refusal :=
  .next (mbxCall rowFwStatus (.fwStatus via inp) via inp.length s fwStatusCmd)

end Sys2Proof.Machine
end

