-- ==== Sys2Proof/Machine/Attest.lean ====
section
/-! DEFINITION. Identity, attestation reports and SPDM (14 R471, R472, R500-R502, 13 R449). -/
namespace Sys2Proof.Machine
open Sys2Proof

/-- ORDER_CODE of the part (00 R4). -/
def orderCode (c : Cfg) : Bytes :=
  ascii 24 (if c.slices = 2 then (if c.half then "PM2-288-0.75T-A0" else "PM2-288-1.5T-A0")
    else if c.slices = 4 then (if c.half then "PM4-576-1.5T-A0" else "PM4-576-3T-A0")
    else if c.half then "PM8-1152-3T-A0" else "PM8-1152-6T-A0")

/-- The slice whose wrapped copy was used: the first that came up, 0xF where none unwraps (R471). -/
def State.unwrapSlice (s : State) : Nat := if s.fw.identityLost then 0xF else s.rst.inService.headD 0xF

/-- Report bytes 320 to 391 (R500). -/
def State.reportFacts (s : State) : Bytes :=
  let f := s.fw
  slice f.running.version 0 16 ++
  flds [(1, f.journal.active), (1, f.state), (2, f.running.svn), (2, f.svnFloor), (2, 0)] ++
  (List.range 8).flatMap (fun n => le 1 (if n < s.cfg.slices then f.levels.getD n 0 else 0)) ++
  flds [(1, b2n f.sealRec.isSome + 2 * b2n f.debugRec.isSome + 4 * b2n s.mbx.jumperSample + 8 * b2n s.presOpen +
      16 * b2n (s.mbx.debugOpen != 0)), (1, f.rotations), (1, s.unwrapSlice), (1, 2 + f.rotations), (4, 0),
    (8, f.sealRec.getD 0), (8, f.debugRec.getD 0), (8, s.tbc), (8, s.clockTime)]

def State.otherDigest (s : State) : Bytes :=
  let o := if s.fw.journal.active = 0 then s.fw.fallback else s.fw.main
  if o.ok then slice o.digest 0 48 else List.replicate 48 0

def State.configDigest (s : State) : Bytes := slice (((bestConf s.fw.configs).map (·.digest)).getD []) 0 48

/-- Key material by which the identity pair in use signs. -/
def State.signer (s : State) : Bytes := Config.keyRecord (2 + s.fw.keyGen)

/-- A report, its root key record and its certificates (R500). -/
def State.attestReport (s : State) (nonce : Bytes) : Bytes :=
  let body := slice (flds [(4, 0x52505254), (2, 1), (1, 4), (1, 0)] ++ slice nonce 0 32 ++ orderCode s.cfg ++ slice s.cfg.serial 0 16 ++
    slice (Config.sha384 (Config.dualCert (1 + s.fw.rotations))) 0 48 ++ slice s.fw.loaderDigest 0 48 ++
    slice s.fw.running.digest 0 48 ++ s.otherDigest ++ s.configDigest ++ s.reportFacts) 0 512
  let d := Config.sha384 body
  let key := s.signer
  body ++ slice (keyId key) 0 8 ++ List.replicate 8 0 ++ slice (Config.signRsa key d) 0 384 ++ slice (Config.signSlh key d) 0 16224 ++
    List.replicate 16 0 ++ slice (Config.keyRecord 0) 0 512 ++
    (List.range (2 + s.fw.rotations)).flatMap fun k => slice (Config.dualCert k) 0 17168

/-- ATTEST_DUAL (13 R449). -/
def attestCmd (v : Iface) (inp : Bytes) (s : State) : Reply :=
  let nonce := slice inp 0 32
  let off := fld inp 32 4
  let answer (s : State) (r : Bytes) : Reply :=
    ok s (flds [(4, r.length), (4, off)] ++ (r.drop off).take (ifaceLimit v - 8))
  if s.fw.identityLost then fail s .internalError
  else if off = 0 then
    let r := s.attestReport nonce
    answer (s.modIface v fun i => { i with report := some (nonce, r) }) r
  else match (s.iface v).report with
    | some (n, r) => if n = nonce then answer s r else fail s .invalidInput
    | none => fail s .invalidInput

def rowAttest : Row := { op := 0xC061, thru := 7, lo := 36, hi := 36 }

/-- IDENTITY_ROTATE (R472): a new pair, certified by the current one; the old wrapped keys read zero. -/
def rotateCmd (v : Iface) (s : State) : Reply :=
  if 15 ≤ s.fw.rotations then fail s .invalidInput
  else if s.fw.identityLost then fail s .internalError
  else { started s with after := fun s =>
    (s.setFw { s.fw with rotations := s.fw.rotations + 1, keyGen := s.fw.keyGen + 1 }).bgDone v 0xC062 .success [] }

def rowRotate : Row := { op := 0xC062, thru := 5, pres := true, flash := true }

/-! ### SPDM (R502) -/

/-- Measurement of an index. -/
def State.measurement (s : State) (k : Nat) : Bytes :=
  match k with
  | 1 => slice s.fw.loaderDigest 0 48
  | 2 => slice s.fw.running.digest 0 48
  | 3 => s.otherDigest
  | 4 => s.configDigest
  | _ => s.reportFacts

/-- The answer to a request: response code of SPDM 1.3 and its content (log 12); what is not supported answers ERROR. -/
def State.spdmAnswer (s : State) (r : SpdmReq) : Nat × Bytes :=
  let chain := Config.certChain s.fw.rotations
  match r with
  | .getVersion => (0x04, Config.cxlPayload "SPDM_VERSION" [0x13])
  | .getCapabilities => (0x61, Config.cxlPayload "SPDM_CAPABILITIES" [])
  | .negotiateAlgorithms => (0x63, Config.cxlPayload "SPDM_ALGORITHMS" [3072, 384])
  | .getDigests => (0x01, Config.sha384 chain)
  | .getCertificate slot off => if slot = 0 && off ≤ chain.length then (0x02, chain.drop off) else (0x7F, [])
  | .challenge nonce => if s.fw.identityLost then (0x7F, []) else (0x03, Config.sha384 chain ++ nonce ++ Config.signRsa s.signer (Config.sha384 (Config.sha384 chain ++ nonce)))
  | .getMeasurements k =>
    if k = 0 then (0x60, [5])
    else if k = 0xFF then (0x60, (List.range 5).flatMap fun i => s.measurement (i + 1))
    else if k ≤ 5 then (0x60, s.measurement k) else (0x7F, [])
  | .other _ => (0x7F, [])

/-- SPDM_REQUEST: over DOE of PF0, by configuration requests. -/
def spdmRequest (l : Nat) (r : SpdmReq) (s : State) : State :=
  s.config l fun s =>
    if s.rst.recovery then s
    else
      let a := s.spdmAnswer r
      s.send l (.spdm l a.1 a.2)

def execAttestDual (via : Iface) (inp : Bytes) (s : State) : Host.Outcome State Fault Refusal :=
  .next (mbxCall rowAttest (.attestDual via inp) via inp.length s (attestCmd via inp))
def execIdentityRotate (via : Iface) (inp : Bytes) (s : State) : Host.Outcome State Fault Refusal :=
  .next (mbxCall rowRotate (.identityRotate via inp) via inp.length s (rotateCmd via))
def execSpdmRequest (link : Nat) (req : SpdmReq) (s : State) : Host.Outcome State Fault Refusal := .next (spdmRequest link req s)

end Sys2Proof.Machine
end

