-- ==== Sys2Proof/Machine/SelfTest.lean ====
section
/-! DEFINITION. Built-in self-test: BIST_RUN, the ends of its suites with what a failed unit brings, BIST_RESULT (18). -/
namespace Sys2Proof.Machine
open Sys2Proof

/-! ### BIST_RUN (13 R446, R575-R577) -/

/-- A run may not start a suite on a slice yet (R575). -/
def State.bistBlocked (s : State) (suites n : Nat) : Bool :=
  let rebuilding (k : Nat) : Bool := (s.eccReg k).rebuilds.any (·.running)
  ((bit suites 0 || bit suites 1) &&
    (!(s.hosted n).isEmpty || (s.sl n).state != 1 ||
      s.eng.cursors.any fun c => s.eng.models.any fun m => m.2.tenant == c.2.tenant && m.2.tiles.any fun t => t.slice == n)) ||
  (bit suites 2 && s.rst.inService.zipIdx.any fun x =>
    x.1 == n && s.pool.extents.any fun e => e.2.policy.sharing == 1 && s.pagesAt x.2 e.1 e.2.len != 0) ||
  (bit suites 4 && ((s.sl n).edgesUp != edgeMask s.cfg (List.range 8) n || (List.range 8).any rebuilding)) ||
  (bit suites 6 && rebuilding n) ||
  (bit suites 7 && s.holdsContent)

def bistRunCmd (v : Iface) (inp : Bytes) (s : State) : Reply :=
  let suites := fld inp 0 2
  let mask := fld inp 2 1
  let r : BistRun := { num := s.bst.nextRun, suites := suites, mask := mask, stopOnFail := bit (fld inp 3 1) 0, via := v }
  if suites = 0 || 256 ≤ suites || mask = 0 || !r.members.all s.up then fail s .invalidInput
  else if r.members.any (s.bistBlocked suites) then fail s .busy
  else
    let runs := s.bst.runs ++ [r]
    { started (s.setBst { s.bst with runs := runs.drop (runs.length - 8), nextRun := (r.num + 1) % 65536 }) with
      after := fun s => s.bistAdvance r.num }

def rowBistRun : Row := { op := 0xC050, thru := 5, lo := 4, hi := 4 }

/-! ### What a failed unit brings (R580) -/

/-- A unit is marked failed until the next module reset: 0 a cluster, 1 a T0 bank, 2 a codec unit. -/
def State.markFailed (s : State) (n kind unit : Nat) : State :=
  let b := tabGet (0, 0, 0, false) s.bst.slices n
  let b' := if kind = 0 then (setBit b.1 unit true, b.2.1, b.2.2.1, b.2.2.2)
    else if kind = 1 then (b.1, setBit b.2.1 unit true, b.2.2.1, b.2.2.2)
    else (b.1, b.2.1, setBit b.2.2.1 unit true, b.2.2.2)
  s.setBst { s.bst with slices := tabSet s.bst.slices n b' }

/-- A cluster leaves service. -/
def State.dropCluster (s : State) (n c : Nat) : State :=
  (s.markFailed n 0 c).modSl n fun r => { r with clusters := setBit r.clusters c false }

/-- A T0 bank leaves service: assignable T0 falls (09 R290). -/
def State.dropBank (s : State) (n k : Nat) : State :=
  ((s.markFailed n 1 k).modSl n fun r => { r with banks := setBit r.banks k false }).fitT0 n 2

/-- A codec unit fails: an Eyepiece takes its cluster along; with both Prism decoders or both Condensers the slice is lost.
The spec names no cause for that loss, so it is free. -/
def State.dropCodec (s : State) (n u : Nat) : State :=
  let s := s.markFailed n 2 u
  if u < 8 then s.dropCluster n u
  else
    let m := (tabGet (0, 0, 0, false) s.bst.slices n).2.2.1
    if (bit m 8 && bit m 9) || (bit m 10 && bit m 11) then sliceLost n (1 + s.draw.1 % 8) s.draw.2 else s

/-- A UCIe lane is repaired while a repair lane remains; an edge beyond repair stays down. -/
def State.dropLane (s : State) (n e : Nat) (whole : Bool) : State :=
  if whole || (s.sl n).spareLanes = 0 then edgeDown n e s else laneRepair n s

/-- A port stays DISABLED: units 0 to 3 are the host ports, 4 to 9 the peer ports, 10 the tray port. -/
def State.dropPort (s : State) (u : Nat) : State :=
  if u < 4 then [2 * u, 2 * u + 1].foldl (fun s l => s.modPort l fun p => { p with link := 0, failed := true }) s
  else if u < 10 then s.modPeer (u - 4) fun p => { p with link := 0, failed := true }
  else s.setFab { s.fab with tpLink := 0 }

/-- A controller of self-test: units 0 to 95 are T1, from 96 on T2. -/
def bistCtl (n u : Nat) : Ctl := if u < 96 then { slice := n, tier := 1, unit := u } else { slice := n, tier := 2, unit := u - 96 }

/-- A failing location: the unit of 256 B, which the outcome does not name, enters the retire list (R580, 11 R367, R368). A
spare is a spare no longer. -/
def State.dropDram (s : State) (n u : Nat) : State :=
  let c := bistCtl n u
  if s.chanState c == 5 then s.modChan c fun x => { x with override := some 4 }
  else
    let units := max 1 (maSpace s.cfg n c.tier / 256)
    let ma := s.draw.1 % units
    let s := s.draw.2
    if (s.eccReg n).retire.contains (c.tier, ma) then s
    else
      let s := s.modEccReg n fun e =>
        { e with retiredUnits := e.retiredUnits + 1 }
      let (trigger, s) := s.draw
      let (loc, s) := s.draw
      let s := s.recordLim 1 0x000C n ms fun held =>
        flds [(1, n), (1, c.tier), (1, 0), (1, trigger), (2, 1), (2, held), (8, ma * 256), (8, 2 ^ 64 - 1), (8, loc), (8, s.tbc)]
      s.addRetired n c.tier ma

/-- What one failed unit of a suite brings. -/
def State.bistOutcome (s : State) (n k : Nat) (f : BistFail) : State :=
  match k with
  | 0 => if f.unit < 8 then s.dropCluster n f.unit else s
  | 1 => if f.unit < 16 then s.dropBank n f.unit else s
  | 2 =>
    if f.unit < 16 then s.setBst { s.bst with loupeWays := tabMod 0 s.bst.loupeWays n fun m => setBit m f.unit true }
    else s.modDirReg n fun d => { d with excludedRows := (f.detail :: d.excludedRows).eraseDups }
  | 3 => if f.unit < 12 then s.dropCodec n f.unit else s
  | 4 => if f.unit < 4 then s.dropLane n f.unit (f.cause == 6) else s
  | 5 => if f.unit < 11 then s.dropPort f.unit else s
  | 6 => if s.chanState (bistCtl n f.unit) == 5 then s.modChan (bistCtl n f.unit) fun x => { x with override := some 4 } else s
  | _ => s.dropDram n f.unit

/-! ### The end of a suite (R577-R579, R582) -/

/-- The unit counts as failed: not on an interruption and not for want of an expected value. -/
def failCounts (f : BistFail) : Bool := f.cause == 1 || f.cause == 2 || f.cause == 3 || f.cause == 6

/-- The code of FIRST_FAIL (R578). -/
def firstFail (k : Nat) (f : BistFail) : Nat :=
  k % 16 + (f.cause % 16) * 16 + (f.unit % 256) * 256 + (f.detail % 65536) * 65536

/-- The cause with which failed units have the engine side reset once the run ends on the slice (R512, R580). -/
def bistFatal (k : Nat) (bad : List BistFail) : Nat :=
  if bad.any fun f => k == 0 || (k == 3 && f.unit < 8) then 3 else if k == 1 && !bad.isEmpty then 4 else 0

/-- The outcome of a slice once suite `k` has ended with `fails`. -/
def BistRun.after (r : BistRun) (x : BistRes) (k : Nat) (fails : List BistFail) (spare : Nat → Bool) : BistRes :=
  let bad := fails.filter failCounts
  let also := k == 7 && bit r.suites 6
  let badFree := also && bad.any fun f => spare f.unit
  let passed := fails.isEmpty
  let freeOk := also && !badFree && fails.all failCounts
  let past := setBit x.ended k true
  { x with
    passed := setBit (if passed then setBit x.passed k true else x.passed) 6 (bit x.passed 6 || (k == 6 && passed) || freeOk)
    failed := setBit (if bad.isEmpty then x.failed else setBit x.failed k true) 6 (bit x.failed 6 || (k == 6 && !bad.isEmpty) || badFree)
    ended := if r.state = 3 || (r.stopOnFail && !bad.isEmpty) then past ||| r.todo else past
    first := match fails with
      | [] => x.first
      | f :: _ => if x.first = 0 then firstFail k f else x.first
    cur := 15
    fatal := if x.fatal = 0 || x.fatal = 4 then (if bistFatal k bad = 0 then x.fatal else bistFatal k bad) else x.fatal }

/-- BIST_SUITE_DONE: the suite under way on a slice ends with what it found. -/
def suiteDone (n : Nat) (fails : List BistFail) (s : State) : State :=
  match s.bistRun with
  | none => s
  | some r =>
    let x := r.of n
    let k := x.cur
    if k = 15 then s
    else
      let spare (u : Nat) : Bool := s.chanState (bistCtl n u) == 5
      let x' := r.after x k fails spare
      let s := s.putRun { r with res := tabSet r.res n x' }
      -- what the suite leaves behind
      let s := if k = 1 then s.setEng { s.eng with t0 := s.eng.t0.filter fun c => c.slice != n } else s
      let s := if k = 4 then s.modSl n fun q => { q with reroutes := q.reroutes + (if s.cfg.slices = 8 then 4 else 2) } else s
      let s := if fails.any fun f => f.cause == 5 then s.setBst { s.bst with noExpect := true } else s
      let s := (fails.filter failCounts).foldl (fun s f => s.bistOutcome n k f) s
      -- the run ends on the slice
      let s := match s.bst.runs.find? fun y => y.num == r.num with
        | some y => if y.sliceDone n && (y.of n).fatal != 0 then sliceReset n (y.of n).fatal s else s
        | none => s
      s.bistAdvance r.num

/-- The longest time of a suite in ms (R583). -/
def suiteMaxMs (c : Cfg) (k : Nat) : Nat :=
  match k with
  | 0 => 2500
  | 1 => 10
  | 2 => 20
  | 3 => 5
  | 4 => if c.slices = 8 then 4800 else 2400
  | 5 => 200
  | 6 => if c.slices = 8 || (c.slices = 4 && !c.half) then 53400 else 1812
  | _ => 26880

/-- BIST_SUITE_TIMEOUT: twice the longest time has passed (R578). -/
def suiteTimeout (n unit : Nat) (s : State) : State :=
  match s.bistRun with
  | none => s
  | some r =>
    if (r.of n).cur = 15 then s
    else suiteDone n [{ cause := 6, unit := unit, detail := 0 }] (s.until ((r.of n).began + 2 * suiteMaxMs s.cfg (r.of n).cur * ms))

/-! ### BIST_RESULT (R446) -/

/-- Share of a run done, by suites over. -/
def BistRun.percent (r : BistRun) : Nat :=
  let count (m : Nat) : Nat := ((List.range 8).filter (bit m)).length
  let total := r.members.length * count r.todo
  let past := r.members.foldl (fun t n => t + count ((r.of n).ended &&& r.todo)) 0
  if total = 0 then 100 else 100 * past / total

def bistResultCmd (inp : Bytes) (s : State) : Reply :=
  match s.bst.runs.find? fun r => r.num == fld inp 0 2 with
  | none => fail s .invalidInput
  | some r => ok s (flds [(1, r.state), (1, r.percent), (2, r.suites), (4, 0)] ++
      (List.range 8).flatMap fun n => flds [(2, (r.of n).passed), (2, (r.of n).failed), (4, (r.of n).first)])

def rowBistResult : Row := { op := 0xC051, thru := 5, lo := 2, hi := 2 }

def execBistRun (via : Iface) (inp : Bytes) (s : State) : Host.Outcome State Fault Refusal :=
  .next (mbxCall rowBistRun (.bistRun via inp) via inp.length s (bistRunCmd via inp))
def execBistSuiteDone (slice : Nat) (fails : List BistFail) (s : State) : Host.Outcome State Fault Refusal :=
  .next (suiteDone slice fails s).dirSettle
def execBistSuiteTimeout (slice unit : Nat) (s : State) : Host.Outcome State Fault Refusal := .next (suiteTimeout slice unit s).dirSettle
def execBistResult (via : Iface) (inp : Bytes) (s : State) : Host.Outcome State Fault Refusal :=
  .next (mbxCall rowBistResult (.bistResult via inp) via inp.length s (bistResultCmd inp))

end Sys2Proof.Machine
end

