-- ==== Sys2Proof/Machine/Boot.lean ====
section
/-! DEFINITION. Module resets: what they clear, the choice of the boot slot, recovery mode, and the start of the module up to
ENGINE_READY (15 R504-R514, 14 R479, R498, 16 R532, 18 R581). -/
namespace Sys2Proof.Machine
open Sys2Proof

/-! ### What a module reset clears (R507, R512, R514) -/

/-- The retire lists as flash holds them. -/
def State.savedLists (s : State) : Tab EccSlice :=
  (s.ecc.regs.filter fun e => !e.2.saved.isEmpty).map fun e => (e.1, { retire := e.2.saved, saved := e.2.saved })

/-- Ports after a module reset: the level of PERST stays; FROZEN and its cause clear only under R407, while their slice keeps
its power. -/
def State.clearedPorts (s : State) (powered : Bool) : Tab Port :=
  (s.ports.filter fun p => p.2.perst || (powered && p.2.frozen)).map fun p =>
    (p.1, { perst := p.2.perst, frozen := powered && p.2.frozen, freezeCause := if powered then p.2.freezeCause else 0 })

/-- Mailboxes and presence: what 48 V keeps stays. A button that is down is held afresh; the button window ends. -/
def State.clearedMbx (s : State) (powered : Bool) : Mbx :=
  { timestamp := if powered then s.mbx.timestamp else none
    buttonDown := s.mbx.buttonDown.map fun _ => 0
    holdDone := s.mbx.holdDone
    jumper := s.mbx.jumper
    jumperSample := s.mbx.jumperSample
    sealOpen := s.mbx.sealOpen
    history := s.mbx.history
    authorised := s.mbx.authorised }

/-- Firmware state that a reset leaves: the flash, and the state that the last boot left. -/
def State.clearedFw (s : State) : Fw :=
  let f := s.fw
  { state := f.state, prior := f.prior, base := f.base, journal := f.journal, main := f.main, fallback := f.fallback,
    loaderOk := f.loaderOk, configs := f.configs, loaderDigest := f.loaderDigest, rotations := f.rotations, keyGen := f.keyGen,
    sealRec := f.sealRec, sealRetry := f.sealRetry.map fun _ => 0, debugRec := f.debugRec, identityLost := f.identityLost }

/-- The MODULE domain cleared: `powered` where 48 V stays present. The time base goes on until step 5. -/
def State.cleared (s : State) (powered : Bool) : State :=
  let buttonRan := s.buttonOpen
  let t : State :=
    { pending := s.pending, out := s.out, freeDraws := s.freeDraws, cfg := s.cfg, tbc := s.tbc, ports := s.clearedPorts powered,
      mbx := s.clearedMbx powered, ecc := { regs := s.savedLists }, fw := s.clearedFw,
      rst := { moduleResets := s.rst.moduleResets }
      pwr := { state := s.pwr.state, inputMv := s.pwr.inputMv, bankMv := s.pwr.bankMv } }
  if buttonRan then t.presClosed 1 else t

/-- The POWER domain beyond the MODULE domain (R512). -/
def State.clearedPower (s : State) : State :=
  s.setMbx { s.mbx with history := [], authorised := 0, timestamp := none, jumper := false, jumperSample := false }

/-- Steps 2 to 5 have begun: the time base starts at 0, and the time of Set Timestamp, where it stays, has gone on by the
span since the reset, which nothing states. -/
def State.timeStarts (s : State) : State :=
  let d := s.draw
  let stamp : Option (Nat × Nat) := s.mbx.timestamp.map fun _ => (s.clockTime + d.1, 0)
  { d.2 with tbc := 0, mbx := { d.2.mbx with timestamp := stamp } }

/-! ### The boot slot (14 R468, R474, R479) -/

/-- A slot verifies: 0 main, 1 fall-back. -/
def State.slotOk (s : State) (slot : Nat) : Bool :=
  let i := if slot = 0 then s.fw.main else s.fw.fallback
  i.ok && s.fw.svnFloor ≤ i.svn && i.digest == (if slot = 0 then s.fw.journal.mainDigest else s.fw.journal.fbDigest)

/-- The choice of R479: the record, the slot and the result; none where neither slot verifies. -/
def State.bootSlot (s : State) : Option (Journal × Nat) :=
  let r := s.fw.journal
  let spent := r.active = 0 && ((r.mainState = 3 && r.boots = 3) || r.mainState = 5)
  let r1 : Journal := if spent then { r with mainState := 6 }
    else if r.active = 0 && r.mainState = 3 then { r with boots := r.boots + 1 } else r
  let slot := if spent then 1 else r.active
  let result := if spent then 14 else 0
  if s.slotOk slot then some ({ r1 with active := slot }, result)
  else if s.slotOk (1 - slot) then
    some (if slot = 0 then { r1 with active := 1 } else { r1 with active := 0, mainState := 3, boots := 0 }, 15)
  else none

/-- The firmware state of a boot (R494, R495). -/
def bootState (j : Journal) : Nat :=
  if j.active = 0 then (if j.mainState = 3 then 7 else 0)
  else if j.mainState = 2 then 5 else if j.mainState ≤ 1 then 0 else 8

/-! ### Recovery mode (14 R498) -/

/-- The ROM serves PF0 of HP0 and MCTP; the sequence has stopped after step 4. -/
def State.enterRecovery (s : State) (cause : Nat) : State :=
  let s := s.setRst { s.rst with cause := cause, phase := 4, recovery := true }
  let s := if (s.port 0).perst then s else s.modPort 0 fun p => { p with link := 1 }
  s.setFw { s.fw with state := 9, prior := s.fw.state }

/-! ### The start (R504-R509) -/

/-- The in-service list, the slices and what their start-up checks leave (R506, R524; 18 R581). -/
def State.startSlices (s : State) (b : BootEnv) : State :=
  let fitted := List.range s.cfg.slices
  let ups := fitted.filter fun n => !bit b.failedSlices n
  let s := s.setRst { s.rst with inService := ups, packageMaster := ups.headD 0, degraded := ups.length != fitted.length }
  fitted.foldl (fun s n =>
    if bit b.failedSlices n then s.modSl n fun r => { r with state := 4 }
    else
      let fc := b.badClusters.getD n 0 % 256
      let fb := b.badBanks.getD n 0 % 65536
      let d := s.draw
      let s := d.2.modSl n fun r =>
        { r with state := 1, clusters := 0xFF - fc, banks := 0xFFFF - fb, edgesUp := edgeMask s.cfg ups n, spareLanes := d.1 % 256 }
      let s := s.setBst { s.bst with slices := tabSet s.bst.slices n (fc, fb, 0, fc = 0 && fb = 0) }
      s.modDrcReg n fun r => { r with lock := true }) s

/-- The training of a controller at start-up: a failing lane is repaired first, and a controller that still fails is replaced or
retired (10 R331, R332). -/
def State.startCtl (s : State) (c : Ctl) (runs : List LaneRun) : State :=
  let lanes := runs.map (trainLane c.tier)
  let s := s.modChan c fun x => { x with lanes := lanes }
  if lanes.all lanePass then s else ((s.retireFully c).1).trainingFailed c.slice

/-- Every fitted controller trains; one that the command does not list passes, with lane results that are free (`State.laneOf`). -/
def State.startDram (s : State) (b : BootEnv) : State :=
  (b.train.filter fun x => s.ctlFitted x.1).foldl (fun s x => s.startCtl x.1 x.2) s

/-- The slices' shares of the device reserve and its floor (06 R199). -/
def State.startReserve (s : State) : State :=
  let n := s.upSlices.length
  let share (bp : Nat) : Nat := (s.availT2 * bp + 10000 * n * 2 ^ 20 - 1) / (10000 * n * 2 ^ 20)
  let r := share s.cfg.reserveBp
  let f := share s.cfg.floorBp
  s.upSlices.foldl (fun s k => s.modMig k fun m => { m with reserveMib := r, floorMib := f }) s

/-- References, and the core reference among them (16 R532). -/
def State.startRefs (s : State) (b : BootEnv) : State :=
  let hp := b.hpRef % 2 ^ hostPorts s.cfg
  let tp := b.tpRef && hasTp s.cfg
  s.setClk { s.clk with hpRef := hp, tpRef := tp, ppRef := b.ppRef % 2 ^ peerPorts s.cfg, coreRef := (refSource hp tp true).getD 5 }

/-- Ports train where their slice is powered and their reference is there (R508; 08 R242, 12 R385). -/
def State.startPorts (s : State) : State :=
  let s := (links s.cfg).foldl (fun s l =>
    if !s.up (hostPortSlice s.cfg (l / 2)) || (s.port l).perst then s
    else if bit s.clk.hpRef (l / 2) then s.modPort l fun p => { p with link := 1 }
    else s.modPort l fun p => { p with link := 3, noRefclk := true }) s
  (List.range (peerPorts s.cfg)).foldl (fun s p =>
    if !s.up (peerPortSlice s.cfg p) then s
    else if bit s.clk.ppRef p then s.modPeer p fun x => { x with link := 1 }
    else s.modPeer p fun x => { x with link := 0, noRefclk := true }) s

/-- Trays behind TP0 are enumerated (08 R272, 12 R416); the rate and width that the tray port trains at are free. -/
def State.startTrays (s : State) (b : BootEnv) : State :=
  if !hasTp s.cfg || !s.up 1 then s
  else if !s.clk.tpRef then s.setFab { s.fab with tpLink := 3, tpNoRefclk := true }
  else if b.trays.isEmpty then s.setFab { s.fab with tpLink := 3 }
  else
    let ts := b.trays.take 16
    let d := s.draw
    d.2.setFab { d.2.fab with tpLink := 2, tpSpeed := 1 + d.1 % 6, tpWidth := 1 + d.1 / 6 % 3, tpTrays := ts.length,
                              trays := ts.zipIdx.map fun t =>
                                (t.2, { present := true, gib := t.1, base := (ts.take t.2).foldl (· + ·) 0 * 2 ^ 30 }) }

/-- The image that boots, its state, and the record of the boot (14 R479, R494-R496). -/
def State.startFirmware (s : State) (j : Journal) (result : Nat) (watchdog : Bool) : State :=
  let old := s.fw.state
  let img := if j.active = 0 then s.fw.main else s.fw.fallback
  let st := bootState j
  let j' : Journal := if j = s.fw.journal then j else { j with seq := s.fw.journal.seq + 1 }
  let s := s.setFw
    { s.fw with journal := j', running := img, runFmt := img.setFmt, levels := (List.range 8).map (fun n => if n < s.cfg.slices then img.level else 0)
                base := st, state := st, prior := old
                deadline := if st = 7 then some (s.fw.confirmMin * 60000 * ms) else none }
  if old = 9 then s.fwRecord 2 st 9 result 1 0 s.upMask 0xFF 0 0 img.version
  else if result != 0 || (watchdog && old != st) then s.fwRecord (resultLog result) st old result 1 0 s.upMask 0xFF 0 0 img.version
  else s

/-- Steps 5 to 9 with a slot chosen. -/
def State.startModule (s : State) (cause : Nat) (b : BootEnv) (j : Journal) (result : Nat) : State :=
  let s := s.setRst { s.rst with cause := cause, phase := 9, configReady := true, mbxReady := true, mediaReady := true,
                                 memoryActive := true, engineReady := true, readyMs := min b.bootMs 0xFFFFFFFF }
  let s := (((((s.startSlices b).startRefs b).startPorts).startTrays b).startDram b).startReserve
  s.startFirmware j result (cause == 4)

/-- A module reset may happen: from any state for the application of 48 V, from the hold state after a brown-out, else in a
module that runs (14 R499, 17 R562). -/
def State.resetMay (s : State) (cause : Nat) : Bool :=
  match cause with
  | 0 => true
  | 1 => s.pwr.state == 1
  | 2 => s.pwr.state == 2
  | 3 => s.pwr.state == 2 && s.fw.state == 9
  | 4 => s.pwr.state == 2 && 5 ≤ s.rst.phase
  | _ => false

/-- MODULE_RESET by its cause: 0 POWER_ON, 1 BROWNOUT, 2 RECOVERY_ENTER, 3 RECOVERY_EXIT, 4 WATCHDOG. The hold-up test of
step 2 is under way when it ends (17 R563). -/
def moduleReset (cause : Nat) (b : BootEnv) (s : State) : State :=
  if !s.resetMay cause then s
  else
    let s := if cause = 0 && s.pwr.state != 0 then s.clearedPower else s
    let count : BitVec 16 := if cause = 0 then 0 else s.rst.moduleResets + 1
    let s := (s.cleared (2 ≤ cause)).timeStarts
    let s := s.setRst { s.rst with moduleResets := count }
    let s := s.setPwr { s.pwr with state := 2, testing := true }
    let s := s.setFw { s.fw with loaderOk := b.loaderOk }
    match bestConf s.fw.configs with
    | none => s.enterRecovery cause
    | some c =>
      let s := { s with cfg := { c.cfg with slices := s.cfg.slices, half := s.cfg.half } }
      let s := s.setFw { s.fw with svnFloor := c.floor }
      if cause = 2 || !b.loaderOk then s.enterRecovery cause
      else match s.bootSlot with
        | none => s.enterRecovery cause
        | some (j, result) =>
          if (List.range s.cfg.slices).all (bit b.failedSlices) then s.enterRecovery cause else s.startModule cause b j result

/-- WATCHDOG_EXPIRY of a management core: the module for the package master, the engine side of the slice otherwise. -/
def watchdogExpiry (n : Nat) (b : BootEnv) (s : State) : State :=
  if !s.up n then s else if n = s.rst.packageMaster then moduleReset 4 b s else sliceReset n 1 s

/-- FW_RECOVERY_ENTER: the reset follows the response (13 R454). -/
def recoveryEnterCmd (inp : Bytes) (s : State) : Reply :=
  if fld inp 0 1 != 1 then fail s .invalidInput
  else
    let none_ : BootEnv := { failedSlices := 0, hpRef := 0, tpRef := false, ppRef := 0, trays := [], train := [], badClusters := [],
                             badBanks := [], loaderOk := s.fw.loaderOk, bootMs := 0 }
    { ret := .success, st := s, after := moduleReset 2 none_ }

def rowRecoveryEnter : Row := { op := 0xC05C, thru := 8, pres := true, lo := 1, hi := 1 }

def execModuleReset (cause : Nat) (boot : BootEnv) (s : State) : Host.Outcome State Fault Refusal := .next (moduleReset cause boot s)
def execWatchdogExpiry (slice : Nat) (boot : BootEnv) (s : State) : Host.Outcome State Fault Refusal := .next (watchdogExpiry slice boot s)
def execFwRecoveryEnter (via : Iface) (inp : Bytes) (s : State) : Host.Outcome State Fault Refusal :=
  .next (mbxCall rowRecoveryEnter (.fwRecoveryEnter via inp) via inp.length s (recoveryEnterCmd inp))

end Sys2Proof.Machine
end

