-- ==== Sys2Proof/Machine/Constell.lean ====
section
/-! DEFINITION. Constellation membership: HELLO, joins, epochs, heartbeats, the master (08 R254-R261, R275, 13 R445). -/
namespace Sys2Proof.Machine
open Sys2Proof

/-! ### Route tables (R252) -/

/-- Modules of a constellation that a module's ports lead to, with the ports. -/
def cables (cid : Nat) (nodes : List Nat) (m : Nat) : List (Nat × Nat) :=
  (List.range 6).filterMap fun p =>
    let n := Config.cabled cid m p
    if n != m && nodes.contains n then some (p, n) else none

/-- Levels of the spanning tree over the modules, breadth first from its root: entries found so far, rounds left. -/
def treeLevels (cid : Nat) (nodes : List Nat) : Nat → Nat → Tab Nat → Tab Nat
  | 0, _, t => t
  | fuel + 1, k, t =>
    let new := nodes.filter fun m => (tabFind t m).isNone && (cables cid nodes m).any fun c => tabFind t c.2 == some k
    treeLevels cid nodes fuel (k + 1) (new.foldl (fun t m => tabSet t m (k + 1)) t)

/-- A module stands above another: nearer the root, or at its level with a lower number. -/
def stands (lv : Tab Nat) (a b : Nat) : Bool :=
  tabGet 99 lv a < tabGet 99 lv b || (tabGet 99 lv a == tabGet 99 lv b && a < b)

/-- Hops to a module along ways that only go down: entries found so far, rounds left. -/
def downHops (cid : Nat) (nodes : List Nat) (lv : Tab Nat) : Nat → Nat → Tab Nat → Tab Nat
  | 0, _, t => t
  | fuel + 1, k, t =>
    let new := nodes.filter fun m => (tabFind t m).isNone && (cables cid nodes m).any fun c => stands lv m c.2 && tabFind t c.2 == some k
    downHops cid nodes lv fuel (k + 1) (new.foldl (fun t m => tabSet t m (k + 1)) t)

/-- Hops from each module to one: down where a way down exists, else up to the neighbour above with the fewest. No way back
up follows a way down, so no cycle of waits can form (log 24). -/
def hopsTable (cid : Nat) (nodes : List Nat) (lv down : Tab Nat) : Tab Nat :=
  let order := (List.range 10).flatMap fun k => nodes.filter fun m => tabGet 99 lv m == k
  order.foldl (fun t m => match tabFind down m with
    | some h => tabSet t m h
    | none =>
      let up := ((cables cid nodes m).filter fun c => stands lv c.2 m).filterMap fun c => tabFind t c.2
      match up.min? with
      | some h => tabSet t m (h + 1)
      | none => t) []

/-- The hops from a module to another, and the port of the first: the lowest of the shortest. -/
def routeTo (cid : Nat) (nodes : List Nat) (lv : Tab Nat) (m d : Nat) : Option (Nat × Nat) :=
  if !nodes.contains d || m = d then none
  else
    let down := downHops cid nodes lv 8 0 [(d, 0)]
    let hops := hopsTable cid nodes lv down
    match tabFind hops m with
    | none => none
    | some h =>
      let isDown := (tabFind down m).isSome
      let via := (cables cid nodes m).find? fun c =>
        if isDown then stands lv m c.2 && tabFind down c.2 == some (h - 1) else stands lv c.2 m && tabFind hops c.2 == some (h - 1)
      match via with
      | some c => if 8 < h then none else some (h, c.1)
      | none => none

/-- The modules that routes serve: those of the table but the LOST (R258), in rising order. -/
def routedModules (l : List Member) : List Nat := (List.range 256).filter fun n => l.any fun m => m.module == n && m.state != 3

/-- A module's route table, with the master at the root: 256 entries, 0xFF where there is no route. -/
def routeTable (cid root : Nat) (l : List Member) (m : Nat) : List Nat :=
  let nodes := routedModules l
  let lv := treeLevels cid nodes 8 0 [(root, 0)]
  (List.range 256).map fun d => ((routeTo cid nodes lv m d).map (·.2)).getD 0xFF

/-- Hops from the master to a module that is to join (R252). -/
def hopsTo (cid root : Nat) (l : List Member) (m : Nat) : Option Nat :=
  let nodes := routedModules l
  (routeTo cid nodes (treeLevels cid nodes 8 0 [(root, 0)]) root m).map (·.1)

/-! ### Tables and epochs -/

/-- Windows whose lender is not MEMBER any longer are LOST (R271). -/
def State.lostLenders (s : State) : State :=
  let put (w : Nat × PsWin) : Nat × PsWin := if w.2.valid && !s.isMember w.2.lender then (w.1, { w.2 with state := 2 }) else w
  (s.setFab { s.fab with pw := s.fab.pw.map put }).commitStep

/-- A table that the master changed: the epoch rises by 1, routes follow, acknowledgements begin anew, and the master's
management vector signals (R256, R275). -/
def State.setTable (s : State) (l : List Member) : State :=
  (s.setFab { s.fab with members := l, epoch := s.fab.epoch + 1, acks := [], routes := routeTable s.fab.constId s.fab.me l s.fab.me }).signalPf0 6

/-- MEMBERSHIP: the table without the modules that leave, and the route tables of all in it (R251, R257, log 12). -/
def State.tellTable (s : State) : State :=
  let l := s.fab.members.filter fun m => m.state != 2
  s.mgmt 0x24 0xFF [s.fab.epoch, l.length]
    ((l.flatMap fun m => flds [(1, m.module), (1, m.state), (2, m.level), (4, m.epoch)] ++ slice m.serial 0 16) ++
      l.flatMap fun m => (routeTable s.fab.constId s.fab.me s.fab.members m.module).map (BitVec.ofNat 8))

/-- A table that the master changed and told. -/
def State.newTable (s : State) (l : List Member) : State := ((s.setTable l).tellTable).lostLenders

/-- One entry's state changed. -/
def withState (l : List Member) (m st epoch : Nat) : List Member :=
  l.map fun x => if x.module = m then { x with state := st, epoch := epoch } else x

/-- Every MEMBER but the master has acknowledged the epoch. -/
def State.allAcked (s : State) : Bool := s.fab.members.all fun m => m.state != 1 || m.module == s.fab.me || s.fab.acks.contains m.module

/-- The port by which a module joins, by its serial. -/
def State.joinPort (s : State) (serial : Bytes) : Option Nat := (s.fab.joinPorts.find? fun j => j.1 == serial).map (·.2)

/-- JOIN_ACK goes out by the port that the JOIN_REQ came in on; there a module of the constellation now is (R256). -/
def State.ackBy (s : State) (p src module epoch : Nat) (routes serial : Bytes) : State :=
  let s := s.mgmtBy src [p] 0x23 module module [module, epoch] routes
  let s := s.setFab { s.fab with joinPorts := s.fab.joinPorts.filter fun j => j.1 != serial }
  if routes.isEmpty || (s.peer p).cid = s.fab.constId then s
  else s.modPeer p fun x => { x with neighbour := module, cid := s.fab.constId }

/-- Once every MEMBER has acknowledged, joiners receive JOIN_ACK and become MEMBER (R256 step 5). -/
def State.admitJoiners (s : State) : State :=
  let js := s.fab.members.filter fun m => m.state == 0
  if js.isEmpty || !s.allAcked then s
  else
    let e := s.fab.epoch + 1
    let l := s.fab.members.map fun m => if m.state = 0 then { m with state := 1, epoch := e } else m
    let s := s.setFab { s.fab with admitted := s.fab.admitted.filter fun a => !(js.any fun m => m.serial == a.1) }
    let s := s.setTable l
    let s := js.foldl (fun s m =>
      let routes := (routeTable s.fab.constId s.fab.me l m.module).map (BitVec.ofNat 8)
      match s.joinPort m.serial with
      | some p => s.ackBy p s.fab.me m.module e routes m.serial
      | none => s.mgmt 0x23 m.module [m.module, e] routes) s
    s.tellTable.lostLenders

/-! ### HELLO and joining (R256) -/

/-- HELLO: a neighbour of another constellation is not used. -/
def helloMsg (p cid module master epoch : Nat) (s : State) : State :=
  if (s.peer p).link != 2 then s
  else
    let use := s.fab.mstate != 2 || cid == s.fab.constId
    s.modPeer p fun x => { x with neighbour := if use then module else 0xFF, cid := cid, nmaster := master, nepoch := epoch }

/-- A join ends without membership. -/
def State.joinFails (s : State) (result : Nat) : State :=
  match s.fab.joinVia with
  | none => s
  | some (v, _) =>
    (s.setFab { s.fab with mstate := 0, joinVia := none, lastJoin := result }).bgDone v 0xC042 .internalError []

/-- JOIN_TIMEOUT: 500 ms without an answer. A module that wanted to leave stays a member (log 87). -/
def joinTimeout (s : State) : State :=
  match s.fab.joinVia with
  | none => s
  | some (v, t) =>
    if s.fab.mstate = 1 then (s.until (t + 500 * ms)).joinFails 7
    else if s.fab.mstate = 3 then
      let s := s.until (t + 500 * ms)
      (s.setFab { s.fab with mstate := 2, joinVia := none }).bgDone v 0xC042 .internalError []
    else s

/-- The nonce of a joiner's report: constellation ID, an epoch that the master has told, zeros (14 R501). -/
def State.nonceOk (s : State) (report : Bytes) : Bool :=
  slice report 8 8 == le 8 s.fab.constId && fld report 16 4 ≤ s.fab.epoch && slice report 20 20 == List.replicate 20 0

/-- The reason for which the master refuses a joiner (R256 step 3, R445), or the number that it takes. -/
def State.judge (s : State) (serial report : Bytes) (level : Nat) : Except Nat Nat :=
  match s.fab.admitted.find? fun a => a.1 == serial with
  | none => .error 2
  | some a =>
    let l := s.fw.running.level
    if !reportOk report || !s.nonceOk report then .error 3
    else if !(level == l || level == l + 1 || level + 1 == l) then .error 4
    else
      let free (m : Nat) : Bool := m < 256 && m != s.fab.me && !(s.fab.members.any fun x => x.module == m && x.state ≤ 1 && x.serial != serial)
      let m := if a.2 = 0xFF then (List.range 256).find? free else if free a.2 then some a.2 else none
      match m with
      | none => .error 5
      | some m =>
        let x : Member := { module := m, serial := serial, state := 0, level := level, epoch := s.fab.epoch }
        if (hopsTo s.fab.constId s.fab.me ((s.fab.members.filter fun y => y.module != m) ++ [x]) m).isNone then .error 6 else .ok m

/-- The port of a JOIN_REQ is kept for its answer. -/
def State.joinsBy (s : State) (serial : Bytes) (p : Nat) : State :=
  s.setFab { s.fab with joinPorts := (s.fab.joinPorts.filter fun j => j.1 != serial) ++ [(serial, p)] }

/-- A member's JOIN_REQ without a report asks to leave (R257, log 87): its entry is LEAVING, and its number free. -/
def State.askedToLeave (s : State) (serial : Bytes) : State :=
  match s.fab.members.find? fun m => m.serial == serial && m.state == 1 && m.module != s.fab.me with
  | none => s
  | some m => (s.newTable (withState s.fab.members m.module 2 (s.fab.epoch + 1))).admitJoiners

/-- JOIN_REQ: judged by the master, passed on by a member. A refusal is a JOIN_ACK for module 0xFF with the reason in the
epoch's place and no routes (log 24). -/
def joinReq (p : Nat) (serial report : Bytes) (level : Nat) (s : State) : State :=
  if s.fab.mstate != 2 then s
  else if !s.fab.isMaster then
    (if report.isEmpty then s else s.joinsBy serial p).mgmt 0x22 s.fab.master [level] (serial ++ report)
  else if report.isEmpty && s.fab.members.any (fun m => m.serial == serial && m.state == 1) then s.askedToLeave serial
  else match s.judge serial report level with
    | .error r => s.mgmtOn p 0x23 0xFF [0xFF, r]
    | .ok m =>
      let x : Member := { module := m, serial := serial, state := 0, level := level, epoch := s.fab.epoch + 1 }
      ((s.joinsBy serial p).newTable ((s.fab.members.filter fun y => y.module != m && y.serial != serial) ++ [x])).admitJoiners

/-- JOIN_ACK at a member goes back the way that the JOIN_REQ came: to the joiner of that number, or for a refusal to the
oldest that the table does not hold (R256, log 24). -/
def State.passAck (s : State) (src module epoch : Nat) (routes : List Nat) : State :=
  let named (ser : Bytes) : Bool := s.fab.members.any fun m => m.serial == ser && m.state ≤ 1 && (routes.isEmpty || m.module == module)
  match s.fab.joinPorts.find? fun j => named j.1 != routes.isEmpty with
  | none => s
  | some (ser, p) => s.ackBy p src module epoch (routes.map (BitVec.ofNat 8)) ser

/-- JOIN_ACK: the joiner becomes MEMBER (R256, R259); a member passes it on. -/
def joinAck (src module epoch : Nat) (routes : List Nat) (s : State) : State :=
  if s.fab.mstate = 2 then s.passAck src module epoch routes
  else match s.fab.joinVia with
  | none => s
  | some (v, _) =>
    if s.fab.mstate != 1 then s
    else if module = 0xFF && routes.isEmpty then s.joinFails (epoch % 256)
    else if epoch < s.fab.epoch then s
    else
      let me : Member := { module := module, serial := s.cfg.serial, state := 1, level := s.fw.running.level, epoch := epoch }
      let s := s.setFab { s.fab with
        mstate := 2, me := module, master := src, epoch := epoch, constId := s.fab.joinId, routes := routes, joinVia := none, lastJoin := 1,
        masterLost := false, beats := tabSet s.fab.beats src s.tbc
        members := (s.fab.members.filter fun x => x.module != module) ++ [me] }
      s.bgDone v 0xC042 .success []

/-! ### MEMBERSHIP (R256, R259, R261) -/

/-- The module is out of its constellation. -/
def State.outOf (s : State) : State :=
  s.setFab { s.fab with mstate := 0, me := 0xFF, master := 0xFF, isMaster := false, masterLost := false, members := [], routes := [],
                        constId := 0, admitted := [], acks := [], joinPorts := [] }

/-- A table of a higher epoch, or of the same epoch from the lower of two masters. -/
def State.newer (s : State) (src epoch : Nat) : Bool := s.fab.epoch < epoch || (s.fab.epoch == epoch && src ≤ s.fab.master)

/-- MEMBERSHIP. A table in which the module is not MEMBER ends its membership: it has left, or must join again (R257,
R258). -/
def membership (src epoch : Nat) (table : List Member) (routes : List Nat) (s : State) : State :=
  if (s.fab.mstate != 2 && s.fab.mstate != 3) || src = s.fab.me || !s.newer src epoch then s
  else
    let here := table.any fun m => m.module == s.fab.me && m.serial == s.cfg.serial && m.state == 1
    if here then
      let s := s.setFab { s.fab with epoch := epoch, members := table, routes := routes, master := src, isMaster := false, masterLost := false,
                                     beats := tabSet s.fab.beats src s.tbc }
      (s.mgmt 0x25 src [epoch]).lostLenders
    else match s.fab.joinVia with
      | none => s.outOf
      | some (v, _) => (s.outOf.setFab { s.outOf.fab with joinVia := none }).bgDone v 0xC042 .success []

/-- MEMBERSHIP_ACK. -/
def membershipAck (src epoch : Nat) (s : State) : State :=
  if !s.fab.isMaster || epoch != s.fab.epoch || s.fab.acks.contains src then s
  else (s.setFab { s.fab with acks := s.fab.acks ++ [src] }).admitJoiners

/-! ### Liveness (R251, R258, R260) -/

/-- HEARTBEAT. -/
def heartbeat (src : Nat) (s : State) : State :=
  if s.fab.mstate != 2 then s
  else if (s.fab.isMaster && s.fab.members.any fun m => m.module == src) || src = s.fab.master then
    s.setFab { s.fab with beats := tabSet s.fab.beats src s.tbc }
  else s

/-- HEARTBEAT_TIMER: every 10 ms the master broadcasts, and a member sends to the master. -/
def heartbeatTimer (s : State) : State :=
  if s.fab.mstate != 2 then s
  else
    let s := s.until (tabGet 0 s.fab.beats 256 + 10 * ms)
    (s.setFab { s.fab with beats := tabSet s.fab.beats 256 s.tbc }).mgmt 0x21 (if s.fab.isMaster then 0xFF else s.fab.master) []

/-! ### The master (R254, R261) -/

/-- A poll that every module has answered, or that lost it: the table is rebuilt, silent members are LOST, and a new epoch
is broadcast. -/
def State.pollStep (s : State) : State :=
  match s.fab.poll with
  | none => s
  | some (left, got) =>
    if !left.isEmpty then s
    else
      let e := s.fab.epoch + 1
      let rebuilt := s.fab.members.map fun m =>
        if m.module = s.fab.me then m
        else match got.find? fun x => x.module == m.module with
          | some x => { x with state := 1, epoch := if x.serial == m.serial && x.level == m.level && m.state == 1 then m.epoch else e }
          | none => if m.state = 3 then m else { m with state := 3, epoch := e }
      let beats := rebuilt.foldl (fun b m => tabSet b m.module s.tbc) s.fab.beats
      let s := s.setFab { s.fab with poll := none, isMaster := true, master := s.fab.me, masterLost := false, beats := beats }
      (s.newTable rebuilt).bgDoneOp 0xC044 .success []

/-- CONSTELLATION_MASTER_SET. -/
def masterSetCmd (s : State) : Reply :=
  if s.fab.poll.isSome || s.fab.mstate = 1 || s.fab.mstate = 3 then fail s .busy
  else if s.fab.mstate = 0 then
    let (d, s) := s.draw
    let me : Member := { module := 0, serial := s.cfg.serial, state := 1, level := s.fw.running.level, epoch := 1 }
    let s := s.setFab { s.fab with constId := d % 2 ^ 64, me := 0, master := 0, isMaster := true, mstate := 2, masterLost := false, epoch := 0 }
    { started (s.newTable [me]) with after := fun s => s.bgDoneOp 0xC044 .success [] }
  else
    let l := (s.fab.members.filter fun m => m.module != s.fab.me).map (·.module)
    let s := s.setFab { s.fab with poll := some (l, []) }
    { started (l.foldl (fun s m => s.mgmt 0x26 m []) s) with after := fun s => s.pollStep }

/-- POLL: a member answers with its state. -/
def pollMsg (src : Nat) (s : State) : State :=
  if s.fab.mstate != 2 then s else s.mgmt 0x26 src [s.fab.me, s.fab.epoch, s.fw.running.level] s.cfg.serial

/-- POLL_ANSWER: the highest epoch seen counts (R254). -/
def pollAnswer (src epoch : Nat) (serial : Bytes) (level : Nat) (s : State) : State :=
  match s.fab.poll with
  | none => s
  | some (left, got) =>
    if !left.contains src then s
    else
      let x : Member := { module := src, serial := serial, state := 1, level := level, epoch := epoch }
      (s.setFab { s.fab with poll := some (left.erase src, got ++ [x]), epoch := max s.fab.epoch epoch }).pollStep

/-- MEMBER_LOST: 1 s without the member's heartbeat, or silence on a poll. -/
def memberLost (m : Nat) (s : State) : State :=
  match s.fab.poll with
  | some (left, got) =>
    if !left.contains m then s
    else ((s.until (tabGet s.tbc s.fab.beats m + 1000 * ms)).setFab { s.fab with poll := some (left.erase m, got) }).pollStep
  | none =>
    if !s.fab.isMaster || m = s.fab.me || !(s.fab.members.any fun x => x.module == m && x.state != 3) then s
    else
      let s := s.until (tabGet 0 s.fab.beats m + 1000 * ms)
      (s.newTable (withState s.fab.members m 3 (s.fab.epoch + 1))).admitJoiners

/-- MASTER_LOST: 1 s without the master's heartbeat (R260, R275). -/
def masterLost (s : State) : State :=
  if s.fab.mstate != 2 || s.fab.isMaster || s.fab.masterLost then s
  else ((s.until (tabGet 0 s.fab.beats s.fab.master + 1000 * ms)).setFab { s.fab with masterLost := true }).signalPf0 6

/-! ### CONSTELLATION_STATUS (13 R445) -/

def constStatusCmd (v : Iface) (inp : Bytes) (s : State) : Reply :=
  let start := fld inp 0 1
  let l := (s.fab.members.filter fun m => start ≤ m.module).take ((ifaceLimit v - 32) / 24)
  ok s (flds [(8, s.fab.constId), (4, s.fab.epoch), (1, s.fab.me), (1, s.fab.master), (1, b2n s.fab.isMaster + 2 * b2n s.fab.masterLost),
    (1, s.fab.lastJoin), (2, s.fab.members.length), (1, l.length), (13, 0)] ++
    l.flatMap fun m => flds [(1, m.module), (1, m.state), (2, m.level), (4, m.epoch)] ++ slice m.serial 0 16)

/-! ### Meanings -/

def execHello (port cid module master epoch : Nat) (s : State) : Host.Outcome State Fault Refusal := .next (helloMsg port cid module master epoch s)
def execHeartbeat (src : Nat) (s : State) : Host.Outcome State Fault Refusal := .next (heartbeat src s)
def execHeartbeatTimer (s : State) : Host.Outcome State Fault Refusal := .next (heartbeatTimer s)
def execMemberLost (module : Nat) (s : State) : Host.Outcome State Fault Refusal := .next (memberLost module s)
def execMasterLost (s : State) : Host.Outcome State Fault Refusal := .next (masterLost s)
def execJoinReq (port : Nat) (serial report : Bytes) (level : Nat) (s : State) : Host.Outcome State Fault Refusal :=
  .next (joinReq port serial report level s)
def execJoinAck (src module epoch : Nat) (routes : List Nat) (s : State) : Host.Outcome State Fault Refusal :=
  .next (joinAck src module epoch routes s)
def execJoinTimeout (s : State) : Host.Outcome State Fault Refusal := .next (joinTimeout s)
def execMembership (src epoch : Nat) (table : List Member) (routes : List Nat) (s : State) : Host.Outcome State Fault Refusal :=
  .next (membership src epoch table routes s)
def execMembershipAck (src epoch : Nat) (s : State) : Host.Outcome State Fault Refusal := .next (membershipAck src epoch s)
def execPoll (src : Nat) (s : State) : Host.Outcome State Fault Refusal := .next (pollMsg src s)
def execPollAnswer (src epoch : Nat) (serial : Bytes) (level : Nat) (s : State) : Host.Outcome State Fault Refusal :=
  .next (pollAnswer src epoch serial level s)

def rowConstStatus : Row := { op := 0xC043, thru := 5, lo := 1, hi := 1 }
def execConstellationStatus (via : Iface) (inp : Bytes) (s : State) : Host.Outcome State Fault Refusal :=
  .next (mbxCall rowConstStatus (.constellationStatus via inp) via inp.length s (constStatusCmd via inp))
def rowMasterSet : Row := { op := 0xC044, thru := 8, pres := true, flash := true }
def execConstellationMasterSet (via : Iface) (inp : Bytes) (s : State) : Host.Outcome State Fault Refusal :=
  .next (mbxCall rowMasterSet (.constellationMasterSet via inp) via inp.length s masterSetCmd)

end Sys2Proof.Machine
end

