-- ==== Sys2Proof/Machine/EngineOps.lean ====
section
/-! DEFINITION. The ops of layer programs (03 R84-R85, R604-R606, R610; 02). Rows of partial results are held at full
length on each slice with that slice's own channels filled (log 20). -/
namespace Sys2Proof.Machine
open Sys2Proof

/-! ### Rows of elements (02 R42, 03 R606) -/

/-- Codes of `n` elements packed from the start of bytes. -/
def unpackCodes (f n : Nat) (b : Bytes) : List Nat :=
  let w := fmtBits f
  (List.range n).map fun i => (fld b (i * w / 8) 4 >>> (i * w % 8)) % 2 ^ w

/-- Elements of `n` ternary weights with the sign that a byte was invalid (02 R40, R41). -/
def unpackTrits (n : Nat) (b : Bytes) : List FNum × Bool :=
  ((List.range n).map fun i =>
    let v := fld b (i / 5) 1
    if 242 < v then numOfInt 0 else numOfInt ((v / 3 ^ (i % 5) % 3 : Nat) - 1),
   (List.range ((n + 4) / 5)).any fun k => 242 < fld b k 1)

/-- Codes packed into bytes; bits [7:4] of the last byte of an odd number of 4-bit codes are 0 (DESIGN CHOICE, log 97). -/
def packCodes (f : Nat) : List Nat → Bytes
  | [] => []
  | c :: l =>
    if fmtBits f = 4 then
      match l with
      | [] => [BitVec.ofNat 8 c]
      | d :: l => BitVec.ofNat 8 (c + 16 * d) :: packCodes f l
    else le (fmtBits f / 8) c ++ packCodes f l


/-- A group scale (02 R45). -/
def scaleNum (mode c : Nat) : FNum :=
  if mode = 3 then decodeNum 4 c else if c = 0xFF then .nan else .fin false 1 ((c : Int) - 127)

/-- Flags of reading values. -/
def readFlags (l : List FNum) : Flags := if l.any isNan then fNan else 0

/-- The unscaled elements of a row and its group scales. -/
def rowParts (f mode n : Nat) (b : Bytes) : List FNum × List FNum :=
  ((unpackCodes f n b).map (decodeNum f),
   (List.range (groupCount mode n)).map fun g => scaleNum mode (fld b (elemBytes f n + g) 1))

/-- A row taken into FP32, each scale applied to its group (R605). -/
def rowValues (f mode n : Nat) (b : Bytes) : List FNum × Flags :=
  let (v, sc) := rowParts f mode n b
  if groupSize mode = 0 then (v, readFlags v)
  else
    let r := v.zipIdx.map fun x => mul32 x.1 (sc.getD (x.2 / groupSize mode) numZero)
    (r.map (·.1), r.foldl (fun a x => a ||| x.2) (readFlags v ||| readFlags sc))

/-- A row converted into an output format without scales. -/
def convRow (f : Nat) (v : List FNum) : Bytes × Flags :=
  let r := v.map (convert f)
  (packCodes f (r.map (·.1)), r.foldl (fun a x => a ||| x.2) 0)

/-! ### Buffers of a sequence (03 R83, R606) -/

def bufKey (n idx : Nat) : Nat := n * 16 + idx

/-- Slices that hold a scratch buffer. -/
def heldOn' (z : Seq) (host idx : Nat) : Nat := tabGet (2 ^ host) z.placed idx

/-- Rows of a scratch buffer and their stride. -/
def rowsOf (z : Seq) (idx : Nat) : Nat × Nat := tabGet (1, 0) z.rows idx

/-- Row `r` of a scratch buffer on a slice, as bytes. -/
def scratchRow (z : Seq) (n idx r need : Nat) : Bytes :=
  slice (tabGet [] z.scratch (bufKey n idx)) (r * (rowsOf z idx).2) need

/-- A buffer written with rows on a slice; bytes beyond them stay. -/
def putRows (z : Seq) (n idx : Nat) (rows : List Bytes) : Seq :=
  let b := rows.flatten
  let old := tabGet [] z.scratch (bufKey n idx)
  { z with scratch := tabSet z.scratch (bufKey n idx) (b ++ old.drop b.length) }

/-- What an op leaves of a buffer: its rows, the slices that hold it. -/
def markRows (z : Seq) (idx count stride mask : Nat) : Seq :=
  { z with rows := tabSet z.rows idx (count, stride), placed := tabSet z.placed idx mask }

/-- The bit of an operand in `Seq.taint`; none for operands that a sequence does not own. -/
def taintBit (r : Nat) : Option Nat :=
  match refSpace r with
  | 1 => some (refIdx r)
  | 2 => some 16
  | 4 => some (17 + refIdx r)
  | _ => none

def tainted (z : Seq) (r : Nat) : Bool := (taintBit r).any (bit z.taint)
def setTaint (z : Seq) (r : Nat) (b : Bool) : Seq :=
  match taintBit r with
  | none => z
  | some k => { z with taint := setBit z.taint k b }

def State.setSeq (s : State) (q : Nat) (z : Seq) : State := s.setEng { s.eng with seqs := tabSet s.eng.seqs q z }

/-! ### The op under way -/

/-- What an op has before it. -/
structure OpCtx where
  id : Nat
  st : StepSt
  m : Model
  l : Layer
  p : OpDesc
  cur : Cursor
  deriving Repr

/-- The running step's op, where it has one of the codes given and the step may go on. -/
def State.opAt (s : State) (id code : Nat) (subs : List Nat) : Option OpCtx :=
  match s.step' id with
  | none => none
  | some x =>
    match s.model x.desc.model, s.cur x.cursor with
    | some m, some c =>
      match m.layers[x.layer]? with
      | none => none
      | some l => match l.ops[x.op]? with
        | none => none
        | some p =>
          if x.phase = 1 && x.layer ≤ x.desc.last && (x.ready || !needsCheck l x.op) && p.opcode = code &&
              (subs.isEmpty || subs.contains p.sub) && s.stepRuns x then
            some { id := id, st := x, m := m, l := l, p := p, cur := c }
          else none
    | _, _ => none

/-- The op is done: the next op, or the next layer, whose copies in T0 leave (04 R117). -/
def State.opDone (s : State) (c : OpCtx) (fl : Flags) : State :=
  match s.step' c.id with
  | none => s
  | some x =>
    let s := s.noteWork x
    let x := { x with arith := x.arith ||| fl, ready := false }
    if x.op + 1 < c.l.ops.length then s.setStep c.id { x with op := x.op + 1 }
    else ((s.setStep c.id { x with op := 0, layer := x.layer + 1, lastDone := x.layer }).layerLeaves x.cursor x.desc.model x.layer).t0Trim
      x.tenant

/-- A sequence of the step is affected by poison (R85). -/
def State.poisonSeq (s : State) (c : OpCtx) (q : Nat) : State :=
  s.modStep c.id fun x => if x.poisonSeqs.contains q then x else { x with poisonSeqs := q :: x.poisonSeqs }

/-- The step's sequences with their slots. -/
def State.opSeqs (s : State) (c : OpCtx) : List (Nat × Seq) := (seqList c.st.desc.seqs).filterMap fun q => (s.seq q).map fun z => (q, z)

/-- Poison goes from an op's sources to its destination; an op that reports it marks the sequence. -/
def State.taintOp (s : State) (c : OpCtx) (q : Nat) (srcs : List Nat) (dst : Nat) (more reports : Bool) : State :=
  match s.seq q with
  | none => s
  | some z =>
    let bad := more || srcs.any (tainted z)
    let s := s.setSeq q (setTaint z dst bad)
    if bad && reports then s.poisonSeq c q else s

/-! ### Vector ops -/

/-- Slices on which a vector op runs for a sequence: those that hold all its operands, else the host slice. -/
def runSlices (z : Seq) (host : Nat) (refs : List Nat) : List Nat :=
  let mask (r : Nat) : Option Nat := match refSpace r with
    | 1 => some (heldOn' z host (refIdx r))
    | 2 => some (2 ^ host)
    | 4 => some (2 ^ host)
    | _ => none
  let ms := refs.filterMap mask
  let l := (List.range 8).filter fun n => ms.all fun m => bit m n
  if l.isEmpty || ms.isEmpty then [host] else l

/-- Rows of an operand on a slice, in FP32. -/
def operandRows (l : Layer) (z : Seq) (host n r f mode len : Nat) : List (List FNum) × Flags :=
  match refSpace r with
  | 1 =>
    let rs := (List.range (rowsOf z (refIdx r)).1).map fun k => rowValues f mode len (scratchRow z n (refIdx r) k (rowLen f mode len))
    (rs.map (·.1), rs.foldl (fun a x => a ||| x.2) 0)
  | 2 => let x := rowValues 0 0 len (slice (tabGet [] z.residual host) 0 (4 * len)); ([x.1], x.2)
  | 7 => let x := rowValues 0 0 len (slice l.vecs (64 * refIdx r) (4 * len)); ([x.1], x.2)
  | _ => ([], 0)

/-- Rows written to a destination on slices: a scratch buffer, or the residual on the host slice. -/
def writeRows (z : Seq) (host dst : Nat) (outs : List (Nat × List Bytes)) : Seq :=
  match refSpace dst with
  | 1 =>
    let z' := outs.foldl (fun z o => putRows z o.1 (refIdx dst) o.2) z
    let rows := ((outs.head?).map (·.2)).getD []
    markRows z' (refIdx dst) rows.length (((rows.head?).map (·.length)).getD 0) (outs.foldl (fun m o => setBit m o.1 true) 0)
  | 2 =>
    match outs.head? with
    | some (_, r :: _) => { z with residual := tabSet z.residual host (r ++ (tabGet [] z.residual host).drop r.length) }
    | _ => z
  | _ => z

/-- An op that maps rows to rows on each slice that holds its operands. `f` takes the rows of src0 and, where there is one,
the row of src1, and gives the result in FP32. -/
def State.vecOp (s : State) (c : OpCtx) (two reports : Bool) (f : List FNum → List FNum → List FNum × Flags) : State :=
  let p := c.p
  let (s, fl) := (s.opSeqs c).foldl (fun (a : State × Flags) e =>
    let (s, fl) := a
    let (q, z) := e
    let host := hostSlice q
    let refs := if two then [p.src0, p.src1] else [p.src0]
    let res : List (Nat × List Bytes × Flags) := (runSlices z host refs).map fun n =>
      let (xs, f0) : List (List FNum) × Flags := operandRows c.l z host n p.src0 p.fmt0 p.scale0 p.length
      let (ys, f1) : List (List FNum) × Flags :=
        if two then operandRows c.l z host n p.src1 p.fmt1 p.scale1 p.length else ([], 0)
      let out : List (Bytes × Flags) := xs.zipIdx.map fun (x : List FNum × Nat) =>
        let (v, f2) := f x.1 (ys.getD x.2 (ys.headD []))
        let (b, f3) := convRow p.dfmt v
        (b, f2 ||| f3)
      (n, out.map (·.1), out.foldl (fun a o => a ||| o.2) (f0 ||| f1))
    let s := s.setSeq q (writeRows z host p.dst (res.map fun r => (r.1, r.2.1)))
    (s.taintOp c q refs p.dst false reports, res.foldl (fun a r => a ||| r.2.2) fl)) (s, 0)
  s.opDone c fl

/-- Element-wise results with their flags. -/
def mapNum (f : FNum → FNum × Flags) (l : List FNum) : List FNum × Flags :=
  let r := l.map f
  (r.map (·.1), r.foldl (fun a x => a ||| x.2) 0)

/-- NORM (R84): RMS or LAYER, with the gain of src1; sums in a free order. -/
def normRow (layer : Bool) (d : Nat) (eps : FNum) (x g : List FNum) : List FNum × Flags :=
  let n := numOfInt (max 1 x.length : Nat)
  let mean (l : List FNum) : FNum × Flags := let (t, f) := freeSum d l; let (m, f') := div32 t n; (m, f ||| f')
  let (mu, f0) := if layer then mean x else (numZero, 0)
  let (y, f1) := if layer then mapNum (fun v => add32 v (numNeg mu)) x else (x, 0)
  let (sq, f2) := mapNum (fun v => mul32 v v) y
  let (v, f3) := mean sq
  let (ve, f4) := add32 v eps
  let (r, f5) := rsqrt32 ve
  let (z, f6) := mapNum (fun v => mul32 v r) y
  let o := z.zipIdx.map fun v => mul32 v.1 (g.getD v.2 numZero)
  (o.map (·.1), o.foldl (fun a x => a ||| x.2) (f0 ||| f1 ||| f2 ||| f3 ||| f4 ||| f5 ||| f6))

def opNorm (id : Nat) (s : State) : State :=
  match s.opAt id 3 [] with
  | none => s
  | some c =>
    let (d, s) := s.draw
    s.vecOp c true true (normRow (c.p.sub == 1) d (num32 c.p.param0))

/-- ACT (R84). -/
def actNum (sub : Nat) (x : FNum) : FNum × Flags :=
  match sub with
  | 0 => silu32 x
  | 1 => geluTanh32 x
  | 2 => geluErf32 x
  | 3 => sigmoid32 x
  | 4 => if isNan x then (FNum.nan, fNan) else (if numLt numZero x then x else numZero, 0)
  | 5 => silu32 x
  | _ => geluTanh32 x

def actRow (sub : Nat) (x y : List FNum) : List FNum × Flags :=
  if sub < 5 then mapNum (actNum sub) x
  else
    let r := x.zipIdx.map fun v =>
      let (a, f) := actNum sub v.1
      let (b, f') := mul32 a (y.getD v.2 numZero)
      (b, f ||| f')
    (r.map (·.1), r.foldl (fun a x => a ||| x.2) 0)

def opAct (id : Nat) (s : State) : State :=
  match s.opAt id 4 [] with
  | none => s
  | some c => s.vecOp c (5 ≤ c.p.sub) true (actRow c.p.sub)

/-- ADD: dst = src0 + PARAM0 x src1, rounded once. -/
def addRow (k : FNum) (x y : List FNum) : List FNum × Flags :=
  let r := x.zipIdx.map fun v => rnd32 (numAdd v.1 (numMul k (y.getD v.2 numZero)))
  (r.map (·.1), r.foldl (fun a x => a ||| x.2) 0)

def opAdd (id : Nat) (s : State) : State :=
  match s.opAt id 9 [] with
  | none => s
  | some c => s.vecOp c true true (addRow (if c.p.param0 = 0 then .fin false 1 0 else num32 c.p.param0))

/-- One head rotated (R610). -/
def rotateHead (sub pos d : Nat) (base : FNum) (h : List FNum) : List FNum × Flags :=
  let one (a : List FNum × Flags) (j : Nat) : List FNum × Flags :=
    let i0 := if sub = 0 then j else 2 * j
    let i1 := if sub = 0 then j + d / 2 else 2 * j + 1
    let x := a.1.getD i0 numZero
    let y := a.1.getD i1 numZero
    let (th, fr) := ropeFreq base j d
    let ((sn, cs), f0) := ropeSinCos pos th
    let (xc, f1) := mul32 x cs
    let (ys, f2) := mul32 y sn
    let (xs, f3) := mul32 x sn
    let (yc, f4) := mul32 y cs
    let (u, f5) := add32 xc (numNeg ys)
    let (v, f6) := add32 xs yc
    ((a.1.set i0 u).set i1 v, a.2 ||| fr ||| f0 ||| f1 ||| f2 ||| f3 ||| f4 ||| f5 ||| f6)
  (List.range (d / 2)).foldl one (h, 0)

def rotateRow (sub pos d hd : Nat) (base : FNum) (x : List FNum) : List FNum × Flags :=
  let hs := (List.range (x.length / max 1 hd)).map fun k => rotateHead sub pos d base ((x.drop (k * hd)).take hd)
  ((hs.map (·.1)).flatten, hs.foldl (fun a h => a ||| h.2) 0)

/-- ROTATE, in place, at the token count before this step. -/
def opRotate (id : Nat) (s : State) : State :=
  match s.opAt id 5 [] with
  | none => s
  | some c =>
    let p := c.p
    let (s, fl) := (s.opSeqs c).foldl (fun (a : State × Flags) e =>
      let (q, z) := e
      let host := hostSlice q
      let res : List (Nat × List Bytes × Flags) := (runSlices z host [p.src0]).map fun n =>
        let (xs, f0) : List (List FNum) × Flags := operandRows c.l z host n p.src0 p.fmt0 p.scale0 p.length
        let out : List (Bytes × Flags) := xs.map fun (x : List FNum) =>
          let (v, f2) := rotateRow p.sub z.tokens p.param1 c.m.headDim (num32 p.param0) x
          let (b, f3) := convRow p.dfmt v
          (b, f2 ||| f3)
        (n, out.map (·.1), out.foldl (fun a o => a ||| o.2) f0)
      let s := a.1.setSeq q (writeRows z host p.dst (res.map fun r => (r.1, r.2.1)))
      (s.taintOp c q [p.src0] p.dst false false, res.foldl (fun a r => a ||| r.2.2) a.2)) (s, 0)
    s.opDone c fl

/-! ### ROUTE -/

/-- Indices by descending value, NaN last, ties to the lower index (02 R62). -/
def rankInsert (v : List FNum) (i : Nat) : List Nat → List Nat
  | [] => [i]
  | j :: l => if numLt (v.getD j .nan) (v.getD i .nan) then i :: j :: l else j :: rankInsert v i l

def topK (k : Nat) (v : List FNum) : List Nat := ((List.range v.length).foldl (fun l i => rankInsert v i l) []).take k

/-- Softmax, its sum in a free order. -/
def softmax (d : Nat) (v : List FNum) : List FNum × Flags :=
  let mx := v.foldl (fun m x => if isNan m || isNan x then .nan else if numLt m x then x else m) (v.headD numZero)
  let (e, f0) := mapNum (fun x => let (y, f) := add32 x (numNeg mx); let (z, f') := exp32 y; (z, f ||| f')) v
  let (t, f1) := freeSum d e
  let (r, f2) := mapNum (fun x => div32 x t) e
  (r, f0 ||| f1 ||| f2)

/-- Values of the chosen divided by their sum. -/
def renorm (d : Nat) (v : List FNum) : List FNum × Flags :=
  let (t, f1) := freeSum d v
  let (r, f2) := mapNum (fun x => div32 x t) v
  (r, f1 ||| f2)

/-- Experts with their weights. -/
def routeRow (sub k d : Nat) (v : List FNum) : List (Nat × Nat) × Flags :=
  let (w, f0) := match sub with
    | 0 => softmax d v
    | 2 => mapNum sigmoid32 v
    | _ => (v, 0)
  let ix := topK k w
  let pick := ix.map fun i => w.getD i .nan
  let (r, f1) := if sub = 1 then softmax d pick else renorm d pick
  (ix.zip (r.map bits32), f0 ||| f1)

/-- What ROUTE selected is kept for EXPERT_HORIZON (04 R108): layer, expert, the cursor's STEP and the step that ran it. -/
def noteRouted (c : Cursor) (layer : Nat) (es : List Nat) (id : Nat) : Cursor :=
  let new := es.map fun e => (layer, e, c.step, id)
  { c with routed := (c.routed.filter fun r => decide (c.step ≤ r.2.2.1 + 255) && !new.contains r) ++ new }

def opRoute (id : Nat) (s : State) : State :=
  match s.opAt id 6 [] with
  | none => s
  | some c =>
    let p := c.p
    let (d, s) := s.draw
    let (s, fl) := (s.opSeqs c).foldl (fun (a : State × Flags) e =>
      let (q, z) := e
      let host := hostSlice q
      let res := (runSlices z host [p.src0]).map fun n =>
        let (xs, f0) := operandRows c.l z host n p.src0 p.fmt0 p.scale0 p.length
        let logits := (List.range p.param1).map fun i => (xs.headD []).getD i numZero
        let (r, f1) := routeRow p.sub p.param0 d logits
        (n, r, f0 ||| f1)
      let z := res.foldl (fun (z : Seq) r => { z with routing := tabSet z.routing (r.1 * 4 + refIdx p.dst) r.2.1 }) z
      let s := a.1.setSeq q z
      let es := (res.flatMap fun r => r.2.1.map (·.1)).eraseDups
      let s := if c.cur.model = c.st.desc.model then s.modCur c.st.cursor fun x => noteRouted x c.st.layer es id else s
      (s.taintOp c q [p.src0] p.dst false true, res.foldl (fun a r => a ||| r.2.2) a.2)) (s, 0)
    s.opDone c fl

/-! ### GATHER and SCATTER -/

/-- The slice whose result a channel of a partial vector is: traced back through the ops before op `k` of the layer that
write the buffer (R76, R609); the host slice where no sharded op does. -/
def ownerOf (slices : Nat) (m : Model) (l : Layer) (layer host : Nat) : Nat → Nat → Nat → Nat
  | 0, _, _ => host
  | k + 1, idx, ch =>
    match l.ops[k]? with
    | none => host
    | some p =>
      if refSpace p.dst != 1 || refIdx p.dst != idx || p.opcode = 8 || p.opcode = 6 || p.opcode = 11 then
        ownerOf slices m l layer host k idx ch
      else match p.opcode with
        | 1 =>
          let t := m.tiles.filter fun t => t.layer == layer && t.tensor == refIdx p.src1 && t.n == ch / 128
          if t.any fun t => t.slice == host then host else ((t.head?).map (·.slice)).getD host
        | 2 => if m.kvSplit = 1 then host else kvHome slices (ch / (max 1 (m.headDim * m.qPerKv)))
        | 7 => if p.sub = 2 then host else ownerOf slices m l layer host k (refIdx p.src0) ch
        | _ => if refSpace p.src0 = 1 then ownerOf slices m l layer host k (refIdx p.src0) ch else host

/-- GATHER CONCAT and SUM: the host slice takes each channel from its owner, or the sum of all slices in a free order. -/
def opGather (sum : Bool) (id : Nat) (s : State) : State :=
  match s.opAt id 7 [if sum then 1 else 0] with
  | none => s
  | some c =>
    let p := c.p
    let (d, s) := s.draw
    let (s, fl) := (s.opSeqs c).foldl (fun (a : State × Flags) e =>
      let (q, z) := e
      let host := hostSlice q
      let ns := (List.range 8).filter (bit (heldOn' z host (refIdx p.src0)))
      let parts : List (Nat × List (List FNum) × Flags) := ns.map fun n => (n, operandRows c.l z host n p.src0 p.fmt0 p.scale0 p.length)
      let rows : List (Bytes × Flags) := (List.range (rowsOf z (refIdx p.src0)).1).map fun r =>
        let v : List (FNum × Flags) := (List.range p.length).map fun ch =>
          let at_ (x : Nat × List (List FNum) × Flags) : FNum := (x.2.1.getD r []).getD ch numZero
          if sum then freeSum (d + r * 65536 + ch) (parts.map at_)
          else
            let o := ownerOf s.cfg.slices c.m c.l c.st.layer host c.st.op (refIdx p.src0) ch
            (match parts.find? fun x => x.1 == o with
              | some x => at_ x
              | none => ((parts.head?).map at_).getD numZero, 0)
        let (b, f) := convRow p.dfmt (v.map (·.1))
        (b, v.foldl (fun a x => a ||| x.2) f)
      let s := a.1.setSeq q (writeRows z host p.dst [(host, rows.map (·.1))])
      (s.taintOp c q [p.src0] p.dst false true,
        rows.foldl (fun a r => a ||| r.2) (parts.foldl (fun a x => a ||| x.2.2) a.2))) (s, 0)
    s.opDone c fl

/-- GATHER INPUT: each sequence's input record goes into FP32 (R84, R91). -/
def opGatherInput (id : Nat) (s : State) : State :=
  match s.opAt id 7 [2] with
  | none => s
  | some c =>
    let p := c.p
    let rec_ := inRecord c.m c.st.desc
    let (d, s) := s.draw
    let (s, fl) := ((s.opSeqs c).zipIdx).foldl (fun (a : State × Flags) e =>
      let ((q, z), i) := e
      let host := hostSlice q
      let from_ := c.cur.extent + c.st.desc.inOff + i * rec_ + 64 * refIdx p.src0
      let n := elemBytes p.fmt0 p.length
      let bad := a.1.rangePoison from_ n
      let raw := if bad then (List.range n).map (Config.freeByte (d + i)) else a.1.extRead from_ n
      let (v, f0) := rowValues p.fmt0 0 p.length raw
      let (b, f1) := convRow 0 v
      let s := a.1.setSeq q (writeRows z host p.dst [(host, [b])])
      (s.taintOp c q [] p.dst bad true, a.2 ||| f0 ||| f1)) (s, 0)
    s.opDone c fl

/-- SCATTER BROADCAST: the host slice's buffer or routing table goes to every slice. -/
def opBroadcast (id : Nat) (s : State) : State :=
  match s.opAt id 8 [0] with
  | none => s
  | some c =>
    let r := c.p.src0
    let s' := (s.opSeqs c).foldl (fun s e =>
      let (q, z) := e
      let host := hostSlice q
      let z' := if refSpace r = 4 then
          let t := tabGet [] z.routing (host * 4 + refIdx r)
          s.upSlices.foldl (fun (z : Seq) n => { z with routing := tabSet z.routing (n * 4 + refIdx r) t }) z
        else
          let b := tabGet [] z.scratch (bufKey host (refIdx r))
          let z := s.upSlices.foldl (fun (z : Seq) n => { z with scratch := tabSet z.scratch (bufKey n (refIdx r)) b }) z
          { z with placed := tabSet z.placed (refIdx r) (s.upSlices.foldl (fun m n => setBit m n true) 0) }
      s.setSeq q z') s
    s'.opDone c 0

/-- SCATTER SPLIT: each slice takes its own range of the host slice's buffer, by the COLUMN tensor that the buffer comes
from; a buffer that comes from none goes whole (log 21). -/
def opSplit (id : Nat) (s : State) : State :=
  match s.opAt id 8 [1] with
  | none => s
  | some c =>
    let p := c.p
    let idx := refIdx p.src0
    let s' := (s.opSeqs c).foldl (fun s e =>
      let (q, z) := e
      let host := hostSlice q
      let own (ch : Nat) : Nat := ownerOf s.cfg.slices c.m c.l c.st.layer host c.st.op idx ch
      let whole := (List.range p.length).all fun ch => own ch == host
      let w := fmtBits p.fmt0
      let z' := if refSpace p.src0 = 4 then
          let t := tabGet [] z.routing (host * 4 + idx)
          s.upSlices.foldl (fun (z : Seq) n => { z with routing := tabSet z.routing (n * 4 + idx) t }) z
        else
          let b := tabGet [] z.scratch (bufKey host idx)
          let z := s.upSlices.foldl (fun (z : Seq) n =>
            let old := tabGet [] z.scratch (bufKey n idx)
            let stride := (rowsOf z idx).2
            let mine (k : Nat) : Bool :=
              let o := if stride = 0 then k else k % stride
              let es := elemBytes p.fmt0 p.length
              let ch := if o < es then o * 8 / max 1 w else (o - es) * max 1 (groupSize p.scale0)
              whole || own ch == n
            { z with scratch := tabSet z.scratch (bufKey n idx) (b.zipIdx.map fun x => if mine x.2 then x.1 else old.getD x.2 0) }) z
          { z with placed := tabSet z.placed idx (s.upSlices.foldl (fun m n => setBit m n true) 0) }
      s.setSeq q z') s
    s'.opDone c 0

/-! ### QUANT and COPY_OUT -/

/-- Exponent of the largest power of two of a target, and its greatest value (02 R63, R64). -/
def quantTop (f : Nat) : Int × FNum :=
  match f with
  | 4 => (8, numOfInt 448)
  | 3 => (15, numOfInt 57344)
  | 7 => (2, numOfInt 6)
  | 8 => (6, numOfInt 127)
  | _ => (2, numOfInt 7)

/-- The scale code of a group (02 R63-R65), with OVERFLOW where the quotient of an E4M3 scale is clamped (02 R53). -/
def scaleCode (f mode : Nat) (g : List FNum) : Nat × Flags :=
  if g.any fun x => !isFinite x then (if mode = 3 then 0x7F else 0xFF, 0)
  else
    let amax := g.foldl (fun m x => if numLt m (numAbs x) then numAbs x else m) numZero
    match amax with
    | .fin _ m e =>
      if m = 0 then (if mode = 3 then 0x38 else 0x7F, 0)
      else if mode = 3 then
        let (c, fl) := convert 4 (quoExact amax (quantTop f).2)
        (if c = 0 then 1 else c, fl)
      else
        let x := topExp m e - (quantTop f).1
        (((if x < -127 then -127 else if 127 < x then 127 else x) + 127).toNat, 0)
    | _ => (0xFF, 0)

/-- A row quantised; `seed` gives the draw of an element under stochastic rounding, by its index in the row. -/
def quantRow (f mode : Nat) (seed : Option (Nat → Nat)) (v : List FNum) : Bytes × Flags :=
  let G := if groupSize mode = 0 then max 1 v.length else groupSize mode
  let groups := (List.range ((v.length + G - 1) / G)).map fun g => (v.drop (g * G)).take G
  let one (i : Nat) (x : FNum) : Nat × Flags := match seed with
    | some r => convertStoch f (r i) x
    | none => convert f x
  let scales := if groupSize mode = 0 then [] else groups.map (scaleCode f mode)
  let r := v.zipIdx.map fun x =>
    if groupSize mode = 0 then one x.2 x.1
    else
      let g := groups.getD (x.2 / G) []
      if g.any fun y => !isFinite y then (let (k, fl) := nanInto f; (k, fl ||| fNan))
      else
        let (q, f0) := divExact32 x.1 (scaleNum mode ((scales.map (·.1)).getD (x.2 / G) 0))
        let (k, f1) := one x.2 q
        (k, f0 ||| f1)
  (packCodes f (r.map (·.1)) ++ scales.map (fun x => BitVec.ofNat 8 x.1),
    r.foldl (fun a x => a ||| x.2) (scales.foldl (fun a x => a ||| x.2) 0))

/-- QUANT (02 R63-R69): the element index runs over the op's whole output tensor, whose rows are those of the step's sequences in
ascending sequence number, each sequence's rows in their order (DESIGN CHOICE, log 97). -/
def opQuant (id : Nat) (s : State) : State :=
  match s.opAt id 10 [] with
  | none => s
  | some c =>
    let p := c.p
    let (s, fl, _) := (s.opSeqs c).foldl (fun (a : State × Flags × Nat) e =>
      let (s, fl, base) := a
      let (q, z) := e
      let host := hostSlice q
      let res : List (Nat × List Bytes × Flags) := (runSlices z host [p.src0]).map fun n =>
        let (xs, f0) : List (List FNum) × Flags := operandRows c.l z host n p.src0 p.fmt0 p.scale0 p.length
        let out : List (Bytes × Flags) := xs.zipIdx.map fun (x : List FNum × Nat) =>
          let draw (i : Nat) : Nat := stochDraw c.st.desc.seed c.st.layer c.st.op ((base + x.2) * p.length + i)
          quantRow p.dfmt p.dscale (if p.stochastic then some draw else none) x.1
        (n, out.map (·.1), out.foldl (fun a o => a ||| o.2) f0)
      let s := s.setSeq q (writeRows z host p.dst (res.map fun r => (r.1, r.2.1)))
      let rows := ((res.head?).map (·.2.1.length)).getD 0
      (s.taintOp c q [p.src0] p.dst false false, res.foldl (fun a r => a ||| r.2.2) fl, base + rows)) (s, 0, 0)
    s.opDone c fl

/-- COPY_OUT: the record's bytes wait for the end of the step (R84, R96). -/
def opCopyOut (id : Nat) (s : State) : State :=
  match s.opAt id 11 [] with
  | none => s
  | some c =>
    let p := c.p
    let rec_ := outRecord c.m c.st.desc
    let (s, fl) := ((s.opSeqs c).zipIdx).foldl (fun (a : State × Flags) e =>
      let ((q, z), i) := e
      let host := hostSlice q
      let (xs, f0) := operandRows c.l z host host p.src0 p.fmt0 p.scale0 p.length
      let (b, f1) := convRow p.dfmt (xs.headD [])
      let s := a.1.modStep id fun x => { x with outBuf := x.outBuf ++ [{ seq := q, off := i * rec_ + 64 * refIdx p.dst, data := b }] }
      let s := if tainted z p.src0 then s.poisonSeq c q else s
      (s, a.2 ||| f0 ||| f1)) (s, 0)
    s.opDone c fl

/-! ### MATMUL (02 R48, R49, R55-R58; 03 R84) -/

/-- A tile in engine form: element rows of 128, group scales by row, channel scales. -/
structure TileVals where
  rows : List (List FNum)
  scales : List (List FNum)
  ch : List FNum
  bad : Bool

/-- The values of a tile's logical content (02 R42, R43, R47). -/
def tileVals (f mode : Nat) (b : Bytes) : TileVals :=
  let per := match f with | 10 => 26 | 5 => 96 | 6 => 96 | _ => elemBytes f 128
  let rows := (List.range 128).map fun r => if f = 10 then unpackTrits 128 (slice b (r * 26) 26)
    else ((unpackCodes f 128 (slice b (r * per) per)).map (decodeNum f), false)
  let base := 128 * per
  let g := groupCount mode 128
  { rows := rows.map (·.1), bad := rows.any (·.2),
    scales := (List.range 128).map fun r => (List.range g).map fun k => scaleNum mode (fld b (base + r * g + k) 1),
    ch := if mode = 4 then (List.range 128).map fun r => num32 (fld b (base + 4 * r) 4) else [] }

def isIntFmt (f : Nat) : Bool := f == 8 || f == 9 || f == 10

def numToInt (x : FNum) : Int :=
  match x with
  | .fin n m e => let v : Int := if 0 ≤ e then (m <<< e.toNat : Nat) else (m >>> (-e).toNat : Nat); if n then -v else v
  | _ => 0

/-- Integer products accumulated in INT32, in a free order (02 R57). -/
def intSum (d : Nat) (l : List Int) : Int × Flags :=
  (freeOrder d (l.map numOfInt)).foldl (fun a x => let (v, f) := satAdd a.1 (numToInt x); (v, a.2 ||| f)) (0, 0)

/-- Contributions of one tile to an output channel: each group's sum times its scales, rounded once (02 R58). -/
def contribs (d : Nat) (fa ma fw mw : Nat) (a sa w sw : List FNum) : List FNum × Flags :=
  let ga := if groupSize ma = 0 then 128 else groupSize ma
  let gw := if groupSize mw = 0 then 128 else groupSize mw
  let G := min ga gw
  let r : List (FNum × Flags) := (List.range (128 / G)).map fun g =>
    let x := (a.drop (g * G)).take G
    let y := (w.drop (g * G)).take G
    let prod : List (FNum × Flags) := (x.zip y).map fun v => if fw = 0 || fa = 0 then mul32 v.1 v.2 else (numMul v.1 v.2, 0)
    let (p, f0) := if isIntFmt fa && isIntFmt fw then (numOfInt ((prod.map fun v => numToInt v.1).foldl (· + ·) 0), 0)
      else freeSum (d + g) (prod.map (·.1))
    let f0 := prod.foldl (fun a v => a ||| v.2) f0
    if groupSize ma = 0 && groupSize mw = 0 then (p, f0)
    else
      let one : FNum := .fin false 1 0
      let sc := numMul (if groupSize ma = 0 then one else sa.getD (g * G / ga) numZero) (if groupSize mw = 0 then one else sw.getD (g * G / gw) numZero)
      let (q, f1) := if isNan sc then (FNum.nan, fNan) else mul32 p sc
      (q, f0 ||| f1)
  (r.map (·.1), r.foldl (fun a x => a ||| x.2) 0)

/-- One output channel from the tiles of its n-block on a slice: (k-block, tile values). The CH32 scale is that of the first of
these tiles (DESIGN CHOICE, log 97). -/
def channel (d fa ma fw mw dfmt r : Nat) (act : List FNum) (asc : List FNum) (ts : List (Nat × TileVals)) : FNum × Flags :=
  let seg (k : Nat) : List FNum := (act.drop (128 * k)).take 128
  let ssc (k : Nat) : List FNum := if groupSize ma = 0 then [] else (asc.drop (128 / groupSize ma * k)).take (128 / groupSize ma)
  let chs := ((ts.head?).map fun t => t.2.ch.getD r (.fin false 1 0))
  let finish (v : FNum) (f : Flags) : FNum × Flags :=
    if mw = 4 then
      let (x, f0) := rnd32 v
      let (y, f1) := mul32 x (chs.getD numZero)
      (y, f ||| f0 ||| f1)
    else if isFloat dfmt then (let (x, f0) := rnd32 v; (x, f ||| f0)) else (v, f)
  if isIntFmt fa && isIntFmt fw && groupSize ma = 0 && groupSize mw = 0 then
    let prods := ts.flatMap fun t => (seg t.1).zip (t.2.rows.getD r []) |>.map fun v => numToInt v.1 * numToInt v.2
    let (v, f) := intSum (d + r) prods
    finish (numOfInt v) f
  else
    let cs := ts.map fun t => contribs (d + 1000 * t.1 + r) fa ma fw mw (seg t.1) (ssc t.1) (t.2.rows.getD r []) (t.2.scales.getD r [])
    let (v, f) := freeSum (d + r) ((cs.map (·.1)).flatten)
    finish v (cs.foldl (fun a x => a ||| x.2) f)

/-- Bits in error on the media of an item's home. -/
def errsOf (errs : List MediaErr) (i : Item) : List Nat := (errs.filter fun e => e.item == i).map (·.bit)

/-- The cluster whose Eyepiece decodes a tile: a free choice among those in service (05 R167). -/
def State.eyepiece (s : State) (n d : Nat) : Nat :=
  let l := (List.range 8).filter (bit (s.sl n).clusters)
  l.getD (d % max 1 l.length) 0

/-- The content of the tile that a step reads, or a free content where it is poison to the step (R85). A tile with a T0 copy is read
there, without its codes (11 R353). -/
def State.readTile (s : State) (c : OpCtx) (errs : List MediaErr) (d n x : Nat) (t : Tensor) : Bytes × Bool × State :=
  let h := c.st.desc.model
  let i := Item.tile h x
  let len := (tileLogical t.fmt t.scale).getD 0
  let free := (List.range len).map (Config.freeByte (d + x))
  match s.tileFor c.st.admitted h x with
  | none => (free, true, s)
  | some tl =>
    match tl.ent.home with
    | none => (free, true, s)
    | some hm =>
      let inCopy := s.inT0 n i tl.version
      let dead := !inCopy && (s.homeFrozen n hm 0 (homeLen hm)).isSome
      let s := (if inCopy || dead then s else s.access n hm 0 (homeLen hm) false c.cur.cls).sampleHeat i 1
      if tl.ent.poisoned || dead then (free, true, s)
      else match hm.blk with
        | none => (free, true, s)
        | some b =>
          match s.readItem i hm b (if inCopy then [] else errsOf errs i) 0 (s.eyepiece n (d + x)) 0 with
          | (some out, s) => (out, false, s)
          | (none, s) => (free, true, s)

/-- One row of a product on a slice: every channel whose tiles lie there, zero elsewhere. -/
def matRow (d fa ma : Nat) (t : Tensor) (dfmt : Nat) (act asc : List FNum) (ts : List (Nat × Nat × TileVals)) : List FNum × Flags :=
  let r := (List.range (t.nBlocks * 128)).map fun ch =>
    let mine := (ts.filter fun x => x.1 == ch / 128).map (·.2)
    if mine.isEmpty then (numZero, 0) else channel (d + ch) fa ma t.fmt t.scale dfmt (ch % 128) act asc mine
  (r.map (·.1), r.foldl (fun a x => a ||| x.2) 0)

/-- Tiles of a tensor on a slice, decoded, for one expert (0xFFFF for a tensor that is not EXPERT). -/
def State.loadTiles (s : State) (c : OpCtx) (errs : List MediaErr) (d n : Nat) (t : Tensor) (expert : Nat) : List (Nat × Nat × TileVals) × Bool × State :=
  let ix := (tensorTiles c.m c.st.layer t.tensor n).filter fun x => (c.m.tiles[x]?).any fun u => u.expert == expert
  ix.foldl (fun (a : List (Nat × Nat × TileVals) × Bool × State) x =>
    let (b, bad, s) := a.2.2.readTile c errs d n x t
    match c.m.tiles[x]? with
    | none => a
    | some u => (a.1 ++ [(u.n, u.k, tileVals t.fmt t.scale b)], a.2.1 || bad, s)) ([], false, s)

/-- The rows that a MATMUL writes on one slice for a sequence: one, one per selected expert, or their weighted sum. COMBINE with an
integer output multiplies the unrounded INT32 sum by the FP32 routing weight (DESIGN CHOICE, log 97). -/
def State.matSlice (s : State) (c : OpCtx) (errs : List MediaErr) (d n : Nat) (t : Tensor) (z : Seq) : List (List FNum) × Flags × Bool × Bool × State :=
  let p := c.p
  let klen := t.kBlocks * 128
  let idx := refIdx p.src0
  let src (j : Nat) : List FNum × List FNum :=
    rowParts p.fmt0 p.scale0 klen (scratchRow z n idx (if (rowsOf z idx).1 = 1 then 0 else j) (rowLen p.fmt0 p.scale0 klen))
  let inFl (x : List FNum × List FNum) : Flags := readFlags x.1 ||| readFlags x.2
  if !p.routed then
    let (ts, bad, s) := s.loadTiles c errs d n t 0xFFFF
    let rows := (List.range (rowsOf z idx).1).map fun j =>
      let x := src j
      let (v, f) := matRow (d + 65536 * j) p.fmt0 p.scale0 t p.dfmt x.1 x.2 ts
      (v, f ||| inFl x)
    (rows.map (·.1), rows.foldl (fun a r => a ||| r.2) 0, bad, ts.any (·.2.2.bad), s)
  else
    let sel := tabGet [] z.routing (n * 4 + p.param0)
    let (rows, fl, bad, inv, s) := sel.zipIdx.foldl (fun (a : List (List FNum × Bool × FNum) × Flags × Bool × Bool × State) e =>
      let (rows, fl, bad, inv, s) := a
      let ((ex, w), j) := e
      let (ts, b, s) := s.loadTiles c errs d n t ex
      if t.experts ≤ ex then
        -- an expert that the tensor does not have: its row is a free value
        let v := (List.range (t.nBlocks * 128)).map fun k => num32 (ofLe ((List.range 4).map fun q => Config.freeByte (d + j) (4 * k + q)))
        (rows ++ [(v, n == ((List.range 8).find? (bit t.mask)).getD 0, num32 w)], fl, bad, inv, s)
      else
        let x := src j
        let (v, f) := matRow (d + 65536 * j) p.fmt0 p.scale0 t p.dfmt x.1 x.2 ts
        (rows ++ [(v, !ts.isEmpty, num32 w)], fl ||| f ||| (if ts.isEmpty then 0 else inFl x), bad || b, inv || ts.any (·.2.2.bad), s)) ([], 0, false, false, s)
    if !p.combine then (rows.map fun r => if r.2.1 then r.1 else List.replicate (t.nBlocks * 128) numZero, fl, bad, inv, s)
    else
      let own := rows.filter (·.2.1)
      let v : List (FNum × Flags) := (List.range (t.nBlocks * 128)).map fun ch =>
        let ps : List (FNum × Flags) := own.map fun r => mul32 r.2.2 (r.1.getD ch numZero)
        let (y, f) := freeSum (d + 77 + ch) (ps.map (·.1))
        (y, ps.foldl (fun a x => a ||| x.2) f)
      ([v.map (·.1)], v.foldl (fun a x => a ||| x.2) fl, bad, inv, s)

/-- MATMUL; poison of the routing table that selects its experts is poison of a source (R85). -/
def opMatmul (id : Nat) (errs : List MediaErr) (s : State) : State :=
  match s.opAt id 1 [] with
  | none => s
  | some c =>
    match findTensor c.m.tensors c.st.layer (refIdx c.p.src1) with
    | none => s
    | some t =>
      let p := c.p
      let ns := (List.range 8).filter (bit t.mask)
      let (d, s) := s.draw
      let (s, fl) := (s.opSeqs c).foldl (fun (a : State × Flags) e =>
        let (q, z) := e
        let (s, outs, fl, bad, inv) := ns.foldl (fun (b : State × List (Nat × List Bytes) × Flags × Bool × Bool) n =>
          let (s, outs, fl, bad, inv) := b
          let (rows, f, w, v, s) := s.matSlice c errs d n t z
          let conv := rows.map (convRow p.dfmt)
          (s, outs ++ [(n, conv.map (·.1))], conv.foldl (fun a r => a ||| r.2) (fl ||| f), bad || w, inv || v)) (a.1, [], a.2, false, false)
        let s := s.setSeq q (writeRows z (hostSlice q) p.dst outs)
        let s := if bad then s.modStep id fun x => { x with poisonW := true } else s
        let s := if inv then s.modStep id fun x => { x with conds := setBit x.conds 6 true } else s
        let srcs := if p.routed then [p.src0, 2 ^ 30 + p.param0] else [p.src0]
        (s.taintOp c q srcs p.dst bad (srcs.any (tainted z)), fl)) (s, 0)
      s.opDone c fl

/-! ### ATTEND (03 R75, R84) -/

/-- A step that may bring a KV block back keeps the home that it has as its content changes for the first time (04 R128). -/
def State.keepHome (s : State) (q : Nat) (k : KvBlk) : State :=
  let fix (b : KvBlk) : KvBlk := if b.same k && b.data == k.data then { b with ent := k.ent } else b
  let seqs (l : Tab Seq) : Tab Seq := l.map fun e => if e.1 = q then (e.1, { e.2 with kv := e.2.kv.map fix }) else e
  s.setEng { s.eng with steps := s.eng.steps.map fun e => (e.1, { e.2 with before := seqs e.2.before }) }

/-- A home is that of a KV block which a running step may bring back. -/
def State.keptHome (s : State) (n : Nat) (o : Home) : Bool :=
  s.eng.steps.any fun e => (s.keptKv e.2).any fun k => k.slice == n && k.ent.home.any fun h => h.tier == o.tier && h.ma == o.ma

/-- A KV block stored at its home: in the tier that its part of the reservation lies in (06 R181, R183), or in the other where the
tenant's quota has room. A move of it ends. -/
def State.storeKv (s : State) (h q layer head blk n : Nat) (data : Bytes) : State :=
  match s.seq q, s.model h with
  | some z, some m =>
    let i := Item.kv h q layer head blk
    let s := match z.kv.find? fun k => k.layer == layer && k.head == head && k.blk == blk with
      | some k => s.keepHome q k
      | none => s
    let s := match s.moveOf i with
      | some v => s.endMove v
      | none => s
    let fresh := !(z.kv.any fun k => k.layer == layer && k.head == head && k.blk == blk)
    let k : KvBlk := { layer := layer, head := head, blk := blk, slice := n, data := data }
    let put (x : KvBlk) : KvBlk := if x.layer == layer && x.head == head && x.blk == blk then { x with data := data } else x
    let z' : Seq := if fresh then { z with kv := z.kv ++ [k] } else { z with kv := z.kv.map put }
    let s := s.setSeq q z'
    let (b, s) := s.condenseOn n (kvClass m.kvFmt) m.kvStrength 2 m.kvFmt true data
    let raw := kvRaw m.kvStrength
    let used2 := s.eng.seqs.foldl (fun c y => if y.2.handle = h then c + (y.2.kv.filter fun k => k.ent.home.any fun o => o.tier == 2).length * raw else c) 0
    let old := s.homeOf i
    let want := match old with
      | some o => o.tier
      | none => if used2 + raw ≤ m.kvT2 then 2 else 1
    let place (tier : Nat) : Option Home := (s.alloc n tier (b.sectors * 256)).map fun a => { tier := tier, ma := a.1, skips := a.2, blk := some b }
    let again := match old with
      | some o => if b.sectors * 256 ≤ homeLen o && (s.homeFrozen n o 0 (homeLen o)).isNone && !s.keptHome n o then
          some { o with blk := some b } else none
      | none => none
    let other := if s.quotaLeft m.tenant (3 - want) < raw then none else place (3 - want)
    match again <|> place want <|> other with
    | none => s
    | some d =>
      let s := (s.storeHome i d false).countBlock n b
      let s := match old with
        | some o => s.kvCharge i o.tier d.tier
        | none => if d.tier = want then s else s.kvCharge i want d.tier
      let s := s.access n d 0 (homeLen d) true (s.tq m.tenant).cls
      s.setEng { s.eng with t0 := s.eng.t0.filter fun c => c.item != i }
  | _, _ => s

/-- Bytes of a token in a KV block, keys then values. -/
def kvSpan (m : Model) (tok : Nat) (val : Bool) : Nat × Nat :=
  let eb := fmtBits m.kvFmt / 8
  let tpb := kvTokens m.headDim m.kvFmt
  ((if val then tpb * m.headDim * eb else 0) + (tok % tpb) * m.headDim * eb, m.headDim * eb)

/-- Bytes replaced from an offset. -/
def patch (b : Bytes) (off : Nat) (x : Bytes) : Bytes := slice b 0 off ++ x ++ b.drop (off + x.length)

/-- The data of a KV block, all zero before it is written. -/
def kvData (z : Seq) (layer head blk : Nat) : Bytes :=
  ((z.kv.find? fun k => k.layer == layer && k.head == head && k.blk == blk).map (·.data)).getD (List.replicate 4096 0)

/-- A KV block of the sequence is poison to the step. -/
def State.kvBad (s : State) (h q : Nat) (k : KvBlk) : Bool :=
  k.ent.poisoned || (k.ent.home.any fun o => (s.homeFrozen k.slice o 0 (homeLen o)).isSome && !s.inT0 k.slice (kvItem h q k) 0)

/-- Attention of one query head over the cached tokens. -/
def attendHead (d fq fkv : Nat) (scale : FNum) (q : List FNum) (ks vs : List (List FNum)) : List FNum × Flags :=
  let dot (t : Nat) (k : List FNum) : FNum × Flags :=
    let pr : List (FNum × Flags) := (q.zip k).map fun v => if fq = 0 || fkv = 0 then mul32 v.1 v.2 else (numMul v.1 v.2, 0)
    let (x, f) := freeSum (d + t) (pr.map (·.1))
    let (y, f') := mul32 x scale
    (y, pr.foldl (fun a v => a ||| v.2) (f ||| f'))
  let sc := ks.zipIdx.map fun k => dot k.2 k.1
  let (w, f0) := softmax d (sc.map (·.1))
  let out : List (FNum × Flags) := (List.range q.length).map fun j =>
    let pr : List (FNum × Flags) := (w.zip vs).map fun v => mul32 v.1 (v.2.getD j numZero)
    let (x, f) := freeSum (d + 1000000 + j) (pr.map (·.1))
    (x, pr.foldl (fun a v => a ||| v.2) f)
  (out.map (·.1), out.foldl (fun a v => a ||| v.2) (sc.foldl (fun a v => a ||| v.2) f0))

/-- The new token's keys and values appended for one head (R84, 02 R51), and the head's results. A step that R92 admitted appends
its token even where another step has filled the context since (DESIGN CHOICE, log 98). -/
def State.attendKv (s : State) (c : OpCtx) (d q n head : Nat) (qv kv vv : List FNum) : List FNum × Flags × State :=
  match s.seq q with
  | none => ([], 0, s)
  | some z =>
    let m := c.m
    let lay := c.st.layer
    let tpb := kvTokens m.headDim m.kvFmt
    let tok := z.tokens
    let seg (v : List FNum) : List FNum := (List.range m.headDim).map fun j => v.getD (head * m.headDim + j) numZero
    let (kb, f0) := convRow m.kvFmt (seg kv)
    let (vb, f1) := convRow m.kvFmt (seg vv)
    let blk := tok / tpb
    let data := patch (patch (kvData z lay head blk) (kvSpan m tok false).1 kb) (kvSpan m tok true).1 vb
    let s := s.storeKv c.st.desc.model q lay head blk n data
    let z := (s.seq q).getD z
    let rd (t : Nat) (val : Bool) : List FNum :=
      let (o, len) := kvSpan m t val
      (unpackCodes m.kvFmt m.headDim (slice (kvData z lay head (t / tpb)) o len)).map (decodeNum m.kvFmt)
    let ks := (List.range (tok + 1)).map fun t => rd t false
    let vs := (List.range (tok + 1)).map fun t => rd t true
    let scale := if c.p.param0 = 0 then (rsqrt32 (numOfInt (m.headDim : Nat))).1 else num32 c.p.param0
    let heads := (List.range m.qPerKv).map fun g =>
      attendHead (d + 2000000 * (head * m.qPerKv + g)) c.p.fmt0 m.kvFmt scale
        ((List.range m.headDim).map fun j => qv.getD ((head * m.qPerKv + g) * m.headDim + j) numZero) ks vs
    ((heads.map (·.1)).flatten, heads.foldl (fun a h => a ||| h.2) (f0 ||| f1), s)

/-- The KV blocks that an ATTEND reads on a slice: the bits in error on the media of each, unless T0 holds a copy. The second answer
is true where one was uncorrectable. -/
def State.readKv (s : State) (errs : List MediaErr) (h q n cls d : Nat) (l : List KvBlk) : State × Bool :=
  l.foldl (fun (a : State × Bool) k =>
    let (s, bad) := a
    let i := kvItem h q k
    match k.ent.home.map fun o => (o, o.blk) with
    | some (o, some b) =>
      let copy := s.inT0 n i 0
      let dead := k.ent.poisoned || (s.homeFrozen n o 0 (homeLen o)).isSome
      let s := (if copy || dead then s else s.access n o 0 (homeLen o) false cls).sampleHeat i 1
      if dead then (s, bad)
      else match s.readItem i o b (if copy then [] else errsOf errs i) 0 (s.eyepiece n d) 0 with
        | (some _, s) => (s, bad)
        | (none, s) => (s, true)
    | _ => (s, bad)) (s, false)

def opAttend (id : Nat) (errs : List MediaErr) (s : State) : State :=
  match s.opAt id 2 [] with
  | none => s
  | some c =>
    let p := c.p
    let m := c.m
    let h := c.st.desc.model
    let qlen := m.kvHeads * m.qPerKv * m.headDim
    let klen := m.kvHeads * m.headDim
    let (d, s) := s.draw
    let (s, fl) := (s.opSeqs c).foldl (fun (a : State × Flags) e =>
      let (q, z) := e
      let host := hostSlice q
      let ns := if m.kvSplit = 1 then [host] else ((List.range m.kvHeads).map (kvHome s.cfg.slices)).eraseDups
      let bad := z.kv.any fun k => k.layer == c.st.layer && a.1.kvBad h q k
      let (s, outs, fl, worse) := ns.foldl (fun (b : State × List (Nat × List Bytes) × Flags × Bool) n =>
        let (s, hurt) := b.1.readKv errs h q n c.cur.cls (d + q) (kvOn z c.st.layer n)
        let (qs, f0) := operandRows c.l z host n p.src0 p.fmt0 p.scale0 qlen
        let (ks, f1) := operandRows c.l z host n p.src1 p.fmt1 p.scale1 klen
        let (vs, f2) := operandRows c.l z host n (p.src1 + 1) p.fmt1 p.scale1 klen
        let mine := (List.range m.kvHeads).filter fun k => m.kvSplit == 1 || kvHome s.cfg.slices k == n
        let (s, rows, f3) := mine.foldl (fun (g : State × List (Nat × List FNum) × Flags) k =>
          let (o, f, s) := g.1.attendKv c d q n k (qs.headD []) (ks.headD []) (vs.headD [])
          (s, g.2.1 ++ [(k, o)], g.2.2 ||| f)) (s, [], f0 ||| f1 ||| f2)
        let per := m.qPerKv * m.headDim
        let row := (List.range qlen).map fun ch => match rows.find? fun r => r.1 == ch / max 1 per with
          | some r => r.2.getD (ch % max 1 per) numZero
          | none => numZero
        let (bts, f4) := convRow p.dfmt row
        (s, b.2.1 ++ [(n, [bts])], b.2.2.1 ||| f3 ||| f4, b.2.2.2 || hurt)) (a.1, [], a.2, false)
      let bad := bad || worse
      match s.seq q with
      | none => (s, fl)
      | some z =>
        let s := s.setSeq q (writeRows z host p.dst outs)
        let s := s.taintOp c q [p.src0, p.src1, p.src1 + 1] p.dst bad false
        (if bad then s.poisonSeq c q else s, fl)) (s, 0)
    s.opDone c fl

def execMatmul (step : EngRead) (s : State) : Host.Outcome State Fault Refusal := .next (opMatmul step.step step.errs s)
def execAttend (step : EngRead) (s : State) : Host.Outcome State Fault Refusal := .next (opAttend step.step step.errs s)
def execNorm (step : Nat) (s : State) : Host.Outcome State Fault Refusal := .next (opNorm step s)
def execAct (step : Nat) (s : State) : Host.Outcome State Fault Refusal := .next (opAct step s)
def execRotate (step : Nat) (s : State) : Host.Outcome State Fault Refusal := .next (opRotate step s)
def execRoute (step : Nat) (s : State) : Host.Outcome State Fault Refusal := .next (opRoute step s)
def execGatherConcat (step : Nat) (s : State) : Host.Outcome State Fault Refusal := .next (opGather false step s)
def execGatherSum (step : Nat) (s : State) : Host.Outcome State Fault Refusal := .next (opGather true step s)
def execGatherInput (step : Nat) (s : State) : Host.Outcome State Fault Refusal := .next (opGatherInput step s)
def execScatterBroadcast (step : Nat) (s : State) : Host.Outcome State Fault Refusal := .next (opBroadcast step s)
def execScatterSplit (step : Nat) (s : State) : Host.Outcome State Fault Refusal := .next (opSplit step s)
def execAdd (step : Nat) (s : State) : Host.Outcome State Fault Refusal := .next (opAdd step s)
def execQuant (step : Nat) (s : State) : Host.Outcome State Fault Refusal := .next (opQuant step s)
def execCopyOut (step : Nat) (s : State) : Host.Outcome State Fault Refusal := .next (opCopyOut step s)

end Sys2Proof.Machine
end

