-- ==== Sys2Proof/Machine/Joins.lean ====
section
/-! DEFINITION. CONSTELLATION_JOIN: admission, joining with an attestation report, leaving (08 R255-R257, 14 R501). -/
namespace Sys2Proof.Machine
open Sys2Proof

/-- CONSTELLATION_JOIN ADMIT. -/
def admitCmd (inp : Bytes) (s : State) : Reply :=
  if s.fab.masterLost then fail s .busy
  else if !s.fab.isMaster then fail s .invalidInput
  else
    let serial := slice inp 16 16
    ok (s.setFab { s.fab with admitted := (s.fab.admitted.filter fun a => a.1 != serial) ++ [(serial, fld inp 1 1)] })

/-- The nonce of a joiner's report: the constellation ID and the epoch of the neighbour's HELLO (14 R501). -/
def joinNonce (cid epoch : Nat) : Bytes := slice (flds [(8, cid), (4, epoch)]) 0 32

/-- The neighbour by which a module joins a constellation: the lowest port whose HELLO named it (R256, log 24). -/
def State.joinNeighbour (s : State) (cid : Nat) : Option Nat :=
  (List.range 6).find? fun p => (s.peer p).link == 2 && (s.peer p).cid == cid && ((s.peer p).neighbour != 0xFF || (s.peer p).nmaster != 0xFF)

/-- CONSTELLATION_JOIN JOIN: JOIN_REQ, with serial, level and the report with its certificates, goes to the master by way of
a neighbour of that constellation. -/
def joinCmd (v : Iface) (inp : Bytes) (s : State) : Reply :=
  if s.fab.masterLost then fail s .busy
  else if s.fab.mstate != 0 then fail s .invalidInput
  else if s.fw.identityLost then fail s .internalError
  else
    let cid := fld inp 8 8
    let s := s.setFab { s.fab with mstate := 1, joinVia := some (v, s.tbc), joinId := cid }
    started (match s.joinNeighbour cid with
      | some p => s.mgmtOn p 0x22 (s.peer p).nmaster [s.fw.running.level]
          (slice s.cfg.serial 0 16 ++ s.attestReport (joinNonce cid (s.peer p).nepoch))
      | none => s)

/-- CONSTELLATION_JOIN LEAVE: the master is asked to take the module out of its table (R257, log 87). -/
def leaveCmd (v : Iface) (s : State) : Reply :=
  if s.fab.masterLost then fail s .busy
  else if s.fab.mstate != 2 || s.fab.isMaster || s.fab.lw.any (·.2.valid) || s.fab.pw.any (·.2.valid) then fail s .invalidInput
  else
    let s := s.setFab { s.fab with mstate := 3, joinVia := some (v, s.tbc) }
    started (s.mgmt 0x22 s.fab.master [s.fw.running.level] (slice s.cfg.serial 0 16))

/-- CONSTELLATION_JOIN by its ACTION; a reserved code is Invalid Input (00 R10). -/
def joinActionCmd (v : Iface) (inp : Bytes) (s : State) : Reply :=
  match fld inp 0 1 with
  | 0 => admitCmd inp s
  | 1 => joinCmd v inp s
  | 2 => leaveCmd v s
  | _ => fail s .invalidInput

def rowJoin : Row := { op := 0xC042, thru := 8, flash := true, lo := 32, hi := 32 }
def execConstellationJoinAdmit (via : Iface) (inp : Bytes) (s : State) : Host.Outcome State Fault Refusal :=
  .next (mbxCall rowJoin (.constellationJoinAdmit via inp) via inp.length s (joinActionCmd via inp))
def execConstellationJoinJoin (via : Iface) (inp : Bytes) (s : State) : Host.Outcome State Fault Refusal :=
  .next (mbxCall rowJoin (.constellationJoinJoin via inp) via inp.length s (joinActionCmd via inp))
def execConstellationJoinLeave (via : Iface) (inp : Bytes) (s : State) : Host.Outcome State Fault Refusal :=
  .next (mbxCall rowJoin (.constellationJoinLeave via inp) via inp.length s (joinActionCmd via inp))

end Sys2Proof.Machine
end

