-- ==== Sys2Proof/Machine/Power.lean ====
section
/-! DEFINITION. Module power and environment: the input monitor, the brown-out guard, input loss and the hold-up bank, faults
survived, and thermal limits (17). -/
namespace Sys2Proof.Machine
open Sys2Proof

/-! ### The input (R554-R558) -/

/-- POWER_ENABLE: PWR_EN_N has been tied for 10 ms; J-SVC is sampled as 48 V is applied (13 R456). -/
def powerEnable (jumper : Bool) (s : State) : State :=
  if s.pwr.state != 0 then s
  else
    let s := s.until (s.tbc + 10 * ms)
    let s := s.setMbx { s.mbx with jumper := jumper, jumperSample := jumper }
    if jumper then s.presEvent 0 2 0 else s

/-- Since when a condition holds. -/
def since (holds : Bool) (old : Option Nat) (now : Nat) : Option Nat := if holds then some (old.getD now) else none

/-- INPUT_SAMPLE: every 10 microseconds, against the thresholds of R558. -/
def inputSample (mv : Nat) (s : State) : State :=
  let s := s.until (s.pwr.sampledAt + 10 * us)
  let p := s.pwr
  let low := decide (mv < p.warnMv)
  s.setPwr { p with
    inputMv := mv
    sampledAt := s.tbc
    minMv := min p.minMv mv
    minStatus := min p.minStatus mv
    guardMin := if p.guard then min p.guardMin mv else p.guardMin
    qualMin := if low then (if p.belowWarn.isSome then min p.qualMin mv else mv) else 0xFFFF
    overvolt := p.overvolt || decide (60000 < mv)
    belowWarn := since low p.belowWarn s.tbc
    aboveExit := since (decide (p.warnMv + 1000 < mv)) p.aboveExit s.tbc
    aboveStart := since (decide (40000 ≤ mv)) p.aboveStart s.tbc
    belowReset := since (decide (mv < 36000)) p.belowReset s.tbc
    above60 := since (decide (60000 < mv)) p.above60 s.tbc }

/-! ### The guard (R559-R561) -/

/-- A BROWNOUT_GUARD record. -/
def State.guardRecord (s : State) (log kind minMv durationUs deferred : Nat) : State :=
  (s.record log 0x0010 (flds [(1, kind), (1, 0), (2, s.pwr.warnMv), (4, minMv), (4, min durationUs 0xFFFFFFFF), (2, min deferred 0xFFFF),
    (2, 0), (8, s.tbc)])).signalPf0 6

/-- BROWNOUT_GUARD_ENTER: 10 ms below WARN_MV, above the reset level. -/
def guardEnter (s : State) : State :=
  match s.pwr.belowWarn with
  | none => s
  | some t =>
    if s.pwr.state != 2 || s.pwr.guard || s.pwr.belowReset.isSome then s
    else
      let s := s.until (t + 10 * ms)
      let s := s.setPwr { s.pwr with guard := true, guardAt := s.tbc, guardMin := s.pwr.inputMv, guardEntries := s.pwr.guardEntries + 1 }
      s.guardRecord 1 0 s.pwr.qualMin 0 0

/-- A flash write of the module's own that waited in the guard is tried. Boot-control records and image steps are tried by
the commands that stand for them. -/
def State.flashReleased (s : State) (kind : Nat) : State :=
  if kind = 0 then retireListSave s else if kind = 1 then s.sealWrite else s

/-- BROWNOUT_GUARD_EXIT: 10 ms above WARN_MV + 1,000 mV; the writes that waited are let go. -/
def guardExit (s : State) : State :=
  match s.pwr.aboveExit with
  | none => s
  | some t =>
    if !s.pwr.guard then s
    else
      let s := s.until (t + 10 * ms)
      let l := s.pwr.deferred
      let s := s.guardRecord 0 1 s.pwr.guardMin ((s.tbc - s.pwr.guardAt) / 1000) l.length
      let s := s.setPwr { s.pwr with guard := false, belowWarn := none, qualMin := 0xFFFF, deferred := [] }
      l.foldl (fun s k => s.flashReleased k) s

/-! ### Input loss and the bank (R562, R563) -/

/-- The time at which the input counts as lost, if it does (R558). -/
def State.lossAt (s : State) : Option Nat :=
  if 80000 < s.pwr.inputMv then some s.tbc
  else match s.pwr.belowReset with
    | some t => some (t + 20 * us)
    | none => s.pwr.above60.map (· + 100 * ms)

/-- INPUT_LOSS: every content is gone, and the management cores halt on the bank. -/
def inputLoss (s : State) : State :=
  match s.lossAt with
  | none => s
  | some t =>
    if s.pwr.state != 2 then s
    else
      let s := (s.until t).cleared false
      s.setPwr { s.pwr with state := 1, sampledAt := s.tbc }

/-- BANK_EXHAUSTED: at 30 V the rail turns off. -/
def bankExhausted (s : State) : State :=
  if s.pwr.state != 1 then s else s.clearedPower.setPwr { s.pwr with state := 0, bankMv := 30000 }

/-- HOLDUP_TEST: at step 2 of the start, then an hour after the end of the last; a failed test is recorded (R563, R565). -/
def holdupTest (esr rechargeUs : Nat) (s : State) : State :=
  if s.pwr.state != 2 || s.pwr.guard || (!s.pwr.testing && s.pwr.testAt.isNone) then s
  else
    let s := if s.pwr.testing then s else s.until ((s.pwr.testAt.getD 0) + 3600000 * ms)
    let cap := rechargeUs / 8
    let e := if 200 < esr then 0 else cap * 702 / 1000
    let s := s.setPwr { s.pwr with esr := esr, capUf := cap, energyMj := e, bankMv := 48000, testing := false, testAt := some s.tbc }
    if e < 1200 then
      (s.record 1 0x0011 (s.holdupRecord 0 s.prewriteFailed)).setPwr { (s.record 1 0x0011 (s.holdupRecord 0 s.prewriteFailed)).pwr with refused := 0 }
    else s

/-! ### Faults survived (R566) -/

def sbShort (s : State) : State := if s.pwr.state = 0 then s else s.setPwr { s.pwr with sbShort := true }

/-- SMBUS_TIMEOUT: the MCTP endpoint's interface is reset; its identity and a background operation stay. -/
def smbusTimeout (s : State) : State :=
  if s.pwr.state = 0 then s else s.modIface .mctp fun i => { i with ret := .success, opcode := 0, payload := [] }

/-! ### Thermal limits (R568-R570) -/

/-- The throttle step of a slice changes, under R549 and R550. -/
def State.throttle (s : State) (n step : Nat) : State :=
  if step = (s.ck n).thrStep then s else (s.modCk n fun c => { c with thrStep := step }).retarget n

/-- JUNCTION_POLL: every 100 microseconds. -/
def junctionPoll (n c : Nat) (s : State) : State :=
  if !s.up n then s
  else
    let s := s.until ((s.ck n).polledAt + 100 * us)
    let k := s.ck n
    let hot := since (decide (105 ≤ c)) k.hotSince s.tbc
    let cool := since (decide (c ≤ 100)) k.coolSince s.tbc
    let trip := since (decide (115 ≤ c)) k.tripSince s.tbc
    let up := hot.any fun t => t + 1 * ms ≤ s.tbc
    let down := cool.any fun t => t + 100 * ms ≤ s.tbc
    let s := s.modCk n fun k => { k with junction := c, polledAt := s.tbc, tripSince := trip,
                                         hotSince := if up then some s.tbc else hot, coolSince := if down then some s.tbc else cool }
    if trip.any fun t => t + 100 * us ≤ s.tbc then sliceLost n 8 s
    else
      let low := if k.memHot then 3 else 0
      s.throttle n (if up then min 4 (k.thrStep + 1) else if down then max low (k.thrStep - 1) else k.thrStep)

/-- Memory over-temperature of a slice after a poll (R569). -/
def State.memHeat (s : State) (n : Nat) (temps : List Nat) : State :=
  let k := s.ck n
  let tooHot := decide ((s.drcReg n).t2Over != 0)
  let at_ := if tooHot then some s.tbc else k.overAt
  let clear := !tooHot && at_.all fun t => t + 1000 * ms ≤ s.tbc
  let hot := (temps.any (95 < ·)) || tooHot || (k.memHot && !(temps.all (· ≤ 90) && clear))
  let s := s.modCk n fun k => { k with memHot := hot, overAt := at_, hbmMax := temps.foldl max 0 }
  s.throttle n (if hot then max 3 k.thrStep else k.thrStep)

/-- TEMP_POLL: refresh rates, memory over-temperature, and the trip of a stack (10 R323, R569, R570). -/
def tempPoll (n : Nat) (temps mr4 : List Nat) (s : State) : State :=
  if !s.up n then s
  else
    let ts := temps.take 3
    let s := (pollRefresh n temps mr4 s).memHeat n ts
    if ts.any (105 ≤ ·) then sliceLost n 8 s else s

def execPowerEnable (jumper : Bool) (s : State) : Host.Outcome State Fault Refusal := .next (powerEnable jumper s)
def execInputSample (mv : Nat) (s : State) : Host.Outcome State Fault Refusal := .next (inputSample mv s)
def execBrownoutGuardEnter (s : State) : Host.Outcome State Fault Refusal := .next (guardEnter s)
def execBrownoutGuardExit (s : State) : Host.Outcome State Fault Refusal := .next (guardExit s)
def execInputLoss (s : State) : Host.Outcome State Fault Refusal := .next (inputLoss s)
def execBankExhausted (s : State) : Host.Outcome State Fault Refusal := .next (bankExhausted s)
def execHoldupTest (esr rechargeUs : Nat) (s : State) : Host.Outcome State Fault Refusal := .next (holdupTest esr rechargeUs s)
def execSbShort (s : State) : Host.Outcome State Fault Refusal := .next (sbShort s)
def execSmbusTimeout (s : State) : Host.Outcome State Fault Refusal := .next (smbusTimeout s)
def execJunctionPoll (slice celsius : Nat) (s : State) : Host.Outcome State Fault Refusal := .next (junctionPoll slice celsius s)
def execTempPoll (slice : Nat) (temps mr4 : List Nat) (s : State) : Host.Outcome State Fault Refusal :=
  .next (tempPoll slice temps mr4 s)

end Sys2Proof.Machine
end

