-- ==== Sys2Proof/Machine/StdCmds.lean ====
section
/-! DEFINITION. The standard CXL commands with their limits (13 R429, R430; log 12), commands that no interface accepts
(R421, R425), GET_DEVICE_PROFILE and GET_SLICE_STATUS (R431, R432). -/
namespace Sys2Proof.Machine
open Sys2Proof

/-- The link of a PF0 mailbox. -/
def viaLink (v : Iface) : Nat :=
  match v with
  | .pf0 l => l
  | .pf1 p => 2 * p
  | .mctp => 8

def strNats (b : Bytes) : List Nat := b.map (·.toNat)

/-! ### Opcodes (R427, R430) -/

/-- Every opcode with the interfaces that accept it (bit 0 PF0, 1 PF1, 2 M, 3 FM). -/
def acceptedOps : List (Nat × Nat) :=
  [(0x0001, 7), (0x0002, 7), (0x0005, 7), (0x0100, 5), (0x0101, 5), (0x0102, 1), (0x0103, 1), (0x0200, 5), (0x0300, 5), (0x0301, 5),
   (0x0400, 7), (0x0401, 7), (0x4000, 5), (0x4200, 5), (0x4300, 5), (0x4301, 1), (0x4302, 1), (0x4800, 1), (0x4801, 1), (0x4802, 1),
   (0x4803, 1), (0x5604, 8), (0x5605, 8)] ++
  [(0xC000, 7), (0xC001, 5), (0xC010, 6), (0xC011, 6), (0xC012, 6), (0xC013, 6), (0xC018, 8), (0xC019, 8), (0xC020, 6), (0xC021, 6),
   (0xC028, 8), (0xC029, 8), (0xC02A, 5), (0xC030, 8), (0xC031, 5), (0xC032, 8), (0xC038, 5), (0xC039, 5), (0xC03A, 5), (0xC040, 8),
   (0xC041, 8), (0xC042, 8), (0xC043, 5), (0xC044, 8), (0xC048, 5)] ++
  [(0xC050, 5), (0xC051, 5), (0xC058, 8), (0xC059, 8), (0xC05A, 8), (0xC05B, 5), (0xC05C, 8), (0xC060, 5), (0xC061, 7), (0xC062, 5),
   (0xC063, 5), (0xC064, 5), (0xC068, 8), (0xC069, 5), (0xC070, 5), (0xC071, 5), (0xC072, 5)]

/-- UNSUPPORTED_COMMAND: an opcode that the interface does not accept. -/
def unsupportedCmd (v : Iface) (op : Nat) (s : State) : State :=
  if acceptedOps.any fun r => r.1 == op && s.accepts r.2 v then s
  else mbxCall { op := op, thru := 7 } (.unsupportedCommand v op) v 0 s fun s => fail s .unsupported

/-- Opcodes that an interface accepts, for the Command Effects Log. -/
def State.opsOf (s : State) (v : Iface) : List Nat := (acceptedOps.filter fun r => s.accepts r.2 v).map (·.1)

/-! ### Identity, status, health -/

def identifyCmd (s : State) : Reply := ok s (Config.cxlPayload "Identify" (Config.vendorId :: strNats s.cfg.serial))

/-- Share of a background operation done: that of a self-test run is counted, any other is a free value. -/
def State.bgPercent (s : State) (b : Bg) : Nat :=
  match b.opcode == 0xC050, s.bistRun with
  | true, some r => r.percent
  | _, _ => s.draw.1 % 100

def bgStatusCmd (v : Iface) (s : State) : Reply :=
  let i := s.iface v
  match i.bg with
  | none => ok s (Config.cxlPayload "Background Operation Status" (match i.lastBg with
      | none => [0, 0, 0, 0]
      | some x => [0, x.1, 100, retCode x.2]))
  | some b => ok s.draw.2 (Config.cxlPayload "Background Operation Status" [1, b.opcode, s.bgPercent b, 0])

/-- A run that is aborted: slices between suites stop there, the others at the end of their suite (18 R582). -/
def BistRun.stopped (r : BistRun) : BistRun :=
  { r with state := 3, res := r.members.foldl (fun t n =>
      if (r.of n).cur = 15 then tabSet t n { r.of n with ended := (r.of n).ended ||| r.todo } else t) r.res }

/-- Request Abort Background Operation, on the operation of the interface. -/
def abortBgCmd (v : Iface) (s : State) : Reply :=
  match (s.iface v).bg with
  | none => ok s
  | some b =>
    if b.opcode = 0xC050 then
      match s.bistRun with
      | some r => { ret := .success, st := s.putRun r.stopped, after := fun s => s.bistAdvance r.num }
      | none => ok s
    else if b.opcode = 0xC058 && s.forwarding then
      let stop (s : State) : State := s.setFw { s.fw with chain := s.fw.chain.map fun c => { c with next := none } }
      { ret := .success, st := s, after := fun s =>
          let s := stop s
          match s.fw.write with
          | some w => s.writeEnds w 16 0
          | none => s.offerEnds 16 s.fw.base }
    else if b.opcode = 0xC010 then
      -- whether the first tile is stored by now is free
      let d := s.draw
      if d.1 % 2 = 0 then { ret := .success, st := d.2, after := fun s => s.abandonLoad (b.args.headD 0) .aborted }
      else fail d.2 .unsupported
    else fail s .unsupported

def identifyMemCmd (v : Iface) (s : State) : Reply :=
  let p := s.port (viaLink v)
  let cap := match p.cxlGen == 1 || p.cxlGen == 2, p.static with
    | true, some r => r.2
    | _, _ => 0
  ok s (Config.cxlPayload "Identify Memory Device" [cap, cap, 0, 0, 256, 64])

def healthCmd (s : State) : Reply :=
  ok s (Config.cxlPayload "Get Health Info" [(s.upSlices.map fun n => (s.ck n).junction).foldl max 0, 0])

def fwInfoCmd (s : State) : Reply :=
  let f := s.fw
  ok s (Config.cxlPayload "Get FW Info" ([2, f.journal.active, b2n f.main.ok, b2n f.fallback.ok] ++ strNats (slice f.main.version 0 16) ++
    strNats (slice f.fallback.version 0 16)))

/-! ### Event logs (R428, R429, 12 R401) -/

/-- The vendor UUID of every record, 7b9e4c21-5a0d-4f3e-9c61-2d84e0a17f53 (R428). -/
def recordUuid : Bytes :=
  [0x7B, 0x9E, 0x4C, 0x21, 0x5A, 0x0D, 0x4F, 0x3E, 0x9C, 0x61, 0x2D, 0x84, 0xE0, 0xA1, 0x7F, 0x53]

/-- The 80 B of record data: the event code, six reserved bytes, the payload (R428). -/
def recData (r : Rec) : Bytes := flds [(2, r.code), (6, 0)] ++ slice r.payload 0 72

def recFacts (r : Rec) : List Nat := strNats recordUuid ++ [r.handle, r.time] ++ strNats (recData r)

/-- Get Event Records: the oldest records that fit. -/
def getEventsCmd (v : Iface) (log : Nat) (s : State) : Reply :=
  if 4 ≤ log then fail s .invalidInput
  else
    let g := tabGet ({} : Log) s.mbx.logs log
    let l := g.recs.take ((ifaceLimit v - 32) / 128)
    ok s (Config.cxlPayload "Get Event Records" ([log, b2n (l.length < g.recs.length), g.overflow, g.firstOverflow, g.lastOverflow, l.length] ++
      l.flatMap recFacts))

/-- Clear Event Records: all, or the handles of the oldest records in their order. -/
def clearEventsCmd (log : Nat) (all : Bool) (hs : List Nat) (s : State) : Reply :=
  if 4 ≤ log then fail s .invalidInput
  else
    let g := tabGet ({} : Log) s.mbx.logs log
    let n := if all then g.recs.length else hs.length
    if !all && (g.recs.take n).map (·.handle) != hs then fail s .invalidHandle
    else if n = 0 && !all then ok s
    else ok (s.setMbx { s.mbx with logs := tabSet s.mbx.logs log { recs := g.recs.drop n, next := g.next } })

def getPolicyCmd (v : Iface) (s : State) : Reply :=
  ok s (Config.cxlPayload "Get Event Interrupt Policy" ((s.fn (.pf0 (viaLink v))).policy.zipIdx.flatMap fun p => [b2n p.1, p.2 + 1]))

/-- Set Event Interrupt Policy: mode 1 selects MSI-X for a log. -/
def setPolicyCmd (v : Iface) (modes : List Nat) (s : State) : Reply :=
  ok (s.modFn (.pf0 (viaLink v)) fun f => { f with policy := (List.range 4).map fun k => modes.getD k 0 % 4 == 1 })

def supportedLogsCmd (v : Iface) (s : State) : Reply := ok s (Config.cxlPayload "Get Supported Logs" [1, (s.opsOf v).length])
def getLogCmd (v : Iface) (s : State) : Reply := ok s (Config.cxlPayload "Get Log" (s.opsOf v))

/-! ### Timestamp -/

def getTimestampCmd (s : State) : Reply := ok s (le 8 s.clockTime)
def setTimestampCmd (ns : Nat) (s : State) : Reply :=
  ok (s.setMbx { s.mbx with timestamp := some (ns % 2 ^ 64, s.tbc), stampSet := true })

/-! ### Poison (11 R354, 07 R217) -/

/-- Lines set in the poison masks of pool pages, ascending. -/
def State.poisonLines (s : State) : List Nat :=
  s.pool.pages.flatMap fun p => if p.2.poison = 0 then [] else
    (List.range 64).filterMap fun k => if bit p.2.poison.toNat k then some (64 * p.1 + k) else none

def getPoisonCmd (start len : Nat) (s : State) : Reply :=
  let l := s.poisonLines.filter fun n => start ≤ n * 64 && n * 64 < start + len
  ok s (Config.cxlPayload "Get Poison List" ([b2n (256 < l.length), min l.length 256] ++ (l.take 256).map (· * 64)))

/-- A host of the link for which the extent of a DPA is added. -/
def State.linkHost (s : State) (l dpa : Nat) : Option (Nat × Extent) :=
  match s.extentOf dpa with
  | none => none
  | some (_, e) => (e.hosts.find? fun h => s.hostLink h == l).map fun h => (h, e)

/-- Inject Poison: at most 64 lines that it has recorded are poison at a time. -/
def injectPoisonCmd (v : Iface) (dpa : Nat) (s : State) : Reply :=
  let line := dpa / 64
  if dpa % 64 != 0 || (s.linkHost (viaLink v) dpa).isNone || !s.up (s.sliceOf dpa) then fail s .invalidInput
  else
    let live := s.mbx.injected.filter s.linePoison
    if live.contains line then ok s
    else if 64 ≤ live.length then fail s .injectPoisonLimit
    else ok (((s.poisonLine line).loupeDrop (dpa / 4096)).setMbx { s.mbx with injected := live ++ [line] })

/-- Clear Poison stores the supplied line as a full-line write. -/
def clearPoisonCmd (v : Iface) (dpa : Nat) (data : Bytes) (s : State) : Reply :=
  match s.linkHost (viaLink v) dpa with
  | none => fail s .invalidInput
  | some (h, e) =>
    if dpa % 64 != 0 || data.length != 64 || !s.up (s.sliceOf dpa) then fail s .invalidInput
    else
      let q : DReq := { cls := 3, link := none, pbr := none, host := h, line := dpa / 64, data := data, be := fullBe, arrival := s.tbc }
      ok (if e.policy.sharing = 1 then s.dirRequest q else s.dirWrite q)

/-! ### Dynamic Capacity (12 R391) -/

def dcConfigCmd (v : Iface) (start : Nat) (s : State) : Reply :=
  let l := viaLink v
  let rs := if (s.port l).cxlGen = 3 then (List.range 8).map fun k => s.cfg.dcRegionMib.getD (8 * l + k) 0 else []
  ok s (Config.cxlPayload "Get Dynamic Capacity Configuration" ([rs.length, start, 256] ++ rs.drop start))

def dcExtentsCmd (v : Iface) (host start : Nat) (s : State) : Reply :=
  if s.hostLink host != viaLink v then fail s .invalidInput
  else
    let l := s.pool.extents.filter fun e => e.2.accepted.contains host
    let out := (l.drop start).take ((ifaceLimit v - 16) / 40)
    ok s (Config.cxlPayload "Get Dynamic Capacity Extent List" ([out.length, l.length, start] ++ out.flatMap fun e => [e.1, e.2.len, e.2.tag]))

/-! ### GET_DEVICE_PROFILE, GET_SLICE_STATUS -/

/-- Bits set in the first `n` of a mask. -/
def countBits (m n : Nat) : Nat := ((List.range n).filter (bit m)).length

def profileBytes (s : State) : Bytes :=
  let c := s.cfg
  let ups := s.upSlices
  let sum (f : Nat → Nat) : Nat := ups.foldl (fun n k => n + f k) 0
  slice (orderCode c ++ slice c.serial 0 16 ++
    flds [(2, Config.vendorId), (1, c.slices), (1, s.upMask), (2, sum fun k => countBits (s.sl k).clusters 8),
      (2, sum fun k => countBits (s.sl k).banks 16), (8, c.slices * 144 * 2 ^ 30), (8, s.availT1),
      (8, c.slices * (if c.half then 384 else 768) * 2 ^ 30), (8, s.availT2),
      (8, s.fab.pw.foldl (fun n w => if w.2.valid then n + w.2.size * 2 ^ 30 else n) 0),
      (8, s.fab.trays.foldl (fun n w => if w.2.present then n + w.2.gib * 2 ^ 30 else n) 0), (4, c.mapWords),
      (2, s.fw.running.level), (2, 0)] ++
    (List.range 4).flatMap fun p => flds [(2, c.vfBase.getD p 0), (2, c.vfCount.getD p 0)]) 0 128

def rowProfile : Row := { op := 0xC000, thru := 7, rom := true }

/-- STATE of a slice as GET_SLICE_STATUS reports it. -/
def sliceStateCode (st : Nat) : Nat := if st = 0 then 0 else if st = 4 then 2 else 1

/-- Packages of a slice whose four channels are retired. -/
def State.packagesFailed (s : State) (n : Nat) : Nat :=
  (packages s.cfg).foldl (fun m j =>
    if (List.range 4).all fun k => s.chanState { slice := n, tier := 2, unit := 4 * j + k } == 4 then m + 2 ^ j else m) 0

/-- Logical units of a tier that a controller serves. -/
def State.unitsServed (s : State) (n tier : Nat) : Nat :=
  ((List.range (unitCount s.cfg n tier)).filter fun u => (s.physOf n tier u).isSome).length

/-- LP_MAX_C is free: the packages report a required refresh rate and no temperature. -/
def sliceStatusCmd (inp : Bytes) (s : State) : Reply :=
  let n := fld inp 0 1
  if s.cfg.slices ≤ n then fail s .invalidInput
  else
    let r := s.sl n
    let k := s.ck n
    let on := r.state != 0 && r.state != 4
    let d := s.draw
    let badStacks := (s.eccReg n).failedStacks.foldl (fun m i => setBit m i true) 0
    ok d.2 (slice (flds [(1, n), (1, sliceStateCode r.state), (1, if on then r.clusters else 0), (1, 0), (2, if on then r.banks else 0),
      (1, badStacks), (1, if s.up n then s.packagesFailed n else 0), (1, if s.up n then s.unitsServed n 1 else 0),
      (1, if s.up n then s.unitsServed n 2 else 0), (1, k.effStep), (1, 0), (1, k.junction), (1, k.hbmMax), (1, d.1 % 256), (1, 0),
      (4, if s.up n then s.deliverable n 1 else 0), (4, if s.up n then s.deliverable n 2 else 0), (2, s.factor n 1), (2, s.factor n 2),
      (2, (s.hosted n).length)]) 0 32)

def rowSliceStatus : Row := { op := 0xC001, thru := 5, lo := 1, hi := 1 }

/-! ### Meanings -/

def execIdentify (via : Iface) (s : State) : Host.Outcome State Fault Refusal :=
  .next (mbxCall { op := 0x0001, thru := 7, rom := true } (.identify via) via 0 s identifyCmd)
def execBackgroundOperationStatus (via : Iface) (s : State) : Host.Outcome State Fault Refusal :=
  .next (mbxCall { op := 0x0002, thru := 7 } (.backgroundOperationStatus via) via 0 s (bgStatusCmd via))
def execRequestAbortBackgroundOperation (via : Iface) (s : State) : Host.Outcome State Fault Refusal :=
  .next (mbxCall { op := 0x0005, thru := 7 } (.requestAbortBackgroundOperation via) via 0 s (abortBgCmd via))
def execIdentifyMemoryDevice (via : Iface) (s : State) : Host.Outcome State Fault Refusal :=
  .next (mbxCall { op := 0x4000, thru := 5 } (.identifyMemoryDevice via) via 0 s (identifyMemCmd via))
def execGetHealthInfo (via : Iface) (s : State) : Host.Outcome State Fault Refusal :=
  .next (mbxCall { op := 0x4200, thru := 5 } (.getHealthInfo via) via 0 s healthCmd)
def execGetEventRecords (via : Iface) (log : Nat) (s : State) : Host.Outcome State Fault Refusal :=
  .next (mbxCall { op := 0x0100, thru := 5 } (.getEventRecords via log) via 0 s (getEventsCmd via log))
def execClearEventRecords (via : Iface) (log : Nat) (all : Bool) (handles : List Nat) (s : State) : Host.Outcome State Fault Refusal :=
  .next (mbxCall { op := 0x0101, thru := 5 } (.clearEventRecords via log all handles) via 0 s (clearEventsCmd log all handles))
def execGetEventInterruptPolicy (via : Iface) (s : State) : Host.Outcome State Fault Refusal :=
  .next (mbxCall { op := 0x0102, thru := 1 } (.getEventInterruptPolicy via) via 0 s (getPolicyCmd via))
def execSetEventInterruptPolicy (via : Iface) (modes : List Nat) (s : State) : Host.Outcome State Fault Refusal :=
  .next (mbxCall { op := 0x0103, thru := 1 } (.setEventInterruptPolicy via modes) via 0 s (setPolicyCmd via modes))
def execGetSupportedLogs (via : Iface) (s : State) : Host.Outcome State Fault Refusal :=
  .next (mbxCall { op := 0x0400, thru := 7 } (.getSupportedLogs via) via 0 s (supportedLogsCmd via))
def execGetLog (via : Iface) (s : State) : Host.Outcome State Fault Refusal :=
  .next (mbxCall { op := 0x0401, thru := 7 } (.getLog via) via 0 s (getLogCmd via))
def execGetTimestamp (via : Iface) (s : State) : Host.Outcome State Fault Refusal :=
  .next (mbxCall { op := 0x0300, thru := 5 } (.getTimestamp via) via 0 s getTimestampCmd)
def execSetTimestamp (via : Iface) (ns : Nat) (s : State) : Host.Outcome State Fault Refusal :=
  .next (mbxCall { op := 0x0301, thru := 5 } (.setTimestamp via ns) via 0 s (setTimestampCmd ns))
def execGetFwInfo (via : Iface) (s : State) : Host.Outcome State Fault Refusal :=
  .next (mbxCall { op := 0x0200, thru := 5 } (.getFwInfo via) via 0 s fwInfoCmd)
def execGetPoisonList (via : Iface) (start len : Nat) (s : State) : Host.Outcome State Fault Refusal :=
  .next (mbxCall { op := 0x4300, thru := 5 } (.getPoisonList via start len) via 0 s (getPoisonCmd start len))
def execInjectPoison (via : Iface) (dpa : Nat) (s : State) : Host.Outcome State Fault Refusal :=
  .next (mbxCall { op := 0x4301, thru := 1 } (.injectPoison via dpa) via 0 s (injectPoisonCmd via dpa))
def execClearPoison (via : Iface) (dpa : Nat) (data : Bytes) (s : State) : Host.Outcome State Fault Refusal :=
  .next (mbxCall { op := 0x4302, thru := 1 } (.clearPoison via dpa data) via 0 s (clearPoisonCmd via dpa data))
def execGetDynamicCapacityConfiguration (via : Iface) (start : Nat) (s : State) : Host.Outcome State Fault Refusal :=
  .next (mbxCall { op := 0x4800, thru := 1 } (.getDynamicCapacityConfiguration via start) via 0 s (dcConfigCmd via start))
def execGetDynamicCapacityExtentList (via : Iface) (host start : Nat) (s : State) : Host.Outcome State Fault Refusal :=
  .next (mbxCall { op := 0x4801, thru := 1 } (.getDynamicCapacityExtentList via host start) via 0 s (dcExtentsCmd via host start))
def execUnsupportedCommand (via : Iface) (opcode : Nat) (s : State) : Host.Outcome State Fault Refusal :=
  .next (unsupportedCmd via opcode s)
def execGetDeviceProfile (via : Iface) (inp : Bytes) (s : State) : Host.Outcome State Fault Refusal :=
  .next (mbxCall rowProfile (.getDeviceProfile via inp) via inp.length s fun s => ok s (profileBytes s))
def execGetSliceStatus (via : Iface) (inp : Bytes) (s : State) : Host.Outcome State Fault Refusal :=
  .next (mbxCall rowSliceStatus (.getSliceStatus via inp) via inp.length s (sliceStatusCmd inp))

end Sys2Proof.Machine
end

