-- ==== Sys2Proof/Machine/ConfigSpace.lean ====
section
/-! DEFINITION. Configuration space, as far as the spec gives it: the header, SR-IOV, MSI-X, power management, the DVSECs and what CDAT
and the Non-CXL Function Map report (12 R389, R392-R399, R412). Where a field lies inside a standard capability is PRESUMED from PCIe and
CXL (log 9). -/
namespace Sys2Proof.Machine
open Sys2Proof

/-- A number from fields, each with its lowest bit. -/
def packed (l : List (Nat × Nat)) : Nat := l.foldl (fun n f => n + f.2 * 2 ^ f.1) 0

/-! ### The Preomel DVSEC in configuration space (12 R395) -/

/-- The dwords of the Preomel DVSEC of PF0 of a link or PF1 of a port: the two headers that PCIe lays out (PRESUMED, log 9), with
`next` the offset of the next capability, then DVSEC ID 1, and the two dwords of R395. -/
def State.dvsec (s : State) (f : Func) (next : Nat) : List Nat :=
  let c := s.cfg
  let at_ (l : Nat) : List Nat :=
    let p := l / 2
    [packed [(0, 0x23), (16, 1), (20, next % 4096)], packed [(0, Config.vendorId % 65536), (20, 0x14)], 1,
     packed [(0, p), (2, l % 2), (3, b2n (l % 2 == 0)), (4, c.slices), (8, b2n c.half)],
     packed [(0, c.vfBase.getD p 0), (10, c.vfCount.getD p 0)]]
  match f with
  | .pf0 l => at_ l
  | .pf1 p => at_ (2 * p)
  | .vf _ => []

/-- A function answers configuration requests: also in D3hot (12 R398), not over a link that carries no traffic. -/
def State.configOpen (s : State) (f : Func) : Bool :=
  (match f with
  | .pf0 l => linkFitted s.cfg l
  | .pf1 p => decide (p < hostPorts s.cfg)
  | .vf t => s.vfEnabled t) && s.linkOpen (funcLink s.cfg f)

/-! ### Standard capabilities (12 R392-R394, R396, R398, R399, R412) -/

/-- Device ID of a function of the module by its variant. -/
def deviceId (c : Cfg) (f : Func) : Nat :=
  match f with
  | .pf0 _ => 0xA100 + c.slices
  | .pf1 _ => 0xA110 + c.slices
  | .vf _ => 0xA11F

/-- The type 0 header: IDs, class code with revision 0, and the Subsystem Vendor ID; a VF reads its IDs as ones, as SR-IOV has it. The
other dwords are free values. -/
def pciHeader (c : Cfg) (f : Func) (k d : Nat) : Nat :=
  match k with
  | 0 => (match f with
    | .vf _ => 0xFFFFFFFF
    | _ => packed [(0, Config.vendorId % 65536), (16, deviceId c f)])
  | 2 => 2 ^ 8 * (match f with
    | .pf0 _ => 0x050210
    | _ => 0x120000)
  | 11 => d / 65536 % 65536 * 65536 + Config.vendorId % 65536
  | _ => d % 2 ^ 32

/-- The SR-IOV capability of PF1 (R396): system page sizes 4 KiB to 64 KiB. -/
def State.sriov (s : State) (p k d : Nat) : Nat :=
  let g := s.fn (.pf1 p)
  let total := s.cfg.vfCount.getD p 0
  match k with
  | 2 => packed [(0, b2n g.vfEnable), (1, d % 2 ^ 31)]
  | 3 => packed [(0, total), (16, total)]
  | 4 => packed [(0, g.numVfs % 65536), (16, d % 65536)]
  | 5 => packed [(0, 1), (16, 1)]
  | 6 => packed [(0, d % 65536), (16, 0xA11F)]
  | 7 => 0x1F
  | _ => d % 2 ^ 32

/-- The MSI-X capability (R399): table size, Function Mask and Enable, then where table and PBA lie in BAR4. -/
def State.msixCap (s : State) (f : Func) (k d : Nat) : Nat :=
  let g := s.fn f
  let n := match f with
    | .vf _ => 4
    | _ => 64
  match k with
  | 0 => packed [(0, d % 65536), (16, n - 1), (30, b2n g.fmask), (31, b2n g.msixEnable)]
  | 1 => 4
  | 2 => (if n = 64 then 0x2000 else 0x800) + 4
  | _ => d % 2 ^ 32

/-- The PCI Express capability: FLR is offered, no Completion Timeout range and no Disable (R412), and neither Hot-Plug Surprise nor
Hot-Plug Capable (R392). -/
def pcieCap (k d : Nat) : Nat :=
  match k with
  | 1 => setBit (d % 2 ^ 32) 28 true
  | 5 => setBit (setBit (d % 2 ^ 32) 5 false) 6 false
  | 9 => d % 2 ^ 32 / 32 * 32
  | _ => d % 2 ^ 32

/-- The PCIe DVSEC for CXL Devices of PF0 of a link (R394): Mem_Capable 1, Cache_Capable 0, HDM_Count 1; DVSEC Range 1 holds the static
range of a CXL 1.1 link (R389). -/
def State.cxlDvsec (s : State) (l k d : Nat) : Nat :=
  let (a, n) := if (s.port l).cxlGen = 1 then (s.port l).static.getD (0, 0) else (d % 2 ^ 36 * 2 ^ 28, d / 2 ^ 36 % 2 ^ 36 * 2 ^ 28)
  match k with
  | 2 => packed [(0, 0), (16, 4 + 16 + d % 2 * 2)]
  | 6 => n / 2 ^ 32 % 2 ^ 32
  | 7 => n % 2 ^ 32 / 2 ^ 28 * 2 ^ 28 + 1 + 2 * b2n (s.port l).memActive
  | 8 => a / 2 ^ 32 % 2 ^ 32
  | 9 => a % 2 ^ 32 / 2 ^ 28 * 2 ^ 28
  | _ => d % 2 ^ 32

/-- The rate of a link in MB/s per direction. -/
def Port.rateMBs (p : Port) : Nat :=
  ([0, 25, 50, 80, 160, 320, 640].getD p.speed 0) * 100 * ([0, 4, 8, 16].getD p.width 0) / 8

/-- What CDAT reports on a link (R394): a DSMAS entry per Dynamic Capacity region or for the static range, each with DSLBIS entries of
480 ns and the link's rate. The form of the table is the standard's and opaque. -/
def State.cdat (s : State) (l : Nat) : Bytes :=
  let p := s.port l
  let spans := if p.cxlGen = 3 then ((List.range 8).map fun k => (k, s.cfg.dcRegionMib.getD (8 * l + k) 0 * 2 ^ 20)).filter fun r => r.2 != 0
    else match p.static with
      | some r => [r]
      | none => []
  Config.cxlPayload "CDAT" (spans.flatMap fun r => [r.1, r.2, 480, 480, p.rateMBs, p.rateMBs])

/-- What the Non-CXL Function Map of a port names: PF1 and its VFs (R394). -/
def State.nonCxl (s : State) (l : Nat) : Bytes :=
  Config.cxlPayload "Non-CXL Function Map" (if l % 2 = 0 then (List.range (1 + s.cfg.vfCount.getD (l / 2) 0)).map (1 + ·) else [])

/-- A dword of a structure of configuration space: 7 Preomel DVSEC, 8 header, 9 SR-IOV, 10 MSI-X, 11 PCI Express, 12 power management,
13 PCIe DVSEC for CXL Devices, 14 GPF DVSEC, 15 CDAT, 16 Non-CXL Function Map. One that the function does not carry reads 0 (R394). -/
def State.configDword (s : State) (f : Func) (space k d : Nat) : Nat :=
  match space, f with
  | 7, _ => (s.dvsec f d).getD k 0
  | 8, _ => pciHeader s.cfg f k d
  | 9, .pf1 p => s.sriov p k d
  | 10, _ => s.msixCap f k d
  | 11, _ => pcieCap k d
  | 12, .vf _ => 0
  | 12, _ => if k = 1 then d % 2 ^ 32 / 4 * 4 + (if (s.fn f).d3hot then 3 else 0) else d % 2 ^ 32
  | 13, .pf0 l => s.cxlDvsec l k d
  | 14, .pf0 _ => if k < 3 then d % 2 ^ 32 else 0
  | 15, .pf0 l => fld (s.cdat l) (4 * k) 4
  | 16, .pf0 l => fld (s.nonCxl l) (4 * k) 4
  | _, _ => 0

/-- A read of a dword of a structure of configuration space, at an offset inside it. -/
def configRead (f : Func) (space off : Nat) (s : State) : State :=
  let d := s.draw
  if !s.configOpen f then s.dropIo (funcLink s.cfg f)
  else d.2.send (funcLink s.cfg f) (.regData f off (s.configDword f space (off / 4) d.1))

end Sys2Proof.Machine
end

