-- ==== Sys2Proof/Machine/Registers.lean ====
section
/-! DEFINITION. The registers that a host reads and writes: what each holds, the half latch, and the writes that have no
row of their own (19 R585-R602 and the register maps of the subject chapters). -/
namespace Sys2Proof.Machine
open Sys2Proof

/-! ### What the registers hold: offset, width in bytes, value -/

/-- A register as it reads: offset, width in bytes, value. -/
abbrev Reg := Nat × Nat × Nat

/-- A share of drawable reserve that tenants have not drawn, in sectors. -/
def State.drawableLeft (s : State) (n : Nat) : Nat := s.drawable n - s.drawnOn n

def countTenants (f : Nat → Bool) : Nat := ((List.range 1024).filter f).length

/-- GEN_BOOT_STAT to GEN_CAP_STAT, GEN_TP (15, 06, 12). -/
def State.genRegs (s : State) : List Reg :=
  let r := s.rst
  let sum (f : Nat → Nat) : Nat := s.upSlices.foldl (fun n k => n + f k) 0
  let f := s.fab
  [(0x40000, 8, packed [(0, r.cause), (4, r.phase), (8, r.inService.foldl (fun m n => m + 2 ^ n) 0), (16, r.moduleResets.toNat),
      (32, min r.readyMs 0xFFFFFFFF)]),
   (0x40008, 4, packed [(0, b2n r.configReady), (1, b2n r.mbxReady), (2, b2n r.mediaReady), (3, b2n r.memoryActive),
      (4, b2n r.engineReady), (5, b2n r.degraded), (6, b2n (r.packageMaster != 0))]),
   (0x4000C, 4, r.drainUs),
   (0x40010, 8, packed [(0, sum fun n => (s.mig n).reserveMib), (32, sum fun n => (s.mig n).floorMib)]),
   (0x40018, 8, packed [(0, sum (fun n => s.drawableLeft n) / 4096), (32, countTenants s.tenantReserve),
      (43, countTenants s.tenantHeld), (54, b2n (s.upSlices.any fun n => s.drawableLeft n == 0))]),
   (0x40020, 4, f.cplTimeout),
   (0x40028, 8, if !hasTp s.cfg then 0 else packed [(0, f.tpLink), (2, f.tpSpeed), (5, f.tpWidth), (7, f.tpTrays),
      (12, b2n f.tpNoRefclk), (16, (f.tags.filter fun t => t.2.item.isSome && !t.2.out).length), (32, f.tpTimeouts.toNat),
      (48, f.tpLate.toNat)])]

/-- GEN_PORT_CTL, GEN_PORT_STAT and GEN_PORT_CNT of a link (12 R418); a link that does not exist reads 0 (19 R602). -/
def State.portRegs (s : State) (l : Nat) : List Reg :=
  if !linkFitted s.cfg l then []
  else
    let p := s.port l
    let g := s.fn (.pf1 (l / 2))
    [(0x40040 + 0x20 * l, 4, p.storm),
     (0x40048 + 0x20 * l, 8, packed [(0, p.link), (2, p.cxlGen), (4, p.speed), (7, p.width), (9, b2n (bit s.cfg.portSplit (l / 2))),
       (10, b2n p.noRefclk), (11, b2n p.biEnabled), (12, b2n (s.biLocked l)), (13, b2n p.frozen), (14, p.freezeCause),
       (17, b2n p.viralEnable), (32, if g.vfEnable then g.numVfs % 2048 else 0)]),
     (0x40050 + 0x20 * l, 8, packed [(0, p.poisonSent.toNat), (16, p.poisonRecv.toNat), (32, p.discarded.toNat), (48, p.freezes.toNat),
       (56, p.linkDowns.toNat)])]

/-- PWR_ and CLK_ of the module (17 R573, 16 R534). -/
def State.pwrRegs (s : State) : List Reg :=
  let p := s.pwr
  let c := s.clk
  let stale := match p.testAt with
    | some t => decide (t + 7200000 * ms ≤ s.tbc)
    | none => false
  [(0x40200, 4, packed [(0, p.warnMv), (16, p.srIdleUs)]),
   (0x40208, 8, packed [(0, p.inputMv), (16, p.minMv), (32, b2n p.guard), (33, b2n p.overvolt), (34, b2n p.ctInFault),
      (35, b2n p.ctOutFault), (36, b2n p.sbShort), (37, b2n p.coolantHot), (48, p.guardEntries.toNat)]),
   (0x40210, 8, packed [(0, p.energyMj % 65536), (16, p.esr % 4096), (28, b2n (1200 ≤ p.energyMj)), (29, b2n p.testing), (30, b2n stale),
      (32, p.bankMv % 65536), (48, p.capUf % 65536)]),
   (0x40300, 4, packed [(0, c.coreRef), (8, c.hpRef), (12, b2n c.tpRef), (13, c.ppRef), (19, b2n c.mgRef), (24, c.switches.toNat)]),
   (0x40308, 8, s.tbc)]

/-- QOS_ of the module for a function (09 R301, R303). -/
def State.qosRegs (s : State) (f : Func) : List Reg :=
  let q := s.qos
  let c := s.cls (s.fn f).classSel
  [(0x40400, 4, packed [(0, q.sysClass), (8, q.light), (16, q.mod), (24, q.severe)]),
   (0x40404, 4, (s.fn f).classSel),
   (0x40408, 4, packed [(0, c.weight), (8, c.qMin), (12, c.qMax), (17, c.minWays), (22, c.maxWays)]),
   (0x40410, 8, packed [(0, q.unassigned.toNat), (16, q.outOfExtent.toNat), (32, q.bucketHolds.toNat), (48, q.fillSkips.toNat)]),
   (0x40420, 16, packed [(0, c.t1Floor), (32, c.t1Ceil), (64, c.t2Floor), (96, c.t2Ceil)])]

/-- MBX_, FW_ and BST_ of the module (13 R421, R460; 14 R503; 18 R584). -/
def State.mgmtRegs (s : State) : List Reg :=
  let f := s.fw
  let b := s.bst.runs.getLast?
  let run (g : BistRun → Nat) : Nat := (b.map g).getD 0
  [(0x40500, 4, s.presReg),
   (0x40504, 4, packed [(0, s.cfg.fmLinks), (8, s.cfg.mctp), (16, s.mbx.eid)]),
   (0x40600, 4, f.confirmMin),
   (0x40608, 8, packed [(0, f.state), (4, f.journal.active), (5, b2n f.main.ok), (6, b2n f.fallback.ok), (7, b2n (f.configs.any (·.ok))),
      (8, f.journal.boots), (10, f.lastResult), (16, s.confirmLeft), (48, f.levels.getD 0 0)]),
   (0x40610, 8, packed [(0, f.running.svn), (16, f.svnFloor), (32, f.rotations), (36, s.unwrapSlice), (40, b2n f.identityLost),
      (41, b2n f.debugRec.isSome)]),
   (0x40700, 4, s.bst.gbps),
   (0x40708, 8, packed [(0, run (·.num)), (16, run (·.state)), (24, run (·.mask)), (32, run (·.suites)),
      (48, run (·.percent)), (55, b2n s.bst.noExpect)])]

/-- PSC_ (08). -/
def State.pscRegs (s : State) : List Reg :=
  let f := s.fab
  let staged (kind k : Nat) : Bool := f.staged.any fun x => x.kind == kind && x.win == k
  [(0x41000, 4, packed [(0, f.graceUs), (16, f.reqTimeoutUs)]),
   (0x41008, 8, packed [(0, f.me), (8, f.master), (16, f.mstate), (18, b2n f.isMaster), (19, b2n f.masterLost), (32, f.epoch % 2 ^ 32)]),
   (0x41010, 8, packed [(0, f.lateRsp.toNat), (16, f.staleNacks.toNat), (32, f.rangeNacks.toNat), (48, f.hopDrops.toNat)])] ++
  (List.range (peerPorts s.cfg)).map (fun k =>
    let p : Peer := tabGet {} f.ports k
    (0x41020 + 4 * k, 4, packed [(0, p.link), (2, p.width), (4, b2n p.noRefclk), (8, p.neighbour), (16, p.retrains.toNat)])) ++
  (List.range 16).map (fun k =>
    let t : Tray := tabGet {} f.trays k
    (0x41040 + 4 * k, 4, if !t.present then 0
      else packed [(0, 1), (1, b2n t.lost), (2, b2n t.drain), (3, b2n (s.trayReady k)), (16, t.gib % 65536)])) ++
  (List.range 64).map (fun k =>
    let w : LendWin := tabGet {} f.lw k
    (0x41400 + 8 * k, 8, packed [(0, b2n w.valid), (1, w.tier - 1), (2, b2n (staged 0 k)), (8, w.borrower), (16, w.size), (28, w.cls),
      (32, w.mask), (48, w.gen % 65536)])) ++
  (List.range 64).map (fun k =>
    let w : PsWin := tabGet {} f.pw k
    (0x41600 + 8 * k, 8, packed [(0, b2n w.valid), (1, w.state), (3, b2n (staged 1 k)), (8, w.lender), (16, w.lw), (24, w.size),
      (48, w.gen % 65536)]))

/-- A publish doorbell slot (07 R238). -/
def State.slotRegs (s : State) (h : Nat) : List Reg :=
  let x := s.pubSlot h
  let o := 0x30000 + 0x40 * h
  [(o, 4, 0),
   (o + 8, 4, packed [(0, b2n x.busy), (1, x.result), (4, b2n x.conflict), (5, b2n x.overrun), (16, min x.conflicts 0xFFFF)]),
   (o + 16, 8, x.version)]

/-- GEN_SLICE_RST (15). -/
def State.sliceRstReg (s : State) (n : Nat) : Nat :=
  let r := s.sl n
  packed [(0, r.state), (4, r.lastCause), (8, r.resets.toNat), (16, r.lastDrainUs % 65536), (32, r.dropped.toNat), (48, r.cutReads.toNat)]

/-- GEN_ to BST_ of a slice (15, 17, 16, 09, 18). -/
def State.sliceRegs0 (s : State) (f : Func) (n : Nat) : List Reg :=
  let r := s.sl n
  let k := s.ck n
  let b := tabGet (0, 0, 0, false) s.bst.slices n
  let cls := (s.fn f).classSel
  let suite := match s.bistRun with
    | some y => (y.of n).cur
    | none => 15
  [(0x0000, 8, s.sliceRstReg n),
   (0x0008, 8, packed [(0, r.laneRepairs.toNat), (16, r.spareLanes % 256), (24, r.edgesUp % 16), (48, r.reroutes.toNat)]),
   (0x0100, 8, packed [(0, r.parkIdleUs), (16, b2n r.parked), (32, r.wakes.toNat)]),
   (0x0200, 4, packed [(0, k.junction % 256), (8, k.hbmMax % 256), (16, if s.pwr.ctInFault then 0 else k.ctIn % 256), (24, b2n (k.thrStep != 0)),
      (25, b2n k.memHot)]),
   (0x0300, 4, packed [(0, k.reqStep), (3, k.thrStep), (6, k.effStep), (9, b2n k.pending), (10, k.deferCause), (16, k.changes.toNat)]),
   (0x0304, 4, k.overrun.toNat),
   (0x0308, 8, packed [(0, k.flushes.toNat), (16, k.escalations.toNat), (32, k.lastGroup), (36, b2n k.lastEscalated)]),
   (0x0400, 4, packed [(0, s.factor n 1), (16, s.factor n 2), (27, b2n (s.doubled n 1)), (28, b2n (s.doubled n 2)),
      (29, b2n (s.rebuildMbps n 1 != 0 || s.rebuildMbps n 2 != 0))]),
   (0x0408, 8, packed [(0, s.rateMbps n 1 cls % 2 ^ 32), (32, s.rateMbps n 2 cls % 2 ^ 32)]),
   (0x0500, 8, packed [(0, b.1), (8, b.2.1), (24, b.2.2.1), (36, suite), (40, b2n b.2.2.2)])]

/-- The encode class that selects a table slot, 7 for none (05). -/
def useClass (c : Cnd) (k : Nat) : Nat := ((List.range 4).find? fun e => tabFind c.encSel e == some k).getD 7

/-- CND_ and EYE_ of a slice (05). -/
def State.cndRegs (s : State) (f : Func) (n : Nat) : List Reg :=
  let c := s.cn n
  let k := tabGet 0 (s.fn f).slotSel n
  let x := s.slot n k
  let bound := s.eng.models.any fun m => m.2.bound.any fun b => b.1 == n && b.2.2 == k
  [(0x1000, 4, k),
   (0x1004, 4, packed ((List.range 4).map fun e => (8 * e, match tabFind c.encSel e with
      | some v => 128 + v
      | none => 0))),
   (0x1008, 8, packed [(0, x.state), (2, b2n bound), (3, b2n x.recoding), (4, useClass c k), (8, x.gen % 1024), (18, s.slotRefs n k % 2 ^ 46)]),
   (0x1010, 8, packed [(0, c.zeroBlocks.toNat), (16, c.zrunBlocks.toNat), (32, c.tansBlocks.toNat), (48, c.rawBlocks.toNat)]),
   (0x1018, 4, packed [(0, b2n c.verifyFail), (16, c.verifyCount.toNat)]),
   (0x101C, 4, packed [(0, c.eyeErr.toNat), (16, c.eyeCount.toNat)])]

/-- PRM_ and LPE_ of a slice (06 R207). FLUSH reads 0: the flush completes with the write (log 50). -/
def State.prmRegs (s : State) (n : Nat) : List Reg :=
  let m := s.mig n
  [(0x1100, 4, packed [(0, m.sampleKNext), (8, m.decayMsNext), (24, m.periods % 16)]),
   (0x1108, 8, packed [(0, m.promoteHeat), (8, m.demoteHeat), (16, m.minResidence), (20, m.migRate), (26, b2n m.migEnable), (32, m.t1High),
      (40, m.t1Low)]),
   (0x1110, 8, packed [(0, m.promotions.toNat), (16, m.demotions.toNat), (32, m.cancelled.toNat), (48, m.heldWrites.toNat)]),
   (0x1200, 4, packed [(0, b2n m.lpeEnable), (1, m.lpeFill)]),
   (0x1208, 8, packed [(0, m.hits.toNat), (16, m.misses.toNat), (32, m.fills.toNat), (48, m.invalidations.toNat)])]

/-- DIR_ of a slice (07). -/
def State.dirRegs (s : State) (n : Nat) : List Reg :=
  let d := s.dirReg n
  let on := s.dir.ents.filter fun e => s.sliceOf (e.1 * 64) == n
  [(0x1300, 4, d.recallMs),
   (0x1308, 8, packed [(0, on.length % 2 ^ 26), (32, min (on.filter fun e => e.2.state == 4).length 0xFFFFF), (52, b2n s.dir.sweep.isSome)]),
   (0x1310, 8, packed [(0, d.recalls.toNat), (16, d.evictions.toNat), (32, d.timeouts.toNat), (48, d.uncached.toNat)]),
   (0x1318, 8, packed [(0, d.orphanWb.toNat), (16, d.lateBirsp.toNat), (32, d.fenceDrops.toNat), (48, d.partialPoison.toNat)])]

/-- ECC_ of a slice (11). How far a rebuild by copy has come no command says: PERCENT is then a free value of at most 100. -/
def State.eccRegs (s : State) (n : Nat) : List Reg :=
  let e := s.eccReg n
  let tier (t : Nat) : Nat := (e.retire.filter fun u => u.1 == t).length % 2 ^ 15
  let cur := match e.rebuilds.find? (·.running) with
    | some r => some r
    | none => e.rebuilds.head?
  let of (g : Rebuild → Nat) : Nat := (cur.map g).getD 0
  let share (r : Rebuild) : Nat :=
    if r.kind = 1 then min 100 (100 * r.done / stripeTotal) else if r.running then Config.freeValue s.freeDraws % 101 else 0
  [(0x1400, 8, packed [(0, e.heavyLimit), (4, e.anyLimit), (8, e.scrubGbps), (16, e.rebuildT1), (32, e.rebuildT2), (40, e.retireLimit)]),
   (0x1408, 8, packed [(0, e.corrected.toNat), (16, e.uncorrectable.toNat), (32, e.tallyMoves.toNat), (48, e.retiredUnits.toNat)]),
   (0x1410, 8, packed [(0, tier 1), (16, tier 2), (32, e.suspects.length % 2 ^ 13), (48, b2n e.savePending)]),
   (0x1418, 8, packed [(0, of fun r => if r.running then 1 else 2), (2, of (·.kind)), (8, of fun r => r.unit % 256),
      (16, of share), (24, e.degraded % 8)])]

/-- DRC_MAP_CFG (10 R315). -/
def State.mapCfgReg (s : State) (n : Nat) : Nat :=
  let c := s.cfg
  packed [(0, c.sliceGrain), (8, c.t1Grain), (16, c.t2Grain), (24, c.mapFlags), (31, b2n (s.drcReg n).lock), (32, unitCount c n 1),
    (40, unitCount c n 2), (48, dataRows c)]

/-- DRC_ of a slice for a function (10 R344). -/
def State.drcRegs (s : State) (f : Func) (n : Nat) : List Reg :=
  let d := s.drcReg n
  let sel := tabGet 0 (s.fn f).drcSel n
  let lane := tabGet 0 (s.fn f).trainSel n
  let c : Ctl := { slice := n, tier := sel / 256 % 2 + 1, unit := sel % 128 }
  let x := s.chan c
  let dbl := if c.tier = 1 then bit d.t1Doubled (c.unit / 32) else bit d.t2Doubled (c.unit / 4)
  let empty := (List.range 8).foldl (fun m k => if s.segLive n k then m else m + 2 ^ k) 0
  [(0x2000, 8, s.mapCfgReg n),
   (0x2008, 8, packed [(0, d.idle1), (8, d.wrHigh1), (20, d.wrLow1), (32, d.age1)]),
   (0x2010, 8, packed [(0, d.idle2), (8, d.wrHigh2), (20, d.wrLow2), (32, d.age2)]),
   (0x2018, 4, packed [(0, d.tempPollMs), (8, d.rfmK)]),
   (0x201C, 4, packed [(0, d.t1Doubled), (8, d.t2Doubled), (16, d.t2Over)]),
   (0x2020, 4, 0),
   (0x2024, 4, d.freezeLimit),
   (0x2028, 8, packed [(0, d.keep), (8, d.evac), (16, empty), (24, b2n (s.pasrBusy n)), (25, d.result)]),
   (0x2030, 4, sel),
   (0x2034, 4, lane),
   (0x2038, 8, packed [(0, s.chanState c), (3, b2n dbl), (4, b2n (!x.inOrder.isEmpty)), (5, b2n x.drain),
      (8, ((s.servedBy c).map (·.2)).getD 0x7F), (16, x.freezeCause), (32, x.queue.length % 2048)]),
   (0x2040, 8, packed [(0, x.acts / 1024 % 65536), (16, x.rfmRand.toNat), (32, x.inOrderEntries.toNat), (48, x.freezes.toNat)]),
   (0x2048, 8, ((s.laneOf c lane).map trainRes).getD 0)]

/-- Registers of a slice: all of them while it serves, GEN_SLICE_RST alone once it is lost, none where it is not fitted
(19 R602). -/
def State.sliceRegs (s : State) (f : Func) (n : Nat) : List Reg :=
  if s.cfg.slices ≤ n then []
  else if !s.up n then [(0, 8, s.sliceRstReg n)]
  else s.sliceRegs0 f n ++ s.cndRegs f n ++ s.prmRegs n ++ s.dirRegs n ++ s.eccRegs n ++ s.drcRegs f n

/-- The cursor that a function has selected, where it sees one (04 R133). -/
def State.selCursor (s : State) (f : Func) : Option Cursor := (s.cur (s.fn f).curSel).filter (seesCursor f)

/-- Engine registers of PF1 or a VF (02 R71, 04 R133). -/
def State.engRegs (s : State) (f : Func) : List Reg :=
  let g := s.fn f
  let c := g.curSnap
  let of (h : CurSnap → Nat) : Nat := (c.map h).getD 0
  [(0x0000, 4, g.sticky.toNat),
   (0x0100, 4, packed [(0, g.curSel), (8, b2n (s.selCursor f).isSome)]),
   (0x0104, 4, ((s.selCursor f).map fun c => c.flags.toNat).getD 0),
   (0x0108, 4, of (·.pos)), (0x0110, 8, of (·.step)), (0x0118, 8, of (·.est)), (0x0120, 8, of (·.entry)), (0x0128, 8, of (·.cnt))]

/-- The registers of a function near an offset of BAR0 or BAR2. -/
def State.regsAt (s : State) (f : Func) (off : Nat) : List Reg :=
  match f with
  | .pf0 _ =>
    if 0x100000 ≤ off then
      let n := (off - 0x100000) / 0x20000
      (s.sliceRegs f n).map fun r => (0x100000 + 0x20000 * n + r.1, r.2)
    else if 0x42000 ≤ off then []
    else if 0x41000 ≤ off then s.pscRegs
    else if 0x40500 ≤ off then s.mgmtRegs
    else if 0x40400 ≤ off then s.qosRegs f
    else if 0x40200 ≤ off then s.pwrRegs
    else if 0x40140 ≤ off then []
    else if 0x40040 ≤ off then s.portRegs ((off - 0x40040) / 0x20)
    else if 0x40000 ≤ off then s.genRegs
    else s.slotRegs ((off - 0x30000) / 0x40)
  | _ => s.engRegs f

/-- Where a function's primary mailbox lies in its BAR, and the log of its payload size (R586, R590; 13 R420). -/
def mailboxAt (f : Func) : Option (Iface × Nat × Nat) :=
  match f with
  | .pf0 l => some (.pf0 l, 0x11000, 16)
  | .pf1 p => some (.pf1 p, 0x1000, 15)
  | .vf _ => none

/-- Mailbox registers whose layout R590 names: capabilities, the command last run and the length of its output, and whether a
background operation runs with the return code (PRESUMED the layout of CXL 3.1, log 9). -/
def State.mailboxRegs (s : State) (f : Func) : List Reg :=
  match mailboxAt f with
  | none => []
  | some (v, base, size) =>
    let i := s.iface v
    let bg := match i.bg, i.lastBg with
      | some b, _ => [(0, b.opcode), (16, s.bgPercent b)]
      | none, some x => [(0, x.1), (16, 100), (32, retCode x.2)]
      | none, none => []
    [(base, 4, size), (base + 8, 8, packed [(0, i.opcode), (16, i.payload.length)]),
     (base + 0x10, 8, packed [(0, b2n i.bg.isSome), (32, retCode i.ret)]), (base + 0x18, 8, packed bg)]

/-- Four bytes of the payload registers: the output of the command last run. -/
def State.mailboxPayload (s : State) (f : Func) (off : Nat) : Option Nat :=
  match mailboxAt f with
  | none => none
  | some (v, base, size) =>
    if base + 0x20 ≤ off && off < base + 0x20 + 2 ^ size then some (fld (s.iface v).payload (off - base - 0x20) 4) else none

/-- HDM decoders of a link stand from 0x1110, 32 bytes each, in the order base, size, control, DPA skip (PRESUMED, log 9). A link
trained at CXL 1.1 has none (R391). -/
def State.hdmAt (s : State) (f : Func) (off : Nat) : Option (Nat × Nat × Nat) :=
  match f with
  | .pf0 l => if 0x1110 ≤ off && off < 0x1110 + 1024 && 2 ≤ (s.port l).cxlGen then some (l, (off - 0x1110) / 32, (off - 0x1110) % 32) else none
  | _ => none

def HdmDec.read (d : HdmDec) (o : Nat) : Nat :=
  match o with
  | 0x00 => d.base % 2 ^ 32
  | 0x04 => d.base / 2 ^ 32 % 2 ^ 32
  | 0x08 => d.size % 2 ^ 32
  | 0x0C => d.size / 2 ^ 32 % 2 ^ 32
  | 0x10 => d.ctl
  | 0x14 => d.skip % 2 ^ 32
  | 0x18 => d.skip / 2 ^ 32 % 2 ^ 32
  | _ => 0

/-- A 32-bit half of a number replaced; the low 28 bits of base, size and skip are 0. -/
def halfSet (old hi v : Nat) : Nat := if hi = 0 then old / 2 ^ 32 * 2 ^ 32 + v / 2 ^ 28 * 2 ^ 28 else v * 2 ^ 32 + old % 2 ^ 32

/-- Four bytes written to a decoder. A committed one takes only the end of its commit, and a locked one nothing. A commit holds where
ways and granularity are among R391's, the size divides among the ways, and the decoder before it is committed below it. -/
def State.writeHdm (s : State) (l n o v : Nat) : State :=
  let d := tabGet ({} : HdmDec) (s.port l).hdm n
  let put (d : HdmDec) : State := s.modPort l fun p => { p with hdm := tabSet p.hdm n d }
  if bit d.ctl 10 then
    if bit d.ctl 8 || o != 0x10 || bit v 9 then s else put { d with ctl := v % 2 ^ 10 }
  else match o with
    | 0x00 => put { d with base := halfSet d.base 0 v }
    | 0x04 => put { d with base := halfSet d.base 1 v }
    | 0x08 => put { d with size := halfSet d.size 0 v }
    | 0x0C => put { d with size := halfSet d.size 1 v }
    | 0x14 => put { d with skip := halfSet d.skip 0 v }
    | 0x18 => put { d with skip := halfSet d.skip 1 v }
    | 0x10 =>
      let before := n = 0 || (let e := tabGet ({} : HdmDec) (s.port l).hdm (n - 1); bit e.ctl 10 && decide (e.base + e.size ≤ d.base))
      let good := bits v 7 4 ≤ 4 && bits v 3 0 ≤ 6 && 0 < d.size && d.size % (2 ^ 28 * 2 ^ bits v 7 4) == 0 && before
      put { d with ctl := v % 2 ^ 10 + (if bit v 9 then (if good then 2 ^ 10 else 2 ^ 11) else 0) }
    | _ => s

/-- Registers whose fields a CXL standard lays out, not this spec (log 9): component registers, the array and the status of the
device registers, Mailbox Control and Background Command Status. Every other offset that no map assigns reads 0 (R593). -/
def cxlRegister (f : Func) (off : Nat) : Bool :=
  let within (a n : Nat) : Bool := a ≤ off && off < a + n
  (match f with
  | .pf0 _ => off < 0x10000 || within 0x10000 0x40 || within 0x10100 8 || within 0x10200 8
  | _ => false) ||
  match mailboxAt f with
  | some (_, base, _) => within (base + 4) 4 || within (base + 0x18) 8
  | none => false

/-- The registers of a function answer: recovery mode has none but the mailbox and MSI-X (14 R498). -/
def State.regsOpen (s : State) (f : Func) : Bool := s.fnOpen f && (s.rst.configReady || s.rst.recovery)

/-- Vectors of a function (12 R399). -/
def vectorCount (f : Func) : Nat :=
  match f with
  | .vf _ => 4
  | _ => 64

/-! ### Reads (R593, R594) -/

/-- Four bytes at an offset as they stand, and what the read latches: the rest of a 64-bit register, or of QOS_CLASS_BW. -/
def regRead (l : List Reg) (off : Nat) : Nat × Option (Nat × Bytes) :=
  match l.find? fun r => r.1 ≤ off && off < r.1 + r.2.1 with
  | none => (0, none)
  | some (o, w, v) =>
    ((v >>> (8 * (off - o))) % 2 ^ 32, if off = o && 4 < w then some (o + 4, le (w - 4) (v >>> 32)) else none)

/-- What a latch answers at an offset, and what stays latched (R594). -/
def latchRead (x : Option (Nat × Bytes)) (off : Nat) : Option (Nat × Option (Nat × Bytes)) :=
  match x with
  | none => none
  | some (o, b) =>
    if o ≤ off && off < o + b.length then
      some (fld b (off - o) 4, if off + 4 < o + b.length then some (off + 4, b.drop (off + 4 - o)) else none)
    else none

/-- The MSI-X table and PBA of a function in BAR4 (R591). -/
def State.vecRegs (s : State) (f : Func) (off : Nat) : List Reg :=
  let n := vectorCount f
  let g := (s.fn f).vecs
  let v (k : Nat) : Vec := tabGet {} g k
  let pba := if n = 64 then 0x2000 else 0x800
  if pba ≤ off then [(pba, 8, (List.range n).foldl (fun m k => m + 2 ^ k * b2n (v k).pending) 0)]
  else if off / 16 < n then
    let e := v (off / 16)
    [(off / 16 * 16, 4, e.addr % 2 ^ 32), (off / 16 * 16 + 4, 4, e.addr / 2 ^ 32), (off / 16 * 16 + 8, 4, e.data),
     (off / 16 * 16 + 12, 4, b2n e.masked)]
  else []

/-- The registers that a read in a BAR of a function may find; recovery mode has none but the mailbox and MSI-X (14 R498). -/
def State.regsIn (s : State) (f : Func) (bar off : Nat) : List Reg :=
  if bar = 4 then s.vecRegs f off
  else if bar != (match f with
    | .pf0 _ => 0
    | _ => 2) then []
  else s.mailboxRegs f ++ if s.rst.recovery then [] else s.regsAt f off

/-- A read of four bytes in a BAR. -/
def barRead (f : Func) (bar off : Nat) (s : State) : State :=
  let answer (s : State) (v : Nat) (x : Option (Nat × Bytes)) : State :=
    (s.modFn f fun g => { g with latch := x }).send (funcLink s.cfg f) (.regData f off v)
  if !s.regsOpen f then s.dropIo (funcLink s.cfg f)
  else if off % 4 != 0 then answer s 0xFFFFFFFF none
  else if bar != 4 && (s.hdmAt f off).isSome then
    answer s (match s.hdmAt f off with
      | some (l, n, o) => (tabGet ({} : HdmDec) (s.port l).hdm n).read o
      | none => 0) none
  else if bar != 4 && cxlRegister f off then answer s.draw.2 (s.draw.1 % 2 ^ 32) none
  else match (if bar = 4 then none else s.mailboxPayload f off), latchRead (s.fn f).latch (off + 2 ^ 24 * bar) with
    | some v, _ => answer s v none
    | none, some (v, x) => answer s v x
    | none, none =>
      let r := regRead (s.regsIn f bar off) off
      answer s r.1 (r.2.map fun x => (x.1 + 2 ^ 24 * bar, x.2))

/-- REGISTER_LOW_HALF_READ: a read of four bytes, in BAR 0, 2 or 4, or with `bar` from 7 in a structure of configuration space. -/
def registerRead (f : Func) (bar off : Nat) (s : State) : State :=
  if 7 ≤ bar then configRead f bar off s else barRead f bar off s

/-! ### Writes (R593, R595-R600, R602) -/

/-- A value where it lies in its range, else the old one. -/
def inRange (lo hi v old : Nat) : Nat := if lo ≤ v && v ≤ hi then v else old

/-- Bits of a W1C field that a write of ones clears. -/
def w1c {n : Nat} (old : BitVec n) (v : Nat) : BitVec n := old &&& ~~~(BitVec.ofNat n v)

/-- PWR_CTL (17 R573). -/
def State.writePwrCtl (s : State) (v : Nat) : State :=
  let p := s.pwr
  s.setPwr { p with warnMv := inRange 38000 46000 (bits v 15 0) p.warnMv, srIdleUs := bits v 23 16,
                    minMv := if bit v 24 then 0xFFFF else p.minMv }

/-- QOS_CTL (09 R293). -/
def State.writeQosCtl (s : State) (v : Nat) : State :=
  let q := { s.qos with sysClass := bits v 3 0 }
  let a := bits v 14 8
  let b := bits v 22 16
  let c := bits v 30 24
  s.setQos (if a < b && b < c then { q with light := a, mod := b, severe := c } else q)

/-- PSC_TRAY_CTL of a tray that is present (08 R274, 19 R602). -/
def State.writeTray (s : State) (k v : Nat) : State :=
  if !(tabGet ({} : Tray) s.fab.trays k).present then s
  else s.setFab { s.fab with trays := tabMod ({} : Tray) s.fab.trays k fun t => { t with drain := bit v 2 } }

/-- Four bytes written to a module register. -/
def State.writeModule (s : State) (off v : Nat) : State :=
  if off = 0x4000C then s.setRst { s.rst with drainUs := inRange 10 1000 (bits v 9 0) s.rst.drainUs }
  else if off = 0x40020 then s.setFab { s.fab with cplTimeout := inRange 50 50000 (bits v 15 0) s.fab.cplTimeout }
  else if 0x40040 ≤ off && off < 0x40140 then
    let l := (off - 0x40040) / 0x20
    if off % 0x20 = 0 && linkFitted s.cfg l then s.modPort l fun p => { p with storm := bits v 15 0 } else s
  else if off = 0x40200 then s.writePwrCtl v
  else if off = 0x4020C then
    s.setPwr { s.pwr with overvolt := s.pwr.overvolt && !bit v 1, sbShort := s.pwr.sbShort && !bit v 4 }
  else if off = 0x40400 then s.writeQosCtl v
  else if off = 0x40600 then s.setFw { s.fw with confirmMin := inRange 1 1440 (bits v 10 0) s.fw.confirmMin }
  else if off = 0x40700 then s.setBst { s.bst with gbps := inRange 1 63 (bits v 5 0) s.bst.gbps }
  else if off = 0x41000 then
    s.setFab { s.fab with graceUs := inRange 10 10000 (bits v 13 0) s.fab.graceUs,
                          reqTimeoutUs := inRange 50 10000 (bits v 29 16) s.fab.reqTimeoutUs }
  else if 0x41040 ≤ off && off < 0x41080 then s.writeTray ((off - 0x41040) / 4) v
  else s

/-- PRM_MIG_CTL, low half (06 R188, R207). -/
def migLow (m : MigSlice) (v : Nat) : MigSlice :=
  let p := inRange 1 255 (bits v 7 0) m.promoteHeat
  { m with promoteHeat := p, demoteHeat := if bits v 15 8 < p then bits v 15 8 else m.demoteHeat, minResidence := bits v 19 16,
           migRate := inRange 1 63 (bits v 25 20) m.migRate, migEnable := bit v 26 }

/-- PRM_MIG_CTL, high half (06 R189). -/
def migHigh (m : MigSlice) (v : Nat) : MigSlice :=
  let h := inRange 2 100 (bits v 6 0) m.t1High
  { m with t1High := h, t1Low := inRange 1 (h - 1) (bits v 14 8) m.t1Low }

/-- LPE_CTL (06 R196, R197): clearing ENABLE or setting FLUSH invalidates every copy of the slice. -/
def State.writeLpe (s : State) (n v : Nat) : State :=
  let s := s.modMig n fun m => { m with lpeEnable := bit v 0, lpeFill := bits v 3 1 }
  if !bit v 0 || bit v 4 then s.loupeFlush n else s

/-- DRC_MAP_CFG, low half (10 R315, 19 R597): the RWL fields, unless LOCK holds; then LOCK. -/
def State.writeMapCfg (s : State) (n v : Nat) : State :=
  if (s.drcReg n).lock then s
  else
    let c := s.cfg
    let s := { s with cfg := { c with sliceGrain := inRange 12 30 (bits v 4 0) c.sliceGrain, t1Grain := inRange 8 16 (bits v 12 8) c.t1Grain,
                                      t2Grain := inRange 8 16 (bits v 20 16) c.t2Grain, mapFlags := bits v 27 24 } }
    if bit v 31 then s.modDrcReg n fun d => { d with lock := true } else s

/-- DRC_SCHED, low half: IDLE_CYCLES, WR_HIGH and WR_LOW after a write (10 R319, R321). -/
def schedLow (high low v : Nat) : Nat × Nat × Nat :=
  let h := inRange 1 1023 (bits v 17 8) high
  (bits v 7 0, h, if bits v 29 20 < h then bits v 29 20 else low)

/-- ECC_CTL, low half (11). -/
def eccLow (e : EccSlice) (v : Nat) : EccSlice :=
  { e with heavyLimit := inRange 1 15 (bits v 3 0) e.heavyLimit, anyLimit := inRange 1 15 (bits v 7 4) e.anyLimit,
           scrubGbps := inRange 1 63 (bits v 13 8) e.scrubGbps, rebuildT1 := inRange 64 1536 (bits v 26 16) e.rebuildT1 }

/-- ECC_CTL, high half (11). -/
def eccHigh (e : EccSlice) (v : Nat) : EccSlice :=
  { e with rebuildT2 := inRange 1 115 (bits v 6 0) e.rebuildT2, retireLimit := inRange 16 1023 (bits v 17 8) e.retireLimit }

/-- Four bytes written to a DRC_ register. -/
def State.writeDrc (s : State) (n off v : Nat) : State :=
  if off = 0x2000 then s.writeMapCfg n v
  else if off = 0x2008 then s.modDrcReg n fun d =>
    { d with idle1 := (schedLow d.wrHigh1 d.wrLow1 v).1, wrHigh1 := (schedLow d.wrHigh1 d.wrLow1 v).2.1, wrLow1 := (schedLow d.wrHigh1 d.wrLow1 v).2.2 }
  else if off = 0x200C then s.modDrcReg n fun d => { d with age1 := inRange 1 15 (bits v 3 0) d.age1 }
  else if off = 0x2010 then s.modDrcReg n fun d =>
    { d with idle2 := (schedLow d.wrHigh2 d.wrLow2 v).1, wrHigh2 := (schedLow d.wrHigh2 d.wrLow2 v).2.1, wrLow2 := (schedLow d.wrHigh2 d.wrLow2 v).2.2 }
  else if off = 0x2014 then s.modDrcReg n fun d => { d with age2 := inRange 1 15 (bits v 3 0) d.age2 }
  else if off = 0x2018 then s.modDrcReg n fun d =>
    { d with tempPollMs := inRange 1 100 (bits v 6 0) d.tempPollMs, rfmK := inRange 6 16 (bits v 12 8) d.rfmK }
  else if off = 0x2020 then pasrCmd n v s
  else if off = 0x2024 then s.modDrcReg n fun d => { d with freezeLimit := inRange 10 10000 (bits v 13 0) d.freezeLimit }
  else s

/-- Four bytes written to a register of a slice that serves. REBUILD_T1_GBPS and REBUILD_T2_GBPS change the deliverable figure of a
rebuild that runs: the factor follows under cause REBUILD_START (09 R298; the cause is a DESIGN CHOICE, log 99). -/
def State.writeSlice (s : State) (n off v : Nat) : State :=
  if !s.up n || s.cfg.slices ≤ n then s
  else if 0x2000 ≤ off then s.writeDrc n off v
  else if off = 0x0100 then
    if s.restarting n then s else s.modSl n fun r => { r with parkIdleUs := bits v 15 0 }
  else if off = 0x0304 then s.modCk n fun k => { k with overrun := w1c k.overrun v }
  else if off = 0x1018 then s.modCnd n fun c => { c with verifyFail := c.verifyFail && !bit v 0 }
  else if off = 0x101C then s.modCnd n fun c => { c with eyeErr := w1c c.eyeErr v }
  else if off = 0x1100 then s.modMig n fun m =>
    { m with sampleKNext := inRange 4 16 (bits v 4 0) m.sampleKNext, decayMsNext := inRange 1 65535 (bits v 23 8) m.decayMsNext }
  else if off = 0x1108 then s.modMig n fun m => migLow m v
  else if off = 0x110C then s.modMig n fun m => migHigh m v
  else if off = 0x1200 then s.writeLpe n v
  else if off = 0x1300 then s.modDirReg n fun d => { d with recallMs := inRange 1 1000 (bits v 9 0) d.recallMs }
  else if off = 0x1400 then (s.modEccReg n fun e => eccLow e v).rescale n 3
  else if off = 0x1404 then (s.modEccReg n fun e => eccHigh e v).rescale n 3
  else s

/-- Selector registers of a function (R598), exempt from FM_LINKS: `none` where the offset is no selector. -/
def State.writeSelector (s : State) (f : Func) (off v : Nat) : Option State :=
  let n := (off - 0x100000) / 0x20000
  let o := (off - 0x100000) % 0x20000
  if off = 0x40404 then some (s.modFn f fun g => { g with classSel := bits v 3 0 })
  else if off < 0x100000 then none
  else if o = 0x1000 || o = 0x2030 || o = 0x2034 then
    if !s.up n then some s
    else some (s.modFn f fun g =>
      if o = 0x1000 then { g with slotSel := tabSet g.slotSel n (bits v 5 0) }
      else if o = 0x2030 then
        let ok := if bit v 8 then bits v 6 0 < 24 else bits v 6 0 < 96
        { g with drcSel := tabSet g.drcSel n (if ok then bits v 6 0 + 256 * bits v 8 8 else tabGet 0 g.drcSel n % 256 + 256 * bits v 8 8) }
      else
        let t2 := bit (tabGet 0 g.drcSel n) 8
        if t2 && 2 ≤ bits v 1 0 then g else { g with trainSel := tabSet g.trainSel n (bits v 1 0) })
  else none

/-- Four bytes written to a publish doorbell slot: DIR_PUB_DB, and OVERRUN of DIR_PUB_STAT (07 R237, R238). -/
def State.writeSlotReg (s : State) (link off v : Nat) : State :=
  let h := (off - 0x30000) / 0x40
  let o := (off - 0x30000) % 0x40
  if o = 0 then s.rung link h (bits v 11 0) (bit v 12)
  else if o = 8 && bit v 5 && (s.hostRec h).any (·.port == link) then s.modSlot h fun x => { x with overrun := false }
  else s

/-- Four bytes written to BAR0 of PF0 of a link (R586, R599). -/
def State.writeBar0 (s : State) (link off v : Nat) : State :=
  match s.writeSelector (.pf0 link) off v with
  | some t => t
  | none =>
    if off < 0x30000 then
      (match s.hdmAt (.pf0 link) off with
      | some (l, n, o) => s.writeHdm l n o v
      | none => s)
    else if off < 0x40000 then s.writeSlotReg link off v
    else if !bit s.cfg.fmLinks link then s
    else if off < 0x42000 then s.writeModule off v
    else if off < 0x100000 then s
    else s.writeSlice ((off - 0x100000) / 0x20000) ((off - 0x100000) % 0x20000) v

/-- ENG_ARITH_STICKY (02 R71): ones clear bits [4:0], and FIRST_VALID clears once they are all 0. -/
def stickyClear (old : BitVec 32) (v : Nat) : BitVec 32 :=
  let x := w1c old (v % 32)
  if x.toNat % 32 = 0 then w1c x 0x10000 else x

/-- Four bytes written to BAR2 of PF1 or a VF (R590). -/
def State.writeBar2 (s : State) (f : Func) (off v : Nat) : State :=
  if off = 0 then s.modFn f fun g => { g with sticky := stickyClear g.sticky v }
  else if off = 0x100 then curSel f (v % 256) s
  else if off = 0x104 then
    match s.selCursor f with
    | some _ => s.modCur (s.fn f).curSel fun c => { c with flags := w1c c.flags v }
    | none => s
  else s

/-- An MSI-X table entry after four bytes of it are written: address, data and the Mask bit (R591). -/
def vecWrite (e : Vec) (word v : Nat) : Vec :=
  match word with
  | 0 => { e with addr := e.addr / 2 ^ 32 * 2 ^ 32 + v / 4 * 4 }
  | 1 => { e with addr := e.addr % 2 ^ 32 + v * 2 ^ 32 }
  | 2 => { e with data := v }
  | _ => { e with masked := bit v 0 }

/-- Four bytes written to BAR4: the MSI-X table; the PBA ignores writes. -/
def State.writeBar4 (s : State) (f : Func) (off v : Nat) : State :=
  let k := off / 16
  if vectorCount f ≤ k then s
  else (s.modFn f fun g => { g with vecs := tabMod ({} : Vec) g.vecs k fun e => vecWrite e (off % 16 / 4) v }).release f k

/-- Four bytes written to a BAR of a function. -/
def State.write4 (s : State) (f : Func) (bar off v : Nat) : State :=
  if bar = 4 then s.writeBar4 f off v
  else if s.rst.recovery then s
  else match f with
    | .pf0 l => if bar = 0 then s.writeBar0 l off v else s
    | _ => if bar = 2 then s.writeBar2 f off v else s

/-- The 4-byte parts of a write in ascending order: none for another size, or a write that is not aligned (R593). -/
def writeParts (off size val : Nat) : List (Nat × Nat) :=
  if size = 4 && off % 4 = 0 then [(off, val % 2 ^ 32)]
  else if size = 8 && off % 8 = 0 then [(off, val % 2 ^ 32), (off + 4, (val >>> 32) % 2 ^ 32)]
  else if size = 16 && off % 8 = 0 then
    (List.range 4).map fun k => (off + 4 * k, (val >>> (32 * k)) % 2 ^ 32)
  else []

/-- REGISTER_WRITE: a posted write to a BAR of a function. -/
def registerWrite (f : Func) (bar off size val : Nat) (s : State) : State :=
  if !s.regsOpen f then s.dropIo (funcLink s.cfg f)
  else (writeParts off size val).foldl (fun s p => s.write4 f bar p.1 p.2) (s.touch f)

/-- A 4-byte write to a BAR0 register. -/
def State.write0 (s : State) (f : Func) (off val : Nat) : State := registerWrite f 0 off 4 val s

def sliceOff (n off : Nat) : Nat := 0x100000 + 0x20000 * n + off

/-! ### Meanings -/

def execLoupeFlush (fn : Func) (slice val : Nat) (s : State) : Host.Outcome State Fault Refusal :=
  .next (if bit val 4 then s.write0 fn (sliceOff slice 0x1200) val else s)
def execLoupeDisable (fn : Func) (slice val : Nat) (s : State) : Host.Outcome State Fault Refusal :=
  .next (if !bit val 0 then s.write0 fn (sliceOff slice 0x1200) val else s)
def execLock (fn : Func) (slice val : Nat) (s : State) : Host.Outcome State Fault Refusal :=
  .next (if bit val 31 then s.write0 fn (sliceOff slice 0x2000) val else s)
def execMinClr (fn : Func) (val : Nat) (s : State) : Host.Outcome State Fault Refusal :=
  .next (if bit val 24 then s.write0 fn 0x40200 val else s)
def execRegisterLowHalfRead (fn : Func) (off : RegAt) (s : State) : Host.Outcome State Fault Refusal :=
  .next (registerRead fn off.bar off.off s)
def execRegisterWrite (fn : Func) (bar off size val : Nat) (s : State) : Host.Outcome State Fault Refusal :=
  .next (registerWrite fn bar off size val s)

end Sys2Proof.Machine
end

