-- ==== Sys2Proof/Machine/Dispatch.lean ====
section
/-! DEFINITION. One arm per constructor of Instr: a direct call of the command's meaning, or a rejection by name. -/
namespace Sys2Proof.Machine
open Sys2Proof

def exec (i : Instr) (s : State) : Host.Outcome State Fault Refusal :=
  match i with
  | .hostRead link pbr dpa flips => Sys2Proof.Machine.execHostRead link pbr dpa flips s
  | .hostWrite link pbr dpa data be poison => Sys2Proof.Machine.execHostWrite link pbr dpa data be poison s
  | .loupeFill page cls => Sys2Proof.Machine.execLoupeFill page cls s
  | .condenserCodeBlock page => Sys2Proof.Machine.execCondenserCodeBlock page s
  | .blockDecode item source unit flips => Sys2Proof.Machine.execBlockDecode item source unit flips s
  | .heldWriteReexamine slice => Sys2Proof.Machine.execHeldWriteReexamine slice s
  | .holdLimitExpiry slice => Sys2Proof.Machine.execHoldLimitExpiry slice s
  | .overrunReliefPromotion base => Sys2Proof.Machine.execOverrunReliefPromotion base s
  | .epochAdvance slice => Sys2Proof.Machine.execEpochAdvance slice s
  | .migrationScan item => Sys2Proof.Machine.execMigrationScan item s
  | .moveSwitch item => Sys2Proof.Machine.execMoveSwitch item s
  | .moveCancel item => Sys2Proof.Machine.execMoveCancel item s
  | .retireListSave => Sys2Proof.Machine.execRetireListSave s
  | .rdS link pbr dpa => Sys2Proof.Machine.execRdS link pbr dpa s
  | .rdE link pbr dpa => Sys2Proof.Machine.execRdE link pbr dpa s
  | .rdI link pbr dpa => Sys2Proof.Machine.execRdI link pbr dpa s
  | .wb link pbr dpa data keep => Sys2Proof.Machine.execWb link pbr dpa data keep s
  | .evict link pbr dpa => Sys2Proof.Machine.execEvict link pbr dpa s
  | .birsp host dpa invalid => Sys2Proof.Machine.execBirsp host dpa invalid s
  | .recallTimeout dpa => Sys2Proof.Machine.execRecallTimeout dpa s
  | .dirPubDb link slot region => Sys2Proof.Machine.execDirPubDb link slot region s
  | .dirPubQuery link slot region => Sys2Proof.Machine.execDirPubQuery link slot region s
  | .publishFenceDone region host => Sys2Proof.Machine.execPublishFenceDone region host s
  | .publish via inp => Sys2Proof.Machine.execPublish via inp s
  | .publishQuery via inp => Sys2Proof.Machine.execPublishQuery via inp s
  | .hostLostLost via inp => Sys2Proof.Machine.execHostLostLost via inp s
  | .hostLostDone => Sys2Proof.Machine.execHostLostDone s
  | .hostLostReinstate via inp => Sys2Proof.Machine.execHostLostReinstate via inp s
  | .cursorWrite cu stamp => Sys2Proof.Machine.execCursorWrite cu stamp s
  | .layerAdvanceReceived slice cu => Sys2Proof.Machine.execLayerAdvanceReceived slice cu s
  | .doorbell cu q => Sys2Proof.Machine.execDoorbell cu q s
  | .stepConsume cu q => Sys2Proof.Machine.execStepConsume cu q s
  | .stepStart step => Sys2Proof.Machine.execStepStart step s
  | .readinessCheck step => Sys2Proof.Machine.execReadinessCheck step s
  | .demandFetchDone step => Sys2Proof.Machine.execDemandFetchDone step s
  | .lateAbort step => Sys2Proof.Machine.execLateAbort step s
  | .matmul step => Sys2Proof.Machine.execMatmul step s
  | .attend step => Sys2Proof.Machine.execAttend step s
  | .norm step => Sys2Proof.Machine.execNorm step s
  | .act step => Sys2Proof.Machine.execAct step s
  | .rotate step => Sys2Proof.Machine.execRotate step s
  | .route step => Sys2Proof.Machine.execRoute step s
  | .gatherConcat step => Sys2Proof.Machine.execGatherConcat step s
  | .gatherSum step => Sys2Proof.Machine.execGatherSum step s
  | .gatherInput step => Sys2Proof.Machine.execGatherInput step s
  | .scatterBroadcast step => Sys2Proof.Machine.execScatterBroadcast step s
  | .scatterSplit step => Sys2Proof.Machine.execScatterSplit step s
  | .add step => Sys2Proof.Machine.execAdd step s
  | .quant step => Sys2Proof.Machine.execQuant step s
  | .copyOut step => Sys2Proof.Machine.execCopyOut step s
  | .stepEnd step => Sys2Proof.Machine.execStepEnd step s
  | .stepComplete cu q => Sys2Proof.Machine.execStepComplete cu q s
  | .completionRingRoom cu q => Sys2Proof.Machine.execCompletionRingRoom cu q s
  | .stagingFetchIssue slice => Sys2Proof.Machine.execStagingFetchIssue slice s
  | .stagingFetchDone fetch => Sys2Proof.Machine.execStagingFetchDone fetch s
  | .deadlineMiss cu ordinal => Sys2Proof.Machine.execDeadlineMiss cu ordinal s
  | .enginePark slice => Sys2Proof.Machine.execEnginePark slice s
  | .engineWake slice => Sys2Proof.Machine.execEngineWake slice s
  | .cursorBind via inp => Sys2Proof.Machine.execCursorBind via inp s
  | .cursorUnbind via inp => Sys2Proof.Machine.execCursorUnbind via inp s
  | .cursorUnbindDone cu => Sys2Proof.Machine.execCursorUnbindDone cu s
  | .modelLoad via inp => Sys2Proof.Machine.execModelLoad via inp s
  | .modelLoadDone tenant => Sys2Proof.Machine.execModelLoadDone tenant s
  | .modelUnload via inp => Sys2Proof.Machine.execModelUnload via inp s
  | .tileWrite via inp => Sys2Proof.Machine.execTileWrite via inp s
  | .modelQuery via inp => Sys2Proof.Machine.execModelQuery via inp s
  | .tableLoad via inp => Sys2Proof.Machine.execTableLoad via inp s
  | .tableBuilt slice slot => Sys2Proof.Machine.execTableBuilt slice slot s
  | .tableRetire via inp => Sys2Proof.Machine.execTableRetire via inp s
  | .slotRelease slice slot => Sys2Proof.Machine.execSlotRelease slice slot s
  | .recodeBlock item => Sys2Proof.Machine.execRecodeBlock item s
  | .dcAdd via hosts base len tag => Sys2Proof.Machine.execDcAdd via hosts base len tag s
  | .addDynamicCapacityResponse link host bases => Sys2Proof.Machine.execAddDynamicCapacityResponse link host bases s
  | .dcRelease via base => Sys2Proof.Machine.execDcRelease via base s
  | .extentPolicySetExtent via inp => Sys2Proof.Machine.execExtentPolicySetExtent via inp s
  | .sharingChangeDone base => Sys2Proof.Machine.execSharingChangeDone base s
  | .extentPolicySetTenant via inp => Sys2Proof.Machine.execExtentPolicySetTenant via inp s
  | .qosSetClassHost via inp => Sys2Proof.Machine.execQosSetClassHost via inp s
  | .qosSetClassTenant via inp => Sys2Proof.Machine.execQosSetClassTenant via inp s
  | .qosSetClassClass via inp => Sys2Proof.Machine.execQosSetClassClass via inp s
  | .qosAdmit via inp => Sys2Proof.Machine.execQosAdmit via inp s
  | .qosQuery via inp => Sys2Proof.Machine.execQosQuery via inp s
  | .bankIdlePrecharge ctl bank => Sys2Proof.Machine.execBankIdlePrecharge ctl bank s
  | .requestUrgent ctl bank => Sys2Proof.Machine.execRequestUrgent ctl bank s
  | .refresh ctl bank => Sys2Proof.Machine.execRefresh ctl bank s
  | .rfmMark ctl bank draw => Sys2Proof.Machine.execRfmMark ctl bank draw s
  | .rfmDue ctl bank => Sys2Proof.Machine.execRfmDue ctl bank s
  | .tempPoll slice temps mr4 => Sys2Proof.Machine.execTempPoll slice temps mr4 s
  | .driftTracking ctl bad => Sys2Proof.Machine.execDriftTracking ctl bad s
  | .controllerTrained ctl lanes => Sys2Proof.Machine.execControllerTrained ctl lanes s
  | .controllerFreeze ctl cause addr => Sys2Proof.Machine.execControllerFreeze ctl cause addr s
  | .freezePoisonTimeout ctl => Sys2Proof.Machine.execFreezePoisonTimeout ctl s
  | .autoRetire ctl => Sys2Proof.Machine.execAutoRetire ctl s
  | .drcFreezeDump via inp => Sys2Proof.Machine.execDrcFreezeDump via inp s
  | .drcThaw via inp => Sys2Proof.Machine.execDrcThaw via inp s
  | .drcRetireChannel via inp => Sys2Proof.Machine.execDrcRetireChannel via inp s
  | .applyMask fn slice val => Sys2Proof.Machine.execApplyMask fn slice val s
  | .applyEvac fn slice val => Sys2Proof.Machine.execApplyEvac fn slice val s
  | .selfRefreshEntry ctl => Sys2Proof.Machine.execSelfRefreshEntry ctl s
  | .stackFailure slice stack => Sys2Proof.Machine.execStackFailure slice stack s
  | .rebuildDone slice => Sys2Proof.Machine.execRebuildDone slice s
  | .scrubRange via inp => Sys2Proof.Machine.execScrubRange via inp s
  | .scrubCancel via inp => Sys2Proof.Machine.execScrubCancel via inp s
  | .scrubHomeRead scrub item flips => Sys2Proof.Machine.execScrubHomeRead scrub item flips s
  | .scrubStatus via inp => Sys2Proof.Machine.execScrubStatus via inp s
  | .retireListGet via inp => Sys2Proof.Machine.execRetireListGet via inp s
  | .peerLinkTrain port lanes => Sys2Proof.Machine.execPeerLinkTrain port lanes s
  | .flitReceive port flit => Sys2Proof.Machine.execFlitReceive port flit s
  | .retryReq port seq => Sys2Proof.Machine.execRetryReq port seq s
  | .retryReqRepeat port => Sys2Proof.Machine.execRetryReqRepeat port s
  | .ackTimer port => Sys2Proof.Machine.execAckTimer port s
  | .peerLinkDown port => Sys2Proof.Machine.execPeerLinkDown port s
  | .peerLinkRetrained port lanes => Sys2Proof.Machine.execPeerLinkRetrained port lanes s
  | .portDown port => Sys2Proof.Machine.execPortDown port s
  | .rd msg => Sys2Proof.Machine.execRd msg s
  | .wr msg => Sys2Proof.Machine.execWr msg s
  | .rdData msg => Sys2Proof.Machine.execRdData msg s
  | .wrAck msg => Sys2Proof.Machine.execWrAck msg s
  | .nack msg => Sys2Proof.Machine.execNack msg s
  | .reqTimeoutExpiry tag => Sys2Proof.Machine.execReqTimeoutExpiry tag s
  | .hello port cid module master epoch => Sys2Proof.Machine.execHello port cid module master epoch s
  | .heartbeat src => Sys2Proof.Machine.execHeartbeat src s
  | .heartbeatTimer => Sys2Proof.Machine.execHeartbeatTimer s
  | .memberLost module => Sys2Proof.Machine.execMemberLost module s
  | .masterLost => Sys2Proof.Machine.execMasterLost s
  | .joinReq port serial report level => Sys2Proof.Machine.execJoinReq port serial report level s
  | .joinAck src module epoch routes => Sys2Proof.Machine.execJoinAck src module epoch routes s
  | .joinTimeout => Sys2Proof.Machine.execJoinTimeout s
  | .membership src epoch table routes => Sys2Proof.Machine.execMembership src epoch table routes s
  | .membershipAck src epoch => Sys2Proof.Machine.execMembershipAck src epoch s
  | .poll src => Sys2Proof.Machine.execPoll src s
  | .windowNotice src lw size borrower gen => Sys2Proof.Machine.execWindowNotice src lw size borrower gen s
  | .windowInfo src lw => Sys2Proof.Machine.execWindowInfo src lw s
  | .occupancy src lw => Sys2Proof.Machine.execOccupancy src lw s
  | .periscopeWindowStage via inp => Sys2Proof.Machine.execPeriscopeWindowStage via inp s
  | .periscopeCommit via inp => Sys2Proof.Machine.execPeriscopeCommit via inp s
  | .constellationJoinAdmit via inp => Sys2Proof.Machine.execConstellationJoinAdmit via inp s
  | .constellationJoinJoin via inp => Sys2Proof.Machine.execConstellationJoinJoin via inp s
  | .constellationJoinLeave via inp => Sys2Proof.Machine.execConstellationJoinLeave via inp s
  | .constellationStatus via inp => Sys2Proof.Machine.execConstellationStatus via inp s
  | .constellationMasterSet via inp => Sys2Proof.Machine.execConstellationMasterSet via inp s
  | .trayCompletion tag poison => Sys2Proof.Machine.execTrayCompletion tag poison s
  | .trayReadTimeout entry => Sys2Proof.Machine.execTrayReadTimeout entry s
  | .tagReuse entry => Sys2Proof.Machine.execTagReuse entry s
  | .tp0LinkError trays => Sys2Proof.Machine.execTp0LinkError trays s
  | .trayDrain fn tray drain => Sys2Proof.Machine.execTrayDrain fn tray drain s
  | .linkUp link offer => Sys2Proof.Machine.execLinkUp link offer s
  | .linkDown link => Sys2Proof.Machine.execLinkDown link s
  | .perst port => Sys2Proof.Machine.execPerst port s
  | .flrVf tenant => Sys2Proof.Machine.execFlrVf tenant s
  | .flrPf1 port => Sys2Proof.Machine.execFlrPf1 port s
  | .flrPf0 link => Sys2Proof.Machine.execFlrPf0 link s
  | .vfEnable port numVfs enable => Sys2Proof.Machine.execVfEnable port numVfs enable s
  | .biEnableWrite link enable => Sys2Proof.Machine.execBiEnableWrite link enable s
  | .powerStateWrite fn d3hot => Sys2Proof.Machine.execPowerStateWrite fn d3hot s
  | .msixRelease fn vector => Sys2Proof.Machine.execMsixRelease fn vector s
  | .portFreeze link cause => Sys2Proof.Machine.execPortFreeze link cause s
  | .poisonCountRestart link => Sys2Proof.Machine.execPoisonCountRestart link s
  | .portRelease via inp => Sys2Proof.Machine.execPortRelease via inp s
  | .portReleaseLinkReset via inp => Sys2Proof.Machine.execPortReleaseLinkReset via inp s
  | .unexpectedCompletion link => Sys2Proof.Machine.execUnexpectedCompletion link s
  | .globalPersistentFlush link phase => Sys2Proof.Machine.execGlobalPersistentFlush link phase s
  | .identify via => Sys2Proof.Machine.execIdentify via s
  | .backgroundOperationStatus via => Sys2Proof.Machine.execBackgroundOperationStatus via s
  | .requestAbortBackgroundOperation via => Sys2Proof.Machine.execRequestAbortBackgroundOperation via s
  | .identifyMemoryDevice via => Sys2Proof.Machine.execIdentifyMemoryDevice via s
  | .getHealthInfo via => Sys2Proof.Machine.execGetHealthInfo via s
  | .getEventRecords via log => Sys2Proof.Machine.execGetEventRecords via log s
  | .clearEventRecords via log all handles => Sys2Proof.Machine.execClearEventRecords via log all handles s
  | .getEventInterruptPolicy via => Sys2Proof.Machine.execGetEventInterruptPolicy via s
  | .setEventInterruptPolicy via modes => Sys2Proof.Machine.execSetEventInterruptPolicy via modes s
  | .getSupportedLogs via => Sys2Proof.Machine.execGetSupportedLogs via s
  | .getLog via => Sys2Proof.Machine.execGetLog via s
  | .getTimestamp via => Sys2Proof.Machine.execGetTimestamp via s
  | .setTimestamp via ns => Sys2Proof.Machine.execSetTimestamp via ns s
  | .getFwInfo via => Sys2Proof.Machine.execGetFwInfo via s
  | .getPoisonList via start len => Sys2Proof.Machine.execGetPoisonList via start len s
  | .injectPoison via dpa => Sys2Proof.Machine.execInjectPoison via dpa s
  | .clearPoison via dpa data => Sys2Proof.Machine.execClearPoison via dpa data s
  | .getDynamicCapacityConfiguration via start => Sys2Proof.Machine.execGetDynamicCapacityConfiguration via start s
  | .getDynamicCapacityExtentList via host start => Sys2Proof.Machine.execGetDynamicCapacityExtentList via host start s
  | .releaseDynamicCapacity link host bases => Sys2Proof.Machine.execReleaseDynamicCapacity link host bases s
  | .unsupportedCommand via opcode => Sys2Proof.Machine.execUnsupportedCommand via opcode s
  | .getDeviceProfile via inp => Sys2Proof.Machine.execGetDeviceProfile via inp s
  | .getSliceStatus via inp => Sys2Proof.Machine.execGetSliceStatus via inp s
  | .fwChainOfferBegin via inp => Sys2Proof.Machine.execFwChainOfferBegin via inp s
  | .fwChainOfferSegment via inp => Sys2Proof.Machine.execFwChainOfferSegment via inp s
  | .fwChainOfferOffer via inp => Sys2Proof.Machine.execFwChainOfferOffer via inp s
  | .fwChainOfferAbort via inp => Sys2Proof.Machine.execFwChainOfferAbort via inp s
  | .offerVerified => Sys2Proof.Machine.execOfferVerified s
  | .flashWriteStep => Sys2Proof.Machine.execFlashWriteStep s
  | .flashWriteRetry => Sys2Proof.Machine.execFlashWriteRetry s
  | .imageWriteDone readback offset => Sys2Proof.Machine.execImageWriteDone readback offset s
  | .announce src chain bytes crc version kind order => Sys2Proof.Machine.execAnnounce src chain bytes crc version kind order s
  | .ready src result => Sys2Proof.Machine.execReady src result s
  | .segment src offset data => Sys2Proof.Machine.execSegment src offset data s
  | .resend src offset => Sys2Proof.Machine.execResend src offset s
  | .done src => Sys2Proof.Machine.execDone src s
  | .received src mismatch => Sys2Proof.Machine.execReceived src mismatch s
  | .result module result fwState => Sys2Proof.Machine.execResult module result fwState s
  | .chainHopTimeout => Sys2Proof.Machine.execChainHopTimeout s
  | .activate src => Sys2Proof.Machine.execActivate src s
  | .activated module result fwState => Sys2Proof.Machine.execActivated module result fwState s
  | .activateTimeout => Sys2Proof.Machine.execActivateTimeout s
  | .fwActivate via inp => Sys2Proof.Machine.execFwActivate via inp s
  | .fwActivateConstellation via inp => Sys2Proof.Machine.execFwActivateConstellation via inp s
  | .handoverPause => Sys2Proof.Machine.execHandoverPause s
  | .handoverBarrier => Sys2Proof.Machine.execHandoverBarrier s
  | .handoverImportDone accepted => Sys2Proof.Machine.execHandoverImportDone accepted s
  | .handoverTimeout => Sys2Proof.Machine.execHandoverTimeout s
  | .barrierAbort => Sys2Proof.Machine.execBarrierAbort s
  | .handoverNextUnit => Sys2Proof.Machine.execHandoverNextUnit s
  | .handoverComplete => Sys2Proof.Machine.execHandoverComplete s
  | .fwConfirm via inp => Sys2Proof.Machine.execFwConfirm via inp s
  | .confirmExpired => Sys2Proof.Machine.execConfirmExpired s
  | .fwStatus via inp => Sys2Proof.Machine.execFwStatus via inp s
  | .fwRecoveryEnter via inp => Sys2Proof.Machine.execFwRecoveryEnter via inp s
  | .presenceStatus via inp => Sys2Proof.Machine.execPresenceStatus via inp s
  | .attestDual via inp => Sys2Proof.Machine.execAttestDual via inp s
  | .identityRotate via inp => Sys2Proof.Machine.execIdentityRotate via inp s
  | .sanitizeAll via inp => Sys2Proof.Machine.execSanitizeAll via inp s
  | .debugUnlock via inp => Sys2Proof.Machine.execDebugUnlock via inp s
  | .freqSet via inp => Sys2Proof.Machine.execFreqSet via inp s
  | .holdupStatus via inp => Sys2Proof.Machine.execHoldupStatus via inp s
  | .bistRun via inp => Sys2Proof.Machine.execBistRun via inp s
  | .bistSuiteDone slice fails => Sys2Proof.Machine.execBistSuiteDone slice fails s
  | .bistSuiteTimeout slice unit => Sys2Proof.Machine.execBistSuiteTimeout slice unit s
  | .bistResult via inp => Sys2Proof.Machine.execBistResult via inp s
  | .presenceButton => Sys2Proof.Machine.execPresenceButton s
  | .buttonWindowExpiry => Sys2Proof.Machine.execButtonWindowExpiry s
  | .sealOpen => Sys2Proof.Machine.execSealOpen s
  | .sealRecordRetry => Sys2Proof.Machine.execSealRecordRetry s
  | .moduleReset cause boot => Sys2Proof.Machine.execModuleReset cause boot s
  | .watchdogExpiry slice boot => Sys2Proof.Machine.execWatchdogExpiry slice boot s
  | .sliceReset slice cause => Sys2Proof.Machine.execSliceReset slice cause s
  | .drainCut slice => Sys2Proof.Machine.execDrainCut slice s
  | .sliceReturn slice badClusters badBanks => Sys2Proof.Machine.execSliceReturn slice badClusters badBanks s
  | .sliceReturnTimeout slice => Sys2Proof.Machine.execSliceReturnTimeout slice s
  | .sliceLost slice cause => Sys2Proof.Machine.execSliceLost slice cause s
  | .tenantReset tenant => Sys2Proof.Machine.execTenantReset tenant s
  | .refLost => Sys2Proof.Machine.execRefLost s
  | .refSwitch => Sys2Proof.Machine.execRefSwitch s
  | .clockFault slice domain inst => Sys2Proof.Machine.execClockFault slice domain inst s
  | .crossingFlush slice group => Sys2Proof.Machine.execCrossingFlush slice group s
  | .crossingEscalation slice group side => Sys2Proof.Machine.execCrossingEscalation slice group side s
  | .engFreqChange slice => Sys2Proof.Machine.execEngFreqChange slice s
  | .engFreqChangeDone slice => Sys2Proof.Machine.execEngFreqChangeDone slice s
  | .freqChangeDeferEnd slice => Sys2Proof.Machine.execFreqChangeDeferEnd slice s
  | .junctionPoll slice celsius => Sys2Proof.Machine.execJunctionPoll slice celsius s
  | .inputSample mv => Sys2Proof.Machine.execInputSample mv s
  | .brownoutGuardEnter => Sys2Proof.Machine.execBrownoutGuardEnter s
  | .brownoutGuardExit => Sys2Proof.Machine.execBrownoutGuardExit s
  | .inputLoss => Sys2Proof.Machine.execInputLoss s
  | .bankExhausted => Sys2Proof.Machine.execBankExhausted s
  | .powerEnable jumper => Sys2Proof.Machine.execPowerEnable jumper s
  | .holdupTest esr rechargeUs => Sys2Proof.Machine.execHoldupTest esr rechargeUs s
  | .sbShort => Sys2Proof.Machine.execSbShort s
  | .smbusTimeout => Sys2Proof.Machine.execSmbusTimeout s
  | .curSel fn cursor => Sys2Proof.Machine.execCurSel fn cursor s
  | .loupeFlush fn slice val => Sys2Proof.Machine.execLoupeFlush fn slice val s
  | .loupeDisable fn slice val => Sys2Proof.Machine.execLoupeDisable fn slice val s
  | .lock fn slice val => Sys2Proof.Machine.execLock fn slice val s
  | .minClr fn val => Sys2Proof.Machine.execMinClr fn val s
  | .registerLowHalfRead fn off => Sys2Proof.Machine.execRegisterLowHalfRead fn off s
  | .registerWrite fn bar off size val => Sys2Proof.Machine.execRegisterWrite fn bar off size val s
  | .bankCommandIssue ctl => Sys2Proof.Machine.execBankCommandIssue ctl s
  | .hostBucketRefill host => Sys2Proof.Machine.execHostBucketRefill host s
  | .requestTagReuse tag => Sys2Proof.Machine.execRequestTagReuse tag s
  | .ucieEdgeDown slice edge => Sys2Proof.Machine.execUcieEdgeDown slice edge s
  | .ucieLaneRepair slice => Sys2Proof.Machine.execUcieLaneRepair slice s
  | .stripeRebuilt slice => Sys2Proof.Machine.execStripeRebuilt slice s
  | .sanitizeAllDone fails => Sys2Proof.Machine.execSanitizeAllDone fails s
  | .serviceJumperRemoved => Sys2Proof.Machine.execServiceJumperRemoved s
  | .sealLoopClosed => Sys2Proof.Machine.execSealLoopClosed s
  | .buttonPressed => Sys2Proof.Machine.execButtonPressed s
  | .buttonReleased => Sys2Proof.Machine.execButtonReleased s
  | .perstDeassert port => Sys2Proof.Machine.execPerstDeassert port s
  | .spdmRequest link req => Sys2Proof.Machine.execSpdmRequest link req s
  | .pollAnswer src epoch serial level => Sys2Proof.Machine.execPollAnswer src epoch serial level s
  | .occupancyAnswer src lw highest => Sys2Proof.Machine.execOccupancyAnswer src lw highest s
  | .mctpSetEndpointId eid => Sys2Proof.Machine.execMctpSetEndpointId eid s

end Sys2Proof.Machine
end

