-- ==== Sys2Proof/Safety.lean ====
section
/-! DEFINITION. What counts as a safe state, in the terms claims use. -/
namespace Sys2Proof.Machine
open Sys2Proof

/-- Pool memory keeps its one canonical form. -/
def State.MemOk (s : State) : Prop := memWf s.pool.mem = true

end Sys2Proof.Machine
end

