-- ==== Sys2Proof/Certificates/Slice0/Obligations.lean ====
section
/-! DEFINITION. The statements for the provers: `def Obligations.<Name> : Prop`, and the notions they are written in. A
clause about one command says that `exec` answers a next state on hypotheses about the state and the operands alone, what
that state holds, and (as an equation `t = { s with … }`) which parts of the state may differ at all. -/
namespace Sys2Proof.Claims
open Sys2Proof Sys2Proof.Machine

/-- `exec` answers a next state with a property. -/
def Gives (i : Instr) (s : State) (P : State → Prop) : Prop := ∃ t, exec i s = .next t ∧ P t

/-- `exec` answers the state in which the directory's waiting requests have gone on (07 R214) from one with a property. -/
def Settles (i : Instr) (s : State) (P : State → Prop) : Prop := ∃ u, exec i s = .next u.dirSettle ∧ P u

/-- A command on an interface is taken at once: the interface takes commands, none is paused, and none of the refusals that
come before the command's own checks holds (13 R420-R425). -/
abbrev Accepted (c : Row) (v : Iface) (len : Nat) (s : State) : Prop :=
  s.ifaceUp v = true ∧ s.mbxPaused = false ∧ s.refusal c v len = none

/-- The next state is a state `s'` with the response to a command on its interface. -/
abbrev Answers (v : Iface) (op : Nat) (r : Ret) (out : Bytes) (s' t : State) : Prop := t = s'.respond v op r out

/-- A host's read or write on a link reaches a line of an extent of the host, which no directory tracks (09 R279, R280). -/
abbrev Reaches (link : Nat) (pbr : Option Nat) (dpa h : Nat) (r : HostRec) (b : Nat) (e : Extent) (s : State) : Prop :=
  linkFitted s.cfg link = true ∧ (s.port link).link = 2 ∧ (s.port link).cxlGen ≠ 0 ∧ (s.port link).frozen = false ∧
  s.hostId link pbr = some h ∧ s.hostRec h = some r ∧ r.limit = 0 ∧ r.granted = [] ∧ s.reach link h dpa = some (b, e) ∧ dpa % 64 = 0

/-- Nothing but one DRAM controller and the time base differs. -/
abbrev OnlyChan (c : Ctl) (s t : State) : Prop :=
  t = { s with tbc := t.tbc, drc := { s.drc with chans := t.drc.chans } } ∧
  ∀ k, k ≠ ctlKey c → tabFind t.drc.chans k = tabFind s.drc.chans k

/-- The engine holds no step, cursor, sequence or load, no release waits for one, and no slice drains. -/
abbrev EngineIdle (s : State) : Prop :=
  s.eng.steps = [] ∧ s.eng.cursors = [] ∧ s.eng.seqs = [] ∧ s.eng.loads = [] ∧ s.pool.releasing = [] ∧ ∀ n < 8, (s.sl n).state ≠ 2

/-- Only firmware state, records, and what interfaces and links are told differ. -/
abbrev OnlyFw (s t : State) : Prop :=
  t = { s with fw := t.fw, mbx := t.mbx, fns := t.fns, out := t.out, fab := { s.fab with ports := t.fab.ports } }

/-- The management messages among what has left. -/
def mgmts (l : List Out) : List Out := l.filter fun o => match o with
  | .mgmt _ _ _ _ => true
  | _ => false

/-- The content of a management message. -/
def contentOf : Out → Bytes
  | .mgmt _ _ _ d => d
  | _ => []

end Sys2Proof.Claims

open Sys2Proof Sys2Proof.Machine Sys2Proof.Claims

/-! ## The machine as a whole -/

/-- A step with a command at the front of the queue is that command's `exec` on the state with the queue's rest. -/
def Obligations.StepRunsFrontCommand : Prop :=
  ∀ (c : Instr) (rest : List Instr) (s : State), s.pending = c :: rest → step s = exec c { s with pending := rest }

/-- A step on an empty queue is one tick of the time base and changes nothing else (the model's choice, log 1). -/
def Obligations.EmptyQueueTicks : Prop :=
  ∀ s : State, s.pending = [] → step s = .next { s with tbc := s.tbc + 1 }

/-- Pool memory has its canonical form at reset. The form itself is the model's choice (log 4). -/
def Obligations.ResetMemoryIsCanonical : Prop := State.reset.MemOk ∧ State.reset.pool.mem = []

/-- Every step keeps the canonical form of pool memory: addresses strictly rising, no cell that holds 0. The form itself is the model's choice (log 4). -/
def Obligations.StepKeepsMemoryCanonical : Prop :=
  ∀ s t : State, s.MemOk → step s = .next t → t.MemOk

/-! ## Pool memory -/

/-- R172: a read of a line of a page that has no home answers 64 bytes of zeros, and memory stays as it is. -/
def Obligations.ReadOfUnwrittenPageIsZero : Prop :=
  ∀ link pbr dpa flips h r b e s, Reaches link pbr dpa h r b e s → e.policy.sharing = 0 →
    s.lineBusy (dpa / 64) = false → s.linePoison (dpa / 64) = false → s.homeOf (.page (dpa / 4096)) = none →
    Gives (.hostRead link pbr dpa flips) s fun t =>
      (∃ dl, t.out = .readData link pbr dpa (List.replicate 64 0) false 0 dl :: s.out) ∧
      t = { s with out := t.out, freeDraws := t.freeDraws, pool := { s.pool with pages := t.pool.pages } }

/-- A read of a line homed in T1, without symbols in error, waits for its access at the line's controller with the line's bytes, or
answers them at once where no controller serves the line; memory stays as it is. The access that ends such a wait answers the
read with those bytes (R317). -/
def Obligations.ReadOfT1LineAnswersMemory : Prop :=
  (∀ link pbr dpa h r b e (hm : Home) rr es s, Reaches link pbr dpa h r b e s → e.policy.sharing = 0 →
    s.lineBusy (dpa / 64) = false → s.linePoison (dpa / 64) = false → s.homeOf (.page (dpa / 4096)) = some hm → hm.tier = 1 →
    s.homeFrozen (s.sliceOf dpa) hm (64 * (dpa / 64 % 64)) 64 = none →
    s.entriesFor (s.sliceOf dpa) hm (64 * (dpa / 64 % 64)) 64 false r.cls = es →
    rr = { link := link, pbr := pbr, host := h, dpa := dpa, arrival := s.tbc, cls := r.cls } →
    Gives (.hostRead link pbr dpa []) s fun t =>
      (es = [] → ∃ dl, t.out = .readData link pbr dpa (memReadN s.pool.mem dpa 64) false 0 dl :: s.out) ∧
      (∀ c x, es = [(c, x)] → s.chanState c = 2 → t.out = s.out ∧ tabFind t.drc.jobs s.drc.nextJob =
        some { left := 1, tier := 1, read := some rr, data := some (memReadN s.pool.mem dpa 64) }) ∧
      t = { s with out := t.out, freeDraws := t.freeDraws, drc := t.drc, qos := t.qos, pool := { s.pool with pages := t.pool.pages } }) ∧
  (∀ c x k j r d s, s.chanState c = 2 → (s.chan c).queue = [x] → x.write = false → x.job = some k → x.bank < banksOf c.tier →
    tabFind (s.chan c).openRows x.bank = some x.row → tabFind s.drc.jobs k = some j → j.left = 1 → j.read = some r → j.data = some d →
    s.linkOpen r.link = true → s.drc.ingress = [] →
    Settles (.bankCommandIssue c) s fun t =>
      (∃ dl, t.out = .readData r.link r.pbr r.dpa d false r.grant dl :: s.out) ∧ t.drc.jobs = tabDel s.drc.jobs k ∧ (t.chan c).queue = [] ∧
      t = { s with out := t.out, drc := t.drc })

/-- A write to a line homed in T1 stores exactly the bytes that its mask enables, and every other byte of memory stays as
it is; of the engine it touches at most a cursor that lies in the line (04 R104). -/
def Obligations.WriteToT1LineStoresEnabledBytes : Prop :=
  ∀ link pbr dpa data be h r b e (hm : Home) s, Reaches link pbr dpa h r b e s → e.policy.sharing = 0 → s.MemOk →
    data.length = 64 → (s.pool.held.any fun w => w.line == dpa / 64) = false → s.moveOf (.page (dpa / 4096)) = none →
    s.linePoison (dpa / 64) = false → s.homeOf (.page (dpa / 4096)) = some hm → hm.tier = 1 →
    s.homeFrozen (s.sliceOf dpa) hm (64 * (dpa / 64 % 64)) 64 = none →
    s.stripeWaits (s.sliceOf dpa) hm (64 * (dpa / 64 % 64)) = false →
    Gives (.hostWrite link pbr dpa data be false) s fun t =>
      (∀ k, k < 64 → memRead t.pool.mem (dpa + k) = if bit be k then data.getD k 0 else memRead s.pool.mem (dpa + k)) ∧
      (∀ a, a < dpa ∨ dpa + 64 ≤ a → memRead t.pool.mem a = memRead s.pool.mem a) ∧
      t.pool.extents = s.pool.extents ∧ t.pool.moves = s.pool.moves ∧ t.pool.held = s.pool.held ∧
      ((s.eng.cursors.all fun c => (c.2.extent + c.2.lineOff) / 64 != dpa / 64) = true → t.eng = s.eng) ∧
      t = { s with out := t.out, freeDraws := t.freeDraws, drc := t.drc, qos := t.qos, dir := t.dir, pool := t.pool,
                   eng := { s.eng with cursors := t.eng.cursors } }

/-- A write to a page homed in T2 enters the Condenser's queue behind those that wait there; memory changes only once the
Condenser stores it. -/
def Obligations.WriteBelowT1EntersCondenser : Prop :=
  ∀ link pbr dpa data be h r b e (hm : Home) s, Reaches link pbr dpa h r b e s → e.policy.sharing = 0 →
    (s.pool.held.any fun w => w.line == dpa / 64) = false → s.moveOf (.page (dpa / 4096)) = none →
    s.linePoison (dpa / 64) = false → s.homeOf (.page (dpa / 4096)) = some hm → 2 ≤ hm.tier →
    Gives (.hostWrite link pbr dpa data be false) s fun t =>
      t.pool.coding = s.pool.coding ++ [{ link := some link, pbr := pbr, host := h, line := dpa / 64, data := data, be := be,
                                          poison := false, arrival := s.tbc, cls := r.cls }] ∧
      t = { s with freeDraws := t.freeDraws, pool := { s.pool with pages := t.pool.pages, coding := t.pool.coding } }

/-- R280: a request whose host is not assigned reads as poison or completes with its data discarded, and is counted in
UNASSIGNED; so does one outside the host's extents, counted in OUT_OF_EXTENT. Memory stays as it is. -/
def Obligations.RefusedRequestsChangeNoMemory : Prop :=
  ∀ link pbr dpa data be s, linkFitted s.cfg link = true → (s.port link).link = 2 → (s.port link).cxlGen ≠ 0 →
    (s.port link).frozen = false →
    (s.hostId link pbr = none →
      Gives (.hostWrite link pbr dpa data be false) s (fun t =>
        (∃ dl, t.out = .completion link pbr dpa dl :: s.out) ∧ t.qos = { s.qos with unassigned := s.qos.unassigned + 1 } ∧
        t = { s with out := t.out, qos := t.qos }) ∧
      Gives (.hostRead link pbr dpa []) s (fun t =>
        (∃ dl, .readData link pbr dpa [] true 0 dl ∈ t.out) ∧ t.qos.unassigned = s.qos.unassigned + 1 ∧ t.pool = s.pool)) ∧
    (∀ h r, s.hostId link pbr = some h → s.hostRec h = some r → s.reach link h dpa = none →
      r.limit = 0 ∨ r.granted ≠ [] ∨ token ≤ bucketNow r s.tbc ∧ r.held = [] →
      Gives (.hostWrite link pbr dpa data be false) s (fun t =>
        (∃ dl, t.out = .completion link pbr dpa dl :: s.out) ∧
        t.qos = { s.qos with outOfExtent := s.qos.outOfExtent + 1, hosts := t.qos.hosts } ∧ (r.limit = 0 → r.granted = [] → t.qos.hosts = s.qos.hosts) ∧
        t = { s with out := t.out, qos := t.qos }) ∧
      Gives (.hostRead link pbr dpa []) s (fun t =>
        (∃ dl, .readData link pbr dpa [] true 0 dl ∈ t.out) ∧ t.qos.outOfExtent = s.qos.outOfExtent + 1 ∧ t.pool = s.pool))

/-- LOUPE_FILL ends the fill in progress of a page whose home is a block with a clean copy of it, where its set has a free way (R196); EPOCH_ADVANCE moves a
slice's epoch on and takes up the written SAMPLE_K and DECAY_MS (R186, R187). -/
def Obligations.LoupeFillAndEpochAdvance : Prop :=
  (∀ n cls (h : Home) s, s.homeOf (.page n) = some h → 2 ≤ h.tier → s.pool.fills.contains (n, cls) = true →
    (s.pool.loupe.any fun c => c.page == n) = false →
    s.loupeVictim (s.sliceOf (n * 4096)) (Config.loupeSet n % 512) cls = some none →
    Gives (.loupeFill n cls) s fun t =>
      (∃ u, t.pool.loupe = s.pool.loupe ++ [{ page := n, cls := cls, used := u }] ∧ ∀ c ∈ s.pool.loupe, c.used < u) ∧
      (t.mig (s.sliceOf (n * 4096))).fills = (s.mig (s.sliceOf (n * 4096))).fills + 1 ∧
      t = { s with pool := { s.pool with loupe := t.pool.loupe, mig := t.pool.mig, fills := s.pool.fills.erase (n, cls) } }) ∧
  (∀ n s, Gives (.epochAdvance n) s fun t =>
      (t.mig n).periods = (s.mig n).periods + 1 ∧ (t.mig n).sampleK = (s.mig n).sampleKNext ∧
      (t.mig n).decayMs = (s.mig n).decayMsNext ∧ t.tbc = max s.tbc ((s.mig n).lastEpoch + (s.mig n).decayMs * 1000000) ∧
      (t.mig n).lastEpoch = t.tbc ∧ t = { s with tbc := t.tbc, pool := { s.pool with mig := t.pool.mig } })

/-- CONDENSER_CODE_BLOCK: the oldest write of a page at the Condensers, full and without poison, whose block finds a place,
is stored: memory holds its bytes, the page's home lies below T1 and holds a block, and the write has left the queue. -/
def Obligations.CondenserStoresCodedWrite : Prop :=
  ∀ n w b e s s', s.MemOk → s.pool.waiting = [] → (s.pool.coding.find? fun w => w.line / 64 == n) = some w →
    (s.pool.held.any fun x => x.line == w.line) = false → s.moveOf (.page n) = none → w.be = fullBe → w.poison = false →
    w.data.length = 64 → s.extentOf (w.line * 64) = some (b, e) → (∃ h, s.homeOf (.page n) = some h ∧ h.tier = 2 ∧
      s.homeFrozen (s.sliceOf (n * 4096)) h 0 (homeLen h) = none) →
    (s.setPool { s.pool with coding := s.pool.coding.erase w }).storeCoded w b e (s.tenantHeld (s.itemTenant (.page n))) = some s' →
    Settles (.condenserCodeBlock n) s fun t =>
      memReadN t.pool.mem (w.line * 64) 64 = w.data ∧ t.pool.coding = s.pool.coding.erase w ∧
      ∃ h, t.homeOf (.page n) = some h ∧ 2 ≤ h.tier ∧ h.blk.isSome = true

/-- Held writes: HELD_WRITE_REEXAMINE stores a held write that can now be stored; at its HOLD_LIMIT a held write completes,
its line is poison and it is held no longer (R203); OVERRUN_RELIEF_PROMOTION begins a move into T1 of the page of the
overrunning extent (R202). -/
def Obligations.HeldWritesAreStoredOrExpire : Prop :=
  (∀ n w s s', s.pool.held = [w] → s.sliceOf (w.line * 64) = n → s.moveOf (.page (w.line / 64)) = none →
    (s.setPool { s.pool with held := [] }).tryStore w false = some s' →
    Settles (.heldWriteReexamine n) s fun t =>
      t = (s'.relieved (s.itemTenant (.page (w.line / 64))) n (((s.extentOf (w.line * 64)).map (·.1)).getD 0)).wake) ∧
  (∀ n w due s, s.pool.waiting = [] → s.firstExpiring n = some (w, due) →
    Settles (.holdLimitExpiry n) s fun t =>
      t.pool.held = s.pool.held.erase w ∧ t.linePoison w.line = true ∧ t.tbc = max s.tbc due ∧
      (∀ l, w.link = some l → w.done = false → s.linkOpen l = true → ∃ dl, .completion l w.pbr (w.line * 64) dl ∈ t.out)) ∧
  (∀ base n (p : Page) (h d : Home) (e : Extent) s, tabFind s.pool.extents base = some e → e.policy.placement ≠ 3 →
    s.pagesIn base e.len = [(n, p)] → p.ent.home = some h → h.tier = 2 → s.homeOf (.page n) = some h → s.moveOf (.page n) = none →
    (s.pool.held.any fun w => s.sliceOf (w.line * 64) == s.sliceOf (n * 4096) && base ≤ w.line * 64 && w.line * 64 < base + e.len) = true →
    s.up (s.sliceOf (n * 4096)) = true → s.roomT1 e.owner (s.sliceOf (n * 4096)) 4096 = true → s.promoteTo (.page n) h = some d → d.tier = 1 →
    exec (.overrunReliefPromotion base) s =
      .next (s.setPool { s.pool with moves := s.pool.moves ++ [{ item := .page n, dest := d, kind := 8, began := s.tbc }] }))

/-- Moves: MIGRATION_SCAN begins the promotion of a page homed in T2 whose heat has reached PROMOTE_HEAT and whose tenant has
room in T1, where no hotter one of its slice is due (R188, R193); MOVE_SWITCH gives a page its new home and ends the move (R22); MOVE_CANCEL ends a move 4 µs after its
first held write, counted in CANCELLED (R194). -/
def Obligations.MovesBeginSwitchAndCancel : Prop :=
  (∀ n (h d : Home) (x : Ent) s, s.homeOf (.page n) = some h → h.tier = 2 → s.entOf (.page n) = some x → x.movedAt = none →
    x.heavy < (s.eccReg (s.sliceOf (n * 4096))).heavyLimit → x.any < (s.eccReg (s.sliceOf (n * 4096))).anyLimit →
    s.moveOf (.page n) = none → s.leaves (s.sliceOf (n * 4096)) h = false → (s.mig (s.sliceOf (n * 4096))).migEnable = true →
    (s.itemPlace (.page n)).1 = 2 →
    (s.mig (s.sliceOf (n * 4096))).promoteHeat ≤ (decayed (s.mig (s.sliceOf (n * 4096))) x).heat →
    (let s1 := (s.modEnt (.page n) (decayed (s.mig (s.sliceOf (n * 4096))))).drainMark (s.itemTenant (.page n)) (s.sliceOf (n * 4096))
     s1.roomT1 (s.itemTenant (.page n)) (s.sliceOf (n * 4096)) 4096 = true ∧ s1.promoteTo (.page n) h = some d ∧ d.tier = 1 ∧
     s1.promotesFirst (.page n) = true) →
    Gives (.migrationScan (.page n)) s fun t =>
      t.pool.moves = s.pool.moves ++ [{ item := .page n, dest := d, kind := 0, began := s.tbc }] ∧
      t = { s with pool := { s.pool with pages := t.pool.pages, draining := t.pool.draining, moves := t.pool.moves } }) ∧
  (∀ n (m : Move) (h : Home) blk out s, s.pool.waiting = [] → s.moveOf (.page n) = some m → s.homeOf (.page n) = some h → m.held = [] →
    m.dest.tier = 1 → m.dest.blk = none → h.tier = 2 → h.blk = some blk → s.farBusy (.page n) = false →
    s.moveClear (.page n) h m.dest = true → decodeBlock (s.cn (s.sliceOf (n * 4096))).slots blk = .ok out →
    Settles (.moveSwitch (.page n)) s fun t =>
      t.homeOf (.page n) = some m.dest ∧ t.pool.moves = s.pool.moves.erase m ∧ t.pool.mem = s.pool.mem) ∧
  (∀ i (m : Move) ft s, s.moveOf i = some m → m.firstHeld = some ft →
    Settles (.moveCancel i) s fun t =>
      t = ((s.until (ft + 4000)).modMig (s.itemSlice i) fun g => { g with cancelled := g.cancelled + 1 }).endMove m)

/-- BLOCK_DECODE of a good block, its media without errors, reports nothing and changes nothing (R163); of a line of the map region or
the program area of which no copy that serves can be corrected, the slice is lost (R358). -/
def Obligations.GoodBlockDecodes : Prop :=
  (∀ i source unit (h : Home) b out s, s.homeOf i = some h → h.blk = some b → h.tier ≤ 2 →
    s.homeFrozen (s.itemSlice i) h 0 (homeLen h) = none → decodeBlock (s.cn (s.itemSlice i)).slots b = .ok out →
    Settles (.blockDecode i source unit []) s fun t => t = s) ∧
  (∀ n area line source unit bs s, s.up n = true → (∀ k < 2, s.copyServes n k = false ∨
      lineDecode (lineErrors ((bs.filter fun b => decide (576 * k ≤ b)).map fun b => b - 576 * k)) = none) →
    Settles (.blockDecode (.mapLine n area line) source unit bs) s fun t => (t.sl n).state = 4)

/-! ## Directory, publishes, lost hosts -/

namespace Sys2Proof.Claims
/-- A host's request reaches a line of a SHARED_COHERENT extent: Back-Invalidate is on for the host, the host is not fenced, and
no request of the line is being served or waits (07 R210, R214). -/
abbrev ReachesShared (link : Nat) (pbr : Option Nat) (dpa h : Nat) (r : HostRec) (b : Nat) (e : Extent) (s : State) : Prop :=
  Reaches link pbr dpa h r b e s ∧ e.policy.sharing = 1 ∧ s.dir.fenced.contains h = false ∧ s.biOn h = true ∧
  s.lineServing (dpa / 64) = false ∧ (s.dir.waiting.any fun x => x.line == dpa / 64) = false ∧ s.leavesShare (dpa / 64) = false

/-- The line reads as zeros at once: its page has no home, no write of it is on its way, and it is not poison. -/
abbrev ReadsZero (dpa : Nat) (s : State) : Prop :=
  s.lineBusy (dpa / 64) = false ∧ s.linePoison (dpa / 64) = false ∧ s.homeOf (.page (dpa / 4096)) = none
end Sys2Proof.Claims

/-- R215, state I: RD_S of an untracked line makes an entry in S with the host as sharer and answers with MetaValue S, RD_E one
in E with the host as owner and MetaValue E, RD_I none and MetaValue I. -/
def Obligations.ReadsOfUntrackedLineTakeEntries : Prop :=
  ∀ link pbr dpa h r b e s, ReachesShared link pbr dpa h r b e s → ReadsZero dpa s → s.dent (dpa / 64) = none →
    (s.setEnts (dpa / 64)).length < s.dirWays (s.sliceOf dpa) (Config.dirSet (dpa / 64) % 2 ^ 21) →
    Gives (.rdS link pbr dpa) s (fun t =>
      (∃ dl, t.out = .readData link pbr dpa (List.replicate 64 0) false 1 dl :: s.out) ∧
      t.dent (dpa / 64) = some { state := 1, sharers := [h], age := s.dir.ages } ∧
      t = { s with out := t.out, freeDraws := t.freeDraws, dir := { s.dir with ents := t.dir.ents, ages := t.dir.ages },
                   pool := { s.pool with pages := t.pool.pages } }) ∧
    Gives (.rdE link pbr dpa) s (fun t =>
      (∃ dl, t.out = .readData link pbr dpa (List.replicate 64 0) false 2 dl :: s.out) ∧
      t.dent (dpa / 64) = some { state := 2, owner := h, age := s.dir.ages } ∧
      t = { s with out := t.out, freeDraws := t.freeDraws, dir := { s.dir with ents := t.dir.ents, ages := t.dir.ages },
                   pool := { s.pool with pages := t.pool.pages } }) ∧
    Gives (.rdI link pbr dpa) s (fun t =>
      (∃ dl, t.out = .readData link pbr dpa (List.replicate 64 0) false 3 dl :: s.out) ∧
      t = { s with out := t.out, freeDraws := t.freeDraws, pool := { s.pool with pages := t.pool.pages } })

/-- R215, state E with another owner: a read recalls the line with one snoop to the owner (BISnpData for RD_S, BISnpInv for
RD_E, BISnpCur for RD_I), waits in the entry, and answers nothing yet. -/
def Obligations.ReadsOfOwnedLineRecallIt : Prop :=
  ∀ link pbr dpa h r b x e s, ReachesShared link pbr dpa h r b x s → s.dent (dpa / 64) = some e → e.state = 2 → e.owner ≠ h →
    s.linkOpen (s.hostLink e.owner) = true →
    ∀ (i : Instr) kind cls, (i, kind, cls) ∈ [(Instr.rdS link pbr dpa, 1, 0), (.rdE link pbr dpa, 0, 1), (.rdI link pbr dpa, 2, 2)] →
      Gives i s fun t =>
        t.out = .snoop (s.hostLink e.owner) e.owner dpa kind :: s.out ∧
        t.dent (dpa / 64) = some
          { e with state := 3, prior := 2, targets := [e.owner], snoop := kind, issued := s.tbc,
                   limitMs := (s.dirReg (s.sliceOf dpa)).recallMs, cause := 0, gotI := false,
                   req := some { cls := cls, link := some link, pbr := pbr, host := h, line := dpa / 64, arrival := s.tbc, qcls := r.cls } } ∧
        (t.dirReg (s.sliceOf dpa)).recalls = (s.dirReg (s.sliceOf dpa)).recalls + 1 ∧
        t = { s with out := t.out, dir := { s.dir with ents := t.dir.ents, regs := t.dir.regs } }

/-- R215, R216: WB from the owner of a line leaves it in S when the host keeps a copy, else untracked, and its data are written
at the home; EVICT from the owner or the last sharer leaves the line untracked. -/
def Obligations.WriteBackAndEvictEndOwnership : Prop :=
  ∀ link pbr dpa h r b x e s, ReachesShared link pbr dpa h r b x s → s.dent (dpa / 64) = some e →
    (∀ data keep, e.state = 2 → e.owner = h →
      Gives (.wb link pbr dpa data keep) s fun t =>
        t = ((if keep then s.setDent (dpa / 64) { state := 1, sharers := [h] } else s.delDent (dpa / 64)).applyWrite
              { link := some link, pbr := pbr, host := h, line := dpa / 64, data := data, be := 2 ^ 64 - 1, poison := false,
                arrival := s.tbc, cls := r.cls })) ∧
    ((e.state = 2 ∧ e.owner = h ∨ e.state = 1 ∧ e.coarse = false ∧ e.sharers = [h]) →
      exec (.evict link pbr dpa) s = .next (s.delDent (dpa / 64)))

/-- R216, R220, R221: the last answer to a recall serves the waiting RD_S, with former owner and reader as sharers; an answer
that no recall waits for is discarded and counted; an owner that never answers leaves its line poison and in ORPHAN, and its later write-back completes, its data discarded and counted. -/
def Obligations.RecallsEndByAnswerOrTimeout : Prop :=
  (∀ h dpa e (q : DReq) s, s.dent (dpa / 64) = some e → e.state = 3 → e.prior = 2 → e.targets = [h] → e.owner = h → e.cause = 0 →
    e.gotI = false → e.req = some q → s.dir.fenced.contains q.host = false → q.cls = 0 → q.line = dpa / 64 → q.host ≠ h → s.dir.waiting = [] →
    Gives (.birsp h dpa false) s fun t =>
      t = (((s.keepDent (dpa / 64) { e with targets := [] }).delDent (dpa / 64)).setDent (dpa / 64)
            { state := 1, sharers := [h, q.host] }).dirRead q 1) ∧
  (∀ h dpa invalid s, (∀ e, s.dent (dpa / 64) = some e → e.state ≠ 3 ∨ e.targets.contains h = false) →
    Gives (.birsp h dpa invalid) s fun t =>
      (t.dirReg (s.sliceOf (dpa / 64 * 64))).lateBirsp = (s.dirReg (s.sliceOf (dpa / 64 * 64))).lateBirsp + 1 ∧
      t = { s with dir := { s.dir with regs := t.dir.regs } }) ∧
  (∀ h dpa e s, s.dent (dpa / 64) = some e → e.state = 3 → e.prior = 2 → e.targets = [h] → e.owner = h → e.cause = 0 → e.req = none →
    s.dir.waiting = [] →
    Gives (.recallTimeout dpa) s fun t =>
      t.linePoison (dpa / 64) = true ∧ t.dent (dpa / 64) = some { state := 4, owner := h, age := e.age } ∧
      (t.dirReg (s.sliceOf (dpa / 64 * 64))).timeouts = (s.dirReg (s.sliceOf (dpa / 64 * 64))).timeouts + 1 ∧
      t.tbc = max s.tbc (e.issued + e.limitMs * 1000000)) ∧
  (∀ link pbr dpa h r b x e data keep s, ReachesShared link pbr dpa h r b x s → s.dent (dpa / 64) = some e → e.state = 4 → e.owner = h →
    Gives (.wb link pbr dpa data keep) s fun t =>
      (t.dirReg (s.sliceOf (dpa / 64 * 64))).orphanWb = (s.dirReg (s.sliceOf (dpa / 64 * 64))).orphanWb + 1 ∧
      (∃ dl, t.out = .completion link pbr dpa dl :: s.out) ∧ t = { s with out := t.out, freeDraws := t.freeDraws, dir := { s.dir with regs := t.dir.regs } })

/-- R232, R238, R239: a doorbell or PUBLISH of a member host starts a publish; with QUERY it returns the region's version without
one; once the fence is done the version and the host's count rise by 1 and the doorbell slot shows the new version. -/
def Obligations.PublishesRaiseTheVersion : Prop :=
  (∀ link h rg r s, s.linkOpen link = true → (s.fn (.pf0 link)).d3hot = false → s.hostRec h = some r → r.port = link →
    (s.pubSlot h).busy = false → s.pubCheck h rg = 0 →
    Gives (.dirPubDb link h rg) s (fun t =>
      t.dir.publishes = s.dir.publishes ++ [{ host := h, region := rg, via := none, arrival := s.tbc }] ∧ (t.pubSlot h).busy = true ∧
      t = { s with fns := t.fns, dir := { s.dir with publishes := t.dir.publishes, slots := t.dir.slots } }) ∧
    Gives (.dirPubQuery link h rg) s (fun t =>
      (t.pubSlot h).version = ((s.region rg).map (·.version)).getD 0 ∧ (t.pubSlot h).result = 0 ∧ (t.pubSlot h).busy = false ∧
      t = { s with fns := t.fns, dir := { s.dir with slots := t.dir.slots } })) ∧
  (∀ via inp s, Accepted rowPublish via inp.length s → s.pubCheck (fld inp 0 2) (fld inp 2 2) = 0 →
    (∀ l, via = .pf0 l → ∃ r, s.hostRec (fld inp 0 2) = some r ∧ r.port = l) →
    (bit (fld inp 4 1) 0 = false → exec (.publish via inp) s =
      .next (s.setDir { s.dir with publishes := s.dir.publishes ++
        [{ host := fld inp 0 2, region := fld inp 2 2, via := some via, arrival := s.tbc }] })) ∧
    (bit (fld inp 4 1) 0 = true → Gives (.publishQuery via inp) s fun t =>
      Answers via 0xC031 .success (flds [(8, ((s.region (fld inp 2 2)).map (·.version)).getD 0), (2, 0)]) s t)) ∧
  (∀ h rg p g s, (s.dir.publishes.find? fun p => p.region == rg && p.host == h) = some p → p.via = none → s.region rg = some g →
    g.conflicts = [] → s.pubWaits p = false →
    Gives (.publishFenceDone rg h) s fun t =>
      t.region rg = some { g with version := g.version + 1, counts := tabMod 0 g.counts h (· + 1), overflow := g.overflow } ∧
      (t.pubSlot h).busy = false ∧ (t.pubSlot h).result = 0 ∧ (t.pubSlot h).version = g.version + 1 ∧
      t.dir.publishes = s.dir.publishes.erase p ∧
      t = { s with dir := { s.dir with publishes := t.dir.publishes, regions := t.dir.regions, slots := t.dir.slots } })

/-- R225, R227: HOST_LOST with LOST fences the host and starts the sweep as a background operation; the end of the sweep poisons
the lines that the host owned and untracks them; a further LOST while a sweep runs is Busy; REINSTATE lifts the
fence, is Invalid Input while that host is swept, and changes nothing for a host that is not fenced. -/
def Obligations.LostHostsAreFencedAndSwept : Prop :=
  (∀ via inp s, Accepted rowHostLost via inp.length s → fld inp 0 2 < 1024 → fld inp 2 1 = 0 → s.dir.sweep = none →
    s.bgBusy via 0xC032 [fld inp 0 2] = false → (s.dir.ents.filter fun e => e.2.state == 3 && e.2.targets.contains (fld inp 0 2)) = [] →
    (s.dir.publishes.filter fun p => p.host == fld inp 0 2) = [] → (s.dir.waiting.filter fun q => q.host == fld inp 0 2) = [] →
    Gives (.hostLostLost via inp) s fun t =>
      t.dir.fenced.contains (fld inp 0 2) = true ∧ t.dir.sweep = some { host := fld inp 0 2, started := s.tbc, recallsEnded := 0 } ∧
      (t.iface via).bg = some { opcode := 0xC032, args := [fld inp 0 2] } ∧ (t.iface via).ret = .backgroundStarted ∧
      t.dir = { s.dir with fenced := t.dir.fenced, sweep := t.dir.sweep, publishes := t.dir.publishes } ∧
      t = { s with dir := t.dir, mbx := t.mbx, out := t.out, fns := t.fns }) ∧
  (∀ w line (e : DEnt) s, s.dir.sweep = some w → s.dir.ents = [(line, e)] → e.state = 2 → e.owner = w.host →
    Gives .hostLostDone s fun t => t.linePoison line = true ∧ t.dir.ents = [] ∧ t.dir.sweep = none) ∧
  (∀ via inp s, Accepted rowHostLost via inp.length s → fld inp 0 2 < 1024 → fld inp 2 1 = 1 →
    (s.dir.sweep.any fun w => w.host == fld inp 0 2) = false →
    Gives (.hostLostReinstate via inp) s fun t =>
      Answers via 0xC032 .success [] (s.setDir { s.dir with fenced := s.dir.fenced.filter (· != fld inp 0 2) }) t) ∧
  (∀ via inp s, Accepted rowHostLost via inp.length s → fld inp 0 2 < 1024 → fld inp 2 1 = 1 →
    (∀ w, s.dir.sweep = some w → w.host = fld inp 0 2 → exec (.hostLostReinstate via inp) s = .next (s.respond via 0xC032 .invalidInput [])) ∧
    ((s.dir.sweep.any fun w => w.host == fld inp 0 2) = false → s.dir.fenced.contains (fld inp 0 2) = false →
      exec (.hostLostReinstate via inp) s = .next (s.respond via 0xC032 .success []))) ∧
  (∀ via inp s, Accepted rowHostLost via inp.length s → fld inp 0 2 < 1024 → fld inp 2 1 = 0 → s.dir.sweep.isSome = true →
    exec (.hostLostLost via inp) s = .next (s.respond via 0xC032 .busy []))

/-- R291: HOST_BUCKET_REFILL lets the first request that a host's bucket holds go on, with the class it came in with, at a time when
the bucket has the tokens of 64 bytes for it; the request stands at the front of the queue, and the first of the port's receive
buffer takes its place among those that are held. -/
def Obligations.BucketRefillLetsFirstRequestGo : Prop :=
  ∀ h r i k rate rest s, s.hostRec h = some r → r.held = (i, k, rate) :: rest → 0 < rate → 0 < r.burst → r.tokensAt ≤ s.tbc →
    Gives (.hostBucketRefill h) s fun t =>
      t.pending = i :: s.pending ∧ s.tbc ≤ t.tbc ∧
      (∃ r', t.hostRec h = some r' ∧ r'.held = rest ++ ((r.recv.take 1).map fun x => (x, r.cls, r.limit)) ∧ r'.recv = r.recv.drop 1 ∧
        r'.granted = r.granted ++ [k] ∧ r'.tokensAt = t.tbc ∧ token ≤ bucketNow r t.tbc ∧ r'.tokens = bucketNow r t.tbc - token) ∧
      t = { s with pending := t.pending, tbc := t.tbc, qos := { s.qos with hosts := t.qos.hosts, bucketHolds := t.qos.bucketHolds } } ∧
      (r.recv = [] → t.qos.bucketHolds = s.qos.bucketHolds)


/-! ## Cursors and steps -/

namespace Sys2Proof.Claims
/-- A bound cursor whose line is good and whose slice's engine clock runs. -/
abbrev CursorRuns (cu : Nat) (c : Cursor) (s : State) : Prop :=
  s.cur cu = some c ∧ (s.ck (s.cursorHome c)).relock = false ∧ c.unbound = false ∧ s.linePoison ((c.extent + c.lineOff) / 64) = false
/-- A step, its model and its cursor. -/
abbrev StepOf (id : Nat) (x : StepSt) (m : Model) (c : Cursor) (s : State) : Prop :=
  s.step' id = some x ∧ s.model x.desc.model = some m ∧ s.cur x.cursor = some c ∧ m.unloading = none ∧ s.eng.oldTiles = []
end Sys2Proof.Claims

/-- CURSOR_WRITE (R104, R105, R106, R113), with no doorbell of the same request waiting: a write below the position is ignored, counted and flagged; an advance of layers within
the step moves the cursor to the written position, its estimate by the sampling rule, and is sent to every slice; RESTART
takes the written position as the start, whatever it is, with the written hint as the estimate. A doorbell of the same request is
taken after the line. -/
def Obligations.CursorWritesMoveTheCursor : Prop :=
  (∀ cu stamp (c : Cursor) (v : CurLine) s, CursorRuns cu c s → c.rung = [] → readLine (s.lineData ((c.extent + c.lineOff) / 64)) = v →
    (ignoredLine (s.curLayers c) c v = true →
      Gives (.cursorWrite cu stamp) s fun t =>
        t.cur cu = some { c with flags := c.flags ||| 8, ignored := c.ignored + 1, due := false } ∧
        t = { s with tbc := max s.tbc stamp, eng := { s.eng with cursors := t.eng.cursors } }) ∧
    (v.phase ≤ 3 → v.layer < s.curLayers c → v.fresh = false → v.paused = false → v.step = c.step → c.layer < v.layer → c.skip = false →
      Gives (.cursorWrite cu stamp) s fun t =>
        t.cur cu = some { c with layer := v.layer, phase := v.phase, paused := false, seqs := v.seqs, entry := stamp, skip := false, due := false,
                                 estOk := true, state := 2, est := sampled c.est c.estOk ((stamp - c.entry) / (v.layer - c.layer)) c.shift } ∧
        (∀ n ∈ s.upSlices, (n, cu) ∈ t.eng.advances) ∧
        t = { s with tbc := max s.tbc stamp, eng := { s.eng with cursors := t.eng.cursors, advances := t.eng.advances } }) ∧
    (v.phase ≤ 3 → v.layer < s.curLayers c → v.fresh = true →
      Gives (.cursorWrite cu stamp) s fun t =>
        (∃ c', t.cur cu = some c' ∧ c'.step = v.step ∧ c'.layer = v.layer ∧ c'.phase = v.phase ∧ c'.est = v.cadence * 1000 ∧
          c'.estOk = false ∧ c'.entry = stamp ∧ c'.due = false ∧ c'.queues = c.queues) ∧
        (∀ n ∈ s.upSlices, (n, cu) ∈ t.eng.advances) ∧
        t = { s with tbc := max s.tbc stamp, eng := { s.eng with cursors := t.eng.cursors, advances := t.eng.advances } })) ∧
  (∀ cu stamp q x d (c : Cursor) s, CursorRuns cu c s → c.rung = [q] → s.queue cu q = some x → d < x.depth →
    ofLe (s.extRead (c.extent + c.lineOff + 32 + 4 * q) 2) = d →
    ignoredLine (s.curLayers c) c (readLine (s.lineData ((c.extent + c.lineOff) / 64))) = true →
    Gives (.cursorWrite cu stamp) s fun t =>
      t.queue cu q = some { x with tail := d, rungAt := max s.tbc stamp } ∧
      t = { s with tbc := max s.tbc stamp, eng := { s.eng with cursors := t.eng.cursors } })

/-- A doorbell below the queue's depth is the queue's new tail, one at or past it sets DB_INVALID and changes nothing else (R90), and one
that the line of its own request precedes waits for it (R104); a slice that
receives a layer advance has planned up to the cursor's ordinal (R107); an ordinal whose staging is not complete at its deadline
counts once in DEADLINE_MISSES (R115); CUR_SEL latches a snapshot of the selected cursor (R133). -/
def Obligations.DoorbellsAdvancesAndSnapshots : Prop :=
  (∀ cu q c x d s, CursorRuns cu c s → s.queue cu q = some x → ofLe (s.extRead (c.extent + c.lineOff + 32 + 4 * q) 2) = d →
    (c.due = true → Gives (.doorbell cu q) s fun t =>
      t.cur cu = some { c with rung := c.rung ++ [q] } ∧ t = { s with eng := { s.eng with cursors := t.eng.cursors } }) ∧
    (c.due = false → d < x.depth → Gives (.doorbell cu q) s fun t =>
      t.queue cu q = some { x with tail := d, rungAt := s.tbc } ∧ t = { s with eng := { s.eng with cursors := t.eng.cursors } }) ∧
    (c.due = false → x.depth ≤ d → Gives (.doorbell cu q) s fun t =>
      t.cur cu = some { c with flags := c.flags ||| 32 } ∧ t = { s with eng := { s.eng with cursors := t.eng.cursors } })) ∧
  (∀ n cu c s, s.cur cu = some c → (s.sl n).state = 1 → s.eng.advances.contains (n, cu) = true →
    Gives (.layerAdvanceReceived n cu) s fun t =>
      t.eng.advances = s.eng.advances.erase (n, cu) ∧ t.cur cu = some { c with planned := tabSet c.planned n (s.ordinal c) } ∧
      t = { s with eng := { s.eng with advances := t.eng.advances, cursors := t.eng.cursors, fetches := t.eng.fetches,
                                       nextFetch := t.eng.nextFetch, t0 := t.eng.t0 } }) ∧
  (∀ cu x c k f d s, s.cur cu = some c → s.eng.fetches = [(k, f)] → f.kind ≠ 2 → f.plans = [(cu, x, d)] → c.missed.contains x = false →
    Gives (.deadlineMiss cu x) s fun t =>
      t.cur cu = some { c with misses := c.misses + 1, missed := (x :: c.missed).take 64 } ∧
      t = { s with tbc := max s.tbc d, eng := { s.eng with cursors := t.eng.cursors } }) ∧
  (∀ fn cu s, (∀ l, fn ≠ .pf0 l) → s.fnOpen fn = true →
    Gives (.curSel fn cu) s fun t =>
      (t.fn fn).curSel = cu % 256 ∧ (t.fn fn).curSnap = ((s.cur (cu % 256)).filter (seesCursor fn)).map snapOf ∧
      (t.fn fn).vecs = (s.fn fn).vecs ∧ t = { s with fns := t.fns })

/-- STEP_CONSUME moves the head of a queue on by one entry and makes a step of it: refused by the first check of R92 that
fails, else waiting (R87). STEP_START admits a waiting step whose order, sequences and slices allow it (R87, R92, R98): its
sequences are kept as they stand. A slice idle for PARK_IDLE_US parks, and wakes for a step with work on it (R527). -/
def Obligations.StepsAreConsumedAndStarted : Prop :=
  (∀ cu q c x s r, s.readHead cu q = r → r.cur cu = some c → r.queue cu q = some x → c.unbound = false → x.head ≠ x.tail →
      x.unread < x.depth → c.lowerFirst q x.rungAt = false →
    (∀ k, r.descRefusal c (readDesc (s.extRead (c.extent + x.sq + 64 * x.head) 64)) = some k →
      Gives (.stepConsume cu q) s fun t =>
        t.step' s.eng.nextStep = some
          { cursor := cu, queue := q, tenant := c.tenant, desc := readDesc (s.extRead (c.extent + x.sq + 64 * x.head) 64),
            sqHead := (x.head + 1) % max 1 x.depth, phase := 3, conds := 64, detail := k } ∧
        t.queue cu q = some { x with head := (x.head + 1) % max 1 x.depth } ∧
        t = { s with eng := { s.eng with cursors := t.eng.cursors, nextStep := s.eng.nextStep + 1, steps := t.eng.steps } }) ∧
    (r.descRefusal c (readDesc (s.extRead (c.extent + x.sq + 64 * x.head) 64)) = none →
      (readDesc (s.extRead (c.extent + x.sq + 64 * x.head) 64)).opens = false →
      ((seqList (readDesc (s.extRead (c.extent + x.sq + 64 * x.head) 64)).seqs).all fun n => s.waitingFor n < 4) = true →
      Gives (.stepConsume cu q) s fun t =>
        t.step' s.eng.nextStep = some
          { cursor := cu, queue := q, tenant := c.tenant, desc := readDesc (s.extRead (c.extent + x.sq + 64 * x.head) 64),
            sqHead := (x.head + 1) % max 1 x.depth } ∧
        t.queue cu q = some { x with head := (x.head + 1) % max 1 x.depth } ∧
        t = { s with eng := { s.eng with cursors := t.eng.cursors, nextStep := s.eng.nextStep + 1, steps := t.eng.steps } })) ∧
  (∀ id x m s, s.step' id = some x → x.phase = 0 → s.mayStart id x = true → s.model x.desc.model = some m → m.lost = 0 →
    ((seqList x.desc.seqs).all fun n => s.slotOpen x.tenant x.desc.model n) = true → State.degradedFor m x.desc = false →
    x.desc.opens = false → ((seqList x.desc.seqs).all fun n => (s.seq n).all fun z => z.acts.isEmpty) = true →
    Gives (.stepStart id) s fun t =>
      t.step' id = some { x with phase := 1, layer := x.desc.first, op := 0, ready := false, everRan := true, admitted := s.eng.versions,
                                 poisonSeqs := [],
                                 before := (seqList x.desc.seqs).filterMap fun n => (s.seq n).map fun z => (n, z) } ∧
      t.eng.seqs = s.eng.seqs ∧ (∀ c ∈ t.eng.t0, c ∈ s.eng.t0) ∧ t.pool.mem = s.pool.mem ∧
      t = { s with eng := { s.eng with steps := t.eng.steps, t0 := t.eng.t0 }, rst := { s.rst with slices := t.rst.slices },
                   pool := { s.pool with moves := t.pool.moves } }) ∧
  (∀ n s, (s.sl n).parked = false → (s.sl n).parkIdleUs ≠ 0 → s.up n = true → (s.sl n).state = 1 →
    (s.eng.steps.any fun e => (e.2.phase = 1 || e.2.phase = 2) && s.hasWork e.2 n) = false →
    Gives (.enginePark n) s fun t =>
      (t.sl n).parked = true ∧ t.tbc = max s.tbc ((s.sl n).lastWork + (s.sl n).parkIdleUs * 1000) ∧ t.eng.t0 = s.eng.t0 ∧
      t = { s with tbc := t.tbc, rst := { s.rst with slices := t.rst.slices } }) ∧
  (∀ n s, (s.sl n).parked = true → (s.eng.steps.any fun e => e.2.phase != 3 && s.hasWork e.2 n) = true →
    Gives (.engineWake n) s fun t =>
      (t.sl n).parked = false ∧ (t.sl n).wakes = (s.sl n).wakes + 1 ∧ t.eng = s.eng ∧
      t = { s with rst := { s.rst with slices := t.rst.slices } })

/-- READINESS_CHECK marks a step ready when nothing that it needs is missing (R125), else it stalls the step and fetches every
missing item on demand (R126); DEMAND_FETCH_DONE makes the missing item resident and resumes the step, LATE (R126); LATE_ABORT
ends it with its LATE_ABORT condition and without output (R128). -/
def Obligations.StalledStepsFetchOnDemand : Prop :=
  (∀ id x m l s, s.step' id = some x → s.model x.desc.model = some m → m.layers[x.layer]? = some l → x.phase = 1 → x.ready = false →
    x.layer ≤ x.desc.last → needsCheck l x.op = true → s.stepRuns x = true →
    (s.missing x m l = [] → exec (.readinessCheck id) s = .next ((s.claimLeft x).setStep id { x with ready := true })) ∧
    (s.missing x m l ≠ [] → s.pool.moves = [] →
      Gives (.readinessCheck id) s fun t =>
        (∃ y, t.step' id = some y ∧ y.phase = 2 ∧ y.stallAt = some s.tbc ∧ y.missing = s.missing x m l ∧
          y.missTiles + y.missKv = (s.missing x m l).length ∧ y.layer = x.layer ∧ y.op = x.op) ∧
        (∀ e ∈ s.missing x m l, ∃ f ∈ t.eng.fetches, f.2.kind = 2 ∧ f.2.step = id ∧ f.2.item = e.1 ∧ f.2.slice = e.2))) ∧
  (∀ id x i n s, s.step' id = some x → x.phase = 2 → x.missing = [(i, n)] → s.olderStall id x = false → s.farBusy i = false → s.unreadable i = false →
    s.itemPoisoned i = false →
    Gives (.demandFetchDone id) s fun t =>
      t.inT0 n i (s.versionFor x.admitted i) = true ∧
      t.step' id = some { x with phase := 1, ready := true, stallAt := none, missing := [], conds := setBit x.conds 1 true,
                                 stallUs := x.stallUs + (s.tbc - x.stallAt.getD s.tbc + 999) / 1000 } ∧ t.pool.mem = s.pool.mem) ∧
  (∀ id x m c s, StepOf id x m c s → x.phase = 2 → s.eng.steps = [(id, x)] → (x.missing.all fun e => s.itemPoisoned e.1) = false →
    Gives (.lateAbort id) s fun t =>
      (∃ y, t.step' id = some y ∧ y.phase = 3 ∧ bit y.conds 2 = true ∧ y.outBuf = [] ∧ y.outBytes = 0 ∧ y.lastDone = x.lastDone) ∧
      t.tbc = max s.tbc (x.stallAt.getD s.tbc + c.lateLimit * 100000) ∧ t.pool.mem = s.pool.mem ∧ t.pool.pages = s.pool.pages ∧ (x.before = [] → t.pool = s.pool))

/-- STAGING_FETCH_ISSUE issues the one fetch that waits on a slice as a T0 copy where the tenant has T0 room, and marks it
NO_ROOM where it has none (R120, R123); STAGING_FETCH_DONE lands it in T0 and ends it (R117), or lets it wait where its room has gone
since (R120). -/
def Obligations.StagingFetchesLandInT0 : Prop :=
  (∀ n k f h s, (s.sl n).state = 1 → s.eng.fetches = [(k, f)] → f.slice = n → f.issued = false → f.noRoom = false →
    (s.fetchDue f).isSome = true → s.homeOf f.item = some h → h.tier ≤ 2 → f.kind = 0 → s.itemPoisoned f.item = false →
    (s.eng.t0.any fun c => c.left) = false →
    Gives (.stagingFetchIssue n) s fun t =>
      t.eng.fetches = [(k, if s.t0Room (s.itemTenant f.item) n (homeLen h) then { f with issued := true, name := s.slotNamed f.item }
                           else { f with noRoom := true, short := true })] ∧
      t = { s with freeDraws := t.freeDraws, eng := { s.eng with fetches := t.eng.fetches } }) ∧
  (∀ k f h s, tabFind s.eng.fetches k = some f → f.issued = true → f.kind = 0 → s.homeOf f.item = some h → s.farBusy f.item = false →
    s.unreadable f.item = false → s.itemPoisoned f.item = false →
    (s.t0Used (s.itemTenant f.item) f.slice + homeLen h ≤ s.t0Limit (s.itemTenant f.item) f.slice →
      Gives (.stagingFetchDone k) s fun t =>
        t.inT0 f.slice f.item (s.itemVersion f.item) = true ∧ t.eng.fetches = tabDel s.eng.fetches k ∧ t.eng.models = s.eng.models ∧
        t.eng.seqs = s.eng.seqs ∧ t.pool.mem = s.pool.mem) ∧
    (s.t0Limit (s.itemTenant f.item) f.slice < s.t0Used (s.itemTenant f.item) f.slice + homeLen h →
      Gives (.stagingFetchDone k) s fun t =>
        t = { s with eng := { s.eng with fetches := tabSet s.eng.fetches k { f with issued := false, noRoom := true, short := true } } }))

/-- STEP_END: a step whose last layer is done has ended, keeps nothing of its admission, and, where its range ends the model,
each of its sequences has one token more (R83, R608). Scratch buffers may leave for T2 as it ends (the model's choice, log 93), and
nothing else changes. -/
def Obligations.FinishedStepsEnd : Prop :=
  ∀ id x m c s, StepOf id x m c s → x.phase = 1 → x.desc.last < x.layer → x.outBuf = [] →
    Gives (.stepEnd id) s fun t =>
      t.step' id = some { x with phase := 3, missing := [], before := [], outBytes := 0,
                                 conds := x.conds ||| ((if x.poisonW then 8 else 0) + (if x.poisonSeqs.isEmpty then 0 else 16)) } ∧
      (∀ q z, s.seq q = some z → ∃ l, t.seq q =
        some { z with acts := z.acts ++ l,
                      tokens := z.tokens + (if x.desc.last + 1 = m.layers.length ∧ q < 128 ∧ bit x.desc.seqs q = true then 1 else 0) }) ∧
      t = { s with eng := { s.eng with steps := t.eng.steps, seqs := t.eng.seqs }, freeDraws := t.freeDraws, drc := t.drc, qos := t.qos,
                   cnd := t.cnd } ∧
      ((∀ q z, s.seq q = some z → z.scratch = []) →
        t = { s with eng := { s.eng with steps := t.eng.steps, seqs := t.eng.seqs }, freeDraws := t.freeDraws })

/-- STEP_COMPLETE writes the completion entry of a queue's oldest step, which has ended, at the ring's position, moves the
ring on (its phase changes where it wraps) and forgets the step (R93-R95), closing the slots that SEQ_CLOSE names (R86); COMPLETION_RING_ROOM does so once the host's new
head leaves room in a full ring. Both bring the step's counters and vectors with them. -/
def Obligations.CompletionsAreWrittenInOrder : Prop :=
  ∀ cu q id x k c s, s.oldest cu q = some (id, x) → s.queue cu q = some k → s.cur cu = some c → x.phase = 3 →
    (let done (r : State) (k : Queue) : State :=
      let w := r.devWrite c.cls (c.extent + k.cq + 32 * k.ring) (entryBytes x k.phase r.tbc) false
      let w := w.modQueue cu q fun j => { j with ring := if k.ring + 1 = k.depth then 0 else j.ring + 1, unread := j.unread + 1,
                                                 phase := if k.ring + 1 = k.depth then !j.phase else j.phase }
      let w := w.setEng { w.eng with steps := tabDel w.eng.steps id }
      (if x.frees then (seqList x.desc.seqs).foldl (fun w n => if w.slotOpen x.tenant x.desc.model n then w.closeSeq n else w) w
       else w).completed x
    (k.unread + 1 < k.depth → exec (.stepComplete cu q) s = .next (done s k)) ∧
    (∀ k', (s.readHead cu q).queue cu q = some k' → k'.unread + 1 < k'.depth →
      exec (.completionRingRoom cu q) s = .next (done (s.readHead cu q) k')))

/-! ## Ops of layer programs -/

namespace Sys2Proof.Claims
/-- The running step's op has a code, and one sequence, none of whose buffers holds poison. -/
abbrev AtOp (id code : Nat) (subs : List Nat) (c : OpCtx) (q : Nat) (z : Seq) (s : State) : Prop :=
  s.opAt id code subs = some c ∧ s.opSeqs c = [(q, z)] ∧ z.taint = 0
/-- The one row of an operand on a slice, in FP32. -/
abbrev Src0 (c : OpCtx) (q n : Nat) (z : Seq) (x : List FNum) : Prop :=
  (operandRows c.l z (hostSlice q) n c.p.src0 c.p.fmt0 c.p.scale0 c.p.length).1 = [x]
abbrev Src1 (c : OpCtx) (q n : Nat) (z : Seq) (x : List FNum) : Prop :=
  (operandRows c.l z (hostSlice q) n c.p.src1 c.p.fmt1 c.p.scale1 c.p.length).1 = [x]
/-- The step stands at its next op, or at the next layer, with the arithmetic flags that the op adds. -/
abbrev NextOp (c : OpCtx) (x : StepSt) (t : State) : Prop :=
  ∃ fl, t.step' c.id = some
    (if c.st.op + 1 < c.l.ops.length then { x with arith := x.arith ||| fl, ready := false, op := c.st.op + 1 }
     else { x with arith := x.arith ||| fl, ready := false, op := 0, layer := c.st.layer + 1, lastDone := c.st.layer })
/-- Only the sequence, the step, copies in T0 that leave with the layer, and the work noted on slices differ. -/
abbrev OpFrame (q : Nat) (s t : State) : Prop :=
  (∀ q', q' ≠ q → t.seq q' = s.seq q') ∧
  t = { s with freeDraws := t.freeDraws, eng := { s.eng with seqs := t.eng.seqs, steps := t.eng.steps, t0 := t.eng.t0 },
               rst := { s.rst with slices := t.rst.slices } }
/-- The destination buffer of a sequence begins with bytes on its host slice; its tokens and KV blocks are as before. -/
abbrev RowIs (c : OpCtx) (q : Nat) (z : Seq) (b : Bytes) (t : State) : Prop :=
  ∃ z', t.seq q = some z' ∧ (tabGet [] z'.scratch (bufKey (hostSlice q) (refIdx c.p.dst))).take b.length = b ∧
    z'.tokens = z.tokens ∧ z'.kv = z.kv ∧ z'.taint = 0
abbrev WritesRow (c : OpCtx) (q : Nat) (z : Seq) (b : Bytes) (s t : State) : Prop := RowIs c q z b t ∧ NextOp c c.st t ∧ OpFrame q s t
end Sys2Proof.Claims

/-- R84, R605, R610, 02 R63-R69: NORM, ACT, ROTATE, ADD and QUANT read the row of their sources in FP32, apply their function
and write the row, converted to the destination format, to the destination buffer; the step goes on to the next op and nothing
else changes. -/
def Obligations.VectorOpsWriteTheirRow : Prop :=
  ∀ id c q z x s, refSpace c.p.dst = 1 → Src0 c q (hostSlice q) z x →
    (∀ y, AtOp id 3 [] c q z s → runSlices z (hostSlice q) [c.p.src0, c.p.src1] = [hostSlice q] → Src1 c q (hostSlice q) z y →
      Gives (.norm id) s (WritesRow c q z (convRow c.p.dfmt (normRow (c.p.sub == 1) s.draw.1 (num32 c.p.param0) x y).1).1 s)) ∧
    (AtOp id 4 [] c q z s → c.p.sub < 5 → runSlices z (hostSlice q) [c.p.src0] = [hostSlice q] →
      Gives (.act id) s (WritesRow c q z (convRow c.p.dfmt (x.map fun v => (actNum c.p.sub v).1)).1 s)) ∧
    (∀ y, AtOp id 4 [] c q z s → 5 ≤ c.p.sub → runSlices z (hostSlice q) [c.p.src0, c.p.src1] = [hostSlice q] → Src1 c q (hostSlice q) z y →
      Gives (.act id) s (WritesRow c q z (convRow c.p.dfmt
        (x.zipIdx.map fun v => (mul32 (actNum c.p.sub v.1).1 (y.getD v.2 numZero)).1)).1 s)) ∧
    (AtOp id 5 [] c q z s → runSlices z (hostSlice q) [c.p.src0] = [hostSlice q] →
      Gives (.rotate id) s (WritesRow c q z (convRow c.p.dfmt
        (rotateRow c.p.sub z.tokens c.p.param1 c.m.headDim (num32 c.p.param0) x).1).1 s)) ∧
    (∀ y, AtOp id 9 [] c q z s → runSlices z (hostSlice q) [c.p.src0, c.p.src1] = [hostSlice q] → Src1 c q (hostSlice q) z y →
      Gives (.add id) s (WritesRow c q z (convRow c.p.dfmt
        (x.zipIdx.map fun v => (rnd32 (numAdd v.1 (numMul (if c.p.param0 = 0 then .fin false 1 0 else num32 c.p.param0) (y.getD v.2 numZero)))).1)).1 s)) ∧
    (AtOp id 10 [] c q z s → runSlices z (hostSlice q) [c.p.src0] = [hostSlice q] →
      Gives (.quant id) s (WritesRow c q z (quantRow c.p.dfmt c.p.dscale
        (if c.p.stochastic then some (fun i => stochDraw c.st.desc.seed c.st.layer c.st.op i) else none) x).1 s))

/-- R84, R608: ROUTE writes its selected experts with their weights to the routing table; GATHER takes each channel from the
slice that owns it (CONCAT), the sum over the slices that hold the operand (SUM) or the step's input record (INPUT); SCATTER
gives every slice in service the host slice's buffer (BROADCAST) or its own channels of it (SPLIT); COPY_OUT adds a record to the
step's output. -/
def Obligations.RouteGatherScatterAndCopyOut : Prop :=
  (∀ id c q z x s, AtOp id 6 [] c q z s → refSpace c.p.dst = 4 → runSlices z (hostSlice q) [c.p.src0] = [hostSlice q] →
    Src0 c q (hostSlice q) z x → c.p.param1 = x.length →
    Gives (.route id) s fun t =>
      (∃ z', t.seq q = some z' ∧
        tabGet [] z'.routing (hostSlice q * 4 + refIdx c.p.dst) = (routeRow c.p.sub c.p.param0 s.draw.1 x).1) ∧
      NextOp c c.st t ∧ (∀ q', q' ≠ q → t.seq q' = s.seq q') ∧ t.pool = s.pool ∧ t.eng.models = s.eng.models) ∧
  (∀ id c q z ns (rows : Nat → List FNum) s, ns = (List.range 8).filter (bit (heldOn' z (hostSlice q) (refIdx c.p.src0))) →
    refSpace c.p.src0 = 1 → refSpace c.p.dst = 1 → (rowsOf z (refIdx c.p.src0)).1 = 1 → (∀ n ∈ ns, Src0 c q n z (rows n)) →
    (AtOp id 7 [0] c q z s →
      (∀ ch, ch < c.p.length → ownerOf s.cfg.slices c.m c.l c.st.layer (hostSlice q) c.st.op (refIdx c.p.src0) ch ∈ ns) →
      Gives (.gatherConcat id) s (WritesRow c q z (convRow c.p.dfmt ((List.range c.p.length).map fun ch =>
        (rows (ownerOf s.cfg.slices c.m c.l c.st.layer (hostSlice q) c.st.op (refIdx c.p.src0) ch)).getD ch numZero)).1 s)) ∧
    (AtOp id 7 [1] c q z s →
      Gives (.gatherSum id) s (WritesRow c q z (convRow c.p.dfmt ((List.range c.p.length).map fun ch =>
        (freeSum (s.draw.1 + ch) (ns.map fun n => (rows n).getD ch numZero)).1)).1 s))) ∧
  (∀ id c q z s, AtOp id 7 [2] c q z s → refSpace c.p.dst = 1 →
    s.rangePoison (c.cur.extent + c.st.desc.inOff + 64 * refIdx c.p.src0) (elemBytes c.p.fmt0 c.p.length) = false →
    Gives (.gatherInput id) s (WritesRow c q z (convRow 0 (rowValues c.p.fmt0 0 c.p.length
      (s.extRead (c.cur.extent + c.st.desc.inOff + 64 * refIdx c.p.src0) (elemBytes c.p.fmt0 c.p.length))).1).1 s)) ∧
  (∀ id c q z s, AtOp id 8 [0] c q z s → refSpace c.p.src0 = 1 →
    Gives (.scatterBroadcast id) s fun t =>
      (∃ z', t.seq q = some z' ∧ ∀ n ∈ s.upSlices, tabGet [] z'.scratch (bufKey n (refIdx c.p.src0)) =
        tabGet [] z.scratch (bufKey (hostSlice q) (refIdx c.p.src0))) ∧ NextOp c c.st t ∧ OpFrame q s t) ∧
  (∀ id c q z own s, AtOp id 8 [1] c q z s → refSpace c.p.src0 = 1 → c.p.fmt0 = 0 → c.p.scale0 = 0 → (rowsOf z (refIdx c.p.src0)).2 = 0 →
    (tabGet [] z.scratch (bufKey (hostSlice q) (refIdx c.p.src0))).length = 4 * c.p.length →
    own = ownerOf s.cfg.slices c.m c.l c.st.layer (hostSlice q) c.st.op (refIdx c.p.src0) →
    (∃ ch, ch < c.p.length ∧ own ch ≠ hostSlice q) →
    Gives (.scatterSplit id) s fun t =>
      (∃ z', t.seq q = some z' ∧ ∀ n ∈ s.upSlices, ∀ k, k < 4 * c.p.length → own (k / 4) = n →
        (tabGet [] z'.scratch (bufKey n (refIdx c.p.src0))).getD k 0 =
        (tabGet [] z.scratch (bufKey (hostSlice q) (refIdx c.p.src0))).getD k 0) ∧ NextOp c c.st t ∧ OpFrame q s t) ∧
  (∀ id c q z x s, AtOp id 11 [] c q z s → Src0 c q (hostSlice q) z x →
    Gives (.copyOut id) s fun t =>
      NextOp c { c.st with outBuf := c.st.outBuf ++ [{ seq := q, off := 64 * refIdx c.p.dst, data := (convRow c.p.dfmt x).1 }] } t ∧
      t.eng.seqs = s.eng.seqs ∧ OpFrame q s t)

/-- R84, 02 R48-R58: MATMUL with its whole tensor on the host slice writes the product of the activation with the decoded tiles,
channel by channel; ROUTED, with the tiles of the one expert that the routing table selects; COMBINE, weighted by its routing
weight. -/
def Obligations.MatmulMultipliesByItsTiles : Prop :=
  ∀ id errs c q z t ex w ts s s' row, AtOp id 1 [] c q z s → refSpace c.p.dst = 1 →
    findTensor c.m.tensors c.st.layer (refIdx c.p.src1) = some t → (List.range 8).filter (bit t.mask) = [hostSlice q] →
    (rowsOf z (refIdx c.p.src0)).1 = 1 →
    (c.p.routed = true → tabGet [] z.routing (hostSlice q * 4 + c.p.param0) = [(ex, w)] ∧ ex < t.experts ∧ ts ≠ []) →
    s.draw.2.loadTiles c errs s.draw.1 (hostSlice q) t (if c.p.routed then ex else 0xFFFF) = (ts, false, s') →
    (ts.any fun x => x.2.2.bad) = false → s'.step' id = some c.st →
    (let a := rowParts c.p.fmt0 c.p.scale0 (t.kBlocks * 128)
        (scratchRow z (hostSlice q) (refIdx c.p.src0) 0 (rowLen c.p.fmt0 c.p.scale0 (t.kBlocks * 128)))
     row = (matRow s.draw.1 c.p.fmt0 c.p.scale0 t c.p.dfmt a.1 a.2 ts).1) →
    Gives (.matmul ⟨id, errs⟩) s fun t' =>
      (c.p.routed = false ∨ c.p.combine = false → RowIs c q z (convRow c.p.dfmt row).1 t') ∧
      (c.p.routed = true → c.p.combine = true → RowIs c q z (convRow c.p.dfmt ((List.range (t.nBlocks * 128)).map fun ch =>
        (freeSum (s.draw.1 + 77 + ch) [(mul32 (num32 w) (row.getD ch numZero)).1]).1)).1 t') ∧
      NextOp c c.st t' ∧ OpFrame q s' t'

/-- R75, R84, 02 R51: ATTEND of the first token of a sequence with one KV head and one query head stores the token's key and
value, converted to the KV format, in the head's first KV block, and writes the attention over that one token. -/
def Obligations.AttendStoresTheTokenAndAttends : Prop :=
  ∀ id errs c q z qv kv vv (b : Bytes) s, AtOp id 2 [] c q z s → refSpace c.p.dst = 1 → c.m.kvSplit = 1 → c.m.kvHeads = 1 → c.m.qPerKv = 1 → 0 < c.m.headDim →
    z.tokens = 0 → z.kv = [] → s.model c.st.desc.model = some c.m → s.moveOf (.kv c.st.desc.model q c.st.layer 0 0) = none →
    (operandRows c.l z (hostSlice q) (hostSlice q) c.p.src0 c.p.fmt0 c.p.scale0 c.m.headDim).1 = [qv] →
    (operandRows c.l z (hostSlice q) (hostSlice q) c.p.src1 c.p.fmt1 c.p.scale1 c.m.headDim).1 = [kv] →
    (operandRows c.l z (hostSlice q) (hostSlice q) (c.p.src1 + 1) c.p.fmt1 c.p.scale1 c.m.headDim).1 = [vv] →
    b = patch (patch (List.replicate 4096 0) (kvSpan c.m 0 false).1
        (convRow c.m.kvFmt ((List.range c.m.headDim).map fun j => kv.getD j numZero)).1) (kvSpan c.m 0 true).1
        (convRow c.m.kvFmt ((List.range c.m.headDim).map fun j => vv.getD j numZero)).1 →
    Gives (.attend ⟨id, errs⟩) s fun t =>
      (∃ z', t.seq q = some z' ∧ kvData z' c.st.layer 0 0 = b ∧ z'.kv.length = 1 ∧ z'.tokens = 0 ∧
        (let rd (val : Bool) : List FNum := (unpackCodes c.m.kvFmt c.m.headDim (slice b (kvSpan c.m 0 val).1 (kvSpan c.m 0 val).2)).map (decodeNum c.m.kvFmt)
         let o := (attendHead (s.draw.1 + 2000000 * 0) c.p.fmt0 c.m.kvFmt
            (if c.p.param0 = 0 then (rsqrt32 (numOfInt (c.m.headDim : Nat))).1 else num32 c.p.param0)
            ((List.range c.m.headDim).map fun j => qv.getD j numZero) [rd false] [rd true]).1
         let r := (convRow c.p.dfmt ((List.range c.m.headDim).map fun j => o.getD j numZero)).1
         (tabGet [] z'.scratch (bufKey (hostSlice q) (refIdx c.p.dst))).take r.length = r)) ∧
      NextOp c c.st t ∧ (∀ q', q' ≠ q → t.seq q' = s.seq q') ∧ t.pool.mem = s.pool.mem

/-! ## Models, bound cursors, table slots -/

/-- MODEL_LOAD of an image whose checks all pass and which fits begins, with its tiles stored as the load's own and its tables
loading (R78, R100); one whose image does not parse leaves only its outcome (R80, R75); MODEL_LOAD_DONE makes the loaded
model the tenant's under a handle and answers it (R80); MODEL_QUERY reports a model's summary or a load's outcome (R436). -/
def Obligations.ModelsAreLoaded : Prop :=
  (∀ via inp img s s', Accepted rowModelLoad via inp.length s → s.tenantOk via (fld inp 0 2) = true → s.rst.engineReady = true →
    s.loadOf (fld inp 0 2) = none → s.vfEnabled (fld inp 0 2) = true → fld inp 4 1 = 0 →
    (s.srcBytes (fld inp 0 2) (fld inp 8 8) (fld inp 16 8)).bind (parseImage s.cfg.slices) = some img →
    programArea img.hdr ≤ 16 * 2 ^ 20 → (img.dir.all fun d => s.up d.slice && !s.restarting d.slice && !s.bistOn d.slice [0, 1]) = true →
    s.bistFull = false → fits (s.fit (fld inp 0 2) 4 img) = true → tilesDecode img = true →
    (∀ l : Load, l = { via := via, tenant := fld inp 0 2, tag := fld inp 2 2, model := modelOf (fld inp 0 2) 4 img,
                       fit := fitBytes (s.fit (fld inp 0 2) 4 img), src := (fld inp 8 8, fld inp 16 8) } →
      (((s.readSource (fld inp 0 2) (fld inp 8 8) (fld inp 16 8)).setEng { s.eng with loads := s.eng.loads ++ [l] }).bindTables
        (fld inp 0 2) img).storeModel (fld inp 0 2) img = some s') → s.bgBusy via 0xC010 [fld inp 0 2] = false →
    exec (.modelLoad via inp) s = .next ((s'.modIface via fun i => { i with bg := some { opcode := 0xC010, args := [fld inp 0 2] } }).respond
      via 0xC010 .backgroundStarted [])) ∧
  (∀ via inp s, Accepted rowModelLoad via inp.length s → s.tenantOk via (fld inp 0 2) = true → s.rst.engineReady = true →
    s.loadOf (fld inp 0 2) = none → (s.srcBytes (fld inp 0 2) (fld inp 8 8) (fld inp 16 8)).bind (parseImage s.cfg.slices) = none →
    Gives (.modelLoad via inp) s fun t =>
      Answers via 0xC010 .invalidInput [] (s.keepOutcome (fld inp 0 2)
        { tag := fld inp 2 2, ret := .invalidInput, handle := 0xFFFF, fit := List.replicate 72 0 }) t ∧
      t.eng.models = s.eng.models ∧ t.eng.loads = s.eng.loads ∧ t.pool = s.pool) ∧
  (∀ tn l h s, s.loadOf tn = some l → s.freeHandle = some h → l.model.bound = [] →
    (s.iface l.via).bg = some { opcode := 0xC010, args := [tn] } →
    Gives (.modelLoadDone tn) s fun t =>
      t.model h = some l.model ∧ t.loadOf tn = none ∧ (t.iface l.via).bg = none ∧ (t.iface l.via).ret = .success ∧
      (t.iface l.via).payload = loadOut h l.tag l.fit ∧ t.pool = s.pool ∧
      t.eng = { s.eng with models := t.eng.models, loads := t.eng.loads, outcomes := t.eng.outcomes, loadsDone := s.eng.loadsDone + 1,
                           nextHandle := (h + 1) % 0xFFFF, issued := t.eng.issued }) ∧
  (∀ via inp m s, Accepted rowModelQuery via inp.length s → s.tenantOk via (fld inp 0 2) = true →
    (fld inp 2 1 = 0 → s.model (fld inp 4 2) = some m → m.tenant = fld inp 0 2 →
      Gives (.modelQuery via inp) s fun t => ∃ out, Answers via 0xC013 .success out s t ∧ out.length = 51 ∧ fld out 0 2 = fld inp 4 2 ∧
        fld out 2 2 = m.layers.length % 65536 ∧ fld out 12 4 = (m.tiles.filter fun u => u.ent.poisoned).length % 2 ^ 32) ∧
    (∀ o, fld inp 2 1 = 1 → tabGet [] s.eng.outcomes (fld inp 0 2) = [o] → o.tag = fld inp 4 2 →
      Gives (.modelQuery via inp) s fun t =>
        Answers via 0xC013 .success (flds [(2, retCode o.ret), (2, o.handle), (4, 0)] ++ slice o.fit 0 72) s t))

/-- MODEL_UNLOAD of a model that no step names removes it at once, with its slots, and unbinds its cursors (R98);
TILE_WRITE replaces the one tile that it names by a new version and answers Success (R97); CURSOR_BIND binds a cursor at the position
of its line, each queue's head at its doorbell (R109, R110); CURSOR_UNBIND stops it at once and drops its unissued fetches; once no
consumed step is left CURSOR_UNBIND_DONE removes it (R112). -/
def Obligations.ModelsAndCursorsAreReleased : Prop :=
  (∀ via inp m s, Accepted rowModelUnload via inp.length s → s.tenantOk via (fld inp 0 2) = true → s.model (fld inp 2 2) = some m →
    m.tenant = fld inp 0 2 → m.unloading = none → s.eng.steps = [] → s.bgBusy via 0xC011 [fld inp 2 2] = false →
    Gives (.modelUnload via inp) s fun t =>
      t.eng.models = tabDel (tabSet s.eng.models (fld inp 2 2) { m with unloading := some via }) (fld inp 2 2) ∧
      (∀ z ∈ t.eng.seqs, z.2.handle ≠ fld inp 2 2) ∧ (∀ c ∈ t.eng.cursors, c.2.model = fld inp 2 2 → c.2.unbound = true) ∧
      (t.iface via).bg = none ∧ (t.iface via).ret = .success ∧ t.pool.mem = s.pool.mem) ∧
  (∀ via inp m x old b ten staged s s', Accepted rowTileWrite via inp.length s → s.tenantOk via (fld inp 0 2) = true →
    s.model (fld inp 2 2) = some m → m.tenant = fld inp 0 2 → m.unloading = none → tileCopies m inp = [(x, old)] →
    s.moveOf (.tile (fld inp 2 2) x) = none →
    (s.eng.fetches.any fun f => f.2.item == .tile (fld inp 2 2) x && f.2.kind == 1) = false →
    staged = ((s.eng.t0.any fun c => c.item == .tile (fld inp 2 2) x) || (old.ent.home.any fun o => o.tier == 1) ||
      s.eng.fetches.any fun f => f.2.item == .tile (fld inp 2 2) x && f.2.kind != 2) → (s.srcBytes (fld inp 0 2) (fld inp 16 8) (fld inp 24 4)).bind parseBlock = some b →
    findTensor m.tensors (fld inp 4 2) (fld inp 6 1) = some ten → fld inp 24 4 % 256 = 0 →
    tileHdrOk 64 old.strength (fld inp 24 4 / 256) ten b = true →
    ((s.readSource (fld inp 0 2) (fld inp 16 8) (fld inp 24 4)).setEng { s.eng with versions := s.eng.versions + 1 }).replaceTile (fld inp 2 2) (fld inp 0 2) x (s.eng.versions + 1) old b m.bound =
      some s' →
    exec (.tileWrite via inp) s =
      .next ((s'.freeOld.stageAgain (fld inp 2 2) x old.slice old.layer staged).respond via 0xC012 .success [])) ∧
  (∀ via inp c m e s, Accepted rowCursorBind via inp.length s → cursorOf inp = c → s.tenantOk via c.tenant = true →
    s.rst.engineReady = true → s.restarting (s.cursorHome c) = false → s.bst.runs = [] → s.vfEnabled c.tenant = true →
    s.cur (fld inp 2 1) = none → cursorRanges c = true → s.model c.model = some m → tabFind s.pool.extents c.extent = some e →
    m.tenant = c.tenant → m.unloading = none → c.lead ≤ m.lead → s.cursorExtent c.tenant e = true →
    ((cursorSpans c).all fun x => x.2 ≤ e.len) = true → pairwiseApart (cursorSpans c) = true →
    Gives (.cursorBind via inp) s fun t =>
      t.cur (fld inp 2 1) = some (s.headsRead (startCursor c (s.extRead (c.extent + c.lineOff) 64) s.tbc)) ∧
      (∀ n ∈ s.upSlices, (n, fld inp 2 1) ∈ t.eng.advances) ∧ (t.iface via).ret = .success ∧ t.pool = s.pool ∧
      t.eng = { s.eng with cursors := t.eng.cursors, advances := t.eng.advances }) ∧
  (∀ via inp c s, Accepted rowCursorUnbind via inp.length s → s.tenantOk via (fld inp 0 2) = true → s.cur (fld inp 2 1) = some c →
    c.tenant = fld inp 0 2 → c.unbound = false → s.bgBusy via 0xC021 [fld inp 2 1] = false →
    Gives (.cursorUnbind via inp) s fun t =>
      t.cur (fld inp 2 1) = some { c with unbound := true, unbinding := some via } ∧ (t.iface via).ret = .backgroundStarted ∧
      (∀ f ∈ t.eng.fetches, f.2.issued = false → ∀ p ∈ f.2.plans, p.1 ≠ fld inp 2 1) ∧
      t.eng = { s.eng with cursors := t.eng.cursors, advances := t.eng.advances, fetches := t.eng.fetches } ∧ t.pool = s.pool) ∧
  (∀ cu c v s, s.cur cu = some c → c.unbound = true → c.unbinding = some v → s.eng.steps = [] → s.pool.releasing = [] →
    (s.iface v).bg = some { opcode := 0xC021, args := [cu] } →
    Gives (.cursorUnbindDone cu) s fun t =>
      t.eng = { s.eng with cursors := tabDel s.eng.cursors cu } ∧ (t.iface v).bg = none ∧ (t.iface v).ret = .success ∧ t.pool = s.pool)

/-- TABLE_LOAD takes a free slot on each slice of its mask and loads it (R157, R158); TABLE_BUILT makes it ACTIVE, gives it
the encode selection that it waits for and answers the load (R159); TABLE_RETIRE takes a slot's encode selections away and empties a
slot that nothing names, while a named one is RETIRING (R160); SLOT_RELEASE empties a RETIRING slot at a count of zero (R157);
RECODE_BLOCK begins the move of a block that names a slot under re-coding to a block coded afresh (R160), of zeros where the old one
does not decode (R166). -/
def Obligations.TableSlotsLoadAndRetire : Prop :=
  (∀ via inp n k tb s, Accepted rowTableLoad via inp.length s → maskList (fld inp 0 1) = [n] → fld inp 1 1 = k → fld inp 2 1 = 0xFF →
    parseTable (slice inp 16 4096) = some tb → k < 64 → s.up n = true → s.restarting n = false → s.slotFree n k = true →
    Gives (.tableLoad via inp) s fun t =>
      t.slot n k = { state := 1, gen := ((s.slot n k).gen + 1) % 1024, table := some tb } ∧
      t.tabLoads = s.tabLoads ++ [{ via := via, slots := [(n, k, ((s.slot n k).gen + 1) % 1024)] }] ∧
      t = { s with cnd := t.cnd, tabLoads := t.tabLoads }) ∧
  (∀ n k c l s, (s.slot n k).state = 1 → (s.slot n k).pendingClass = some c → s.tabLoads = [l] → l.slots = [(n, k, (s.slot n k).gen)] →
    Gives (.tableBuilt n k) s fun t =>
      t.slot n k = { s.slot n k with state := 2, pendingClass := none } ∧ tabFind (t.cn n).encSel c = some k ∧ t.tabLoads = [] ∧
      (t.iface l.via).ret = .success ∧ (t.iface l.via).opcode = 0xC018 ∧ t.pool = s.pool ∧ t.eng = s.eng) ∧
  (∀ via inp n k s, Accepted rowTableRetire via inp.length s → maskList (fld inp 0 1) = [n] → fld inp 1 1 = k → k < 64 → s.up n = true →
    (s.slot n k).state = 2 → s.bindings n k = 0 → (s.cn n).encSel = [] →
    Gives (.tableRetire via inp) s fun t =>
      t.slot n k = (if s.slotRefs n k = 0 then { gen := (s.slot n k).gen }
        else { s.slot n k with state := 3, recoding := (s.slot n k).recoding || bit (fld inp 2 1) 0 }) ∧
      (t.iface via).ret = .success ∧ t.pool = s.pool ∧ t.eng = s.eng) ∧
  (∀ n k s, (s.slot n k).state = 3 → s.slotRefs n k = 0 →
    Gives (.slotRelease n k) s fun t => t.slot n k = { gen := (s.slot n k).gen } ∧ t = { s with cnd := t.cnd }) ∧
  (∀ p h b d out data s s1 s2 b', s.homeOf (.page p) = some h → h.blk = some b → b.coder = 2 → (s.slot (s.sliceOf (p * 4096)) b.slot).state = 3 →
    (s.slot (s.sliceOf (p * 4096)) b.slot).recoding = true → (s.slot (s.sliceOf (p * 4096)) b.slot).gen = b.gen → s.moveOf (.page p) = none →
    s.homeFrozen (s.sliceOf (p * 4096)) h 0 (homeLen h) = none → s.decodeItem (.page p) b 2 0 1 = (out, s1) →
    (s1.homeOf (.page p)).isSome = true → data = out.getD (List.replicate b.logical 0) →
    s1.condenseOn (s.sliceOf (p * 4096)) 0 (s1.pageStrength p) 0 0 false data = (b', s2) → s2.placeBlock p b' (some h) = some d →
    exec (.recodeBlock (.page p)) s = .next (s2.beginMove (.page p) d 4))

/-! ## Extents, quotas, classes -/

/-- R176, R177, R430: DC_ADD for one host gives it the extent under its tenant's default policy; a host accepts an extent, or
gives one of several hosts' shares up; DC_RELEASE of an extent that no cursor uses takes it away, its bytes read 0 and every
byte outside it reads as before. -/
def Obligations.ExtentsAreAddedAcceptedAndReleased : Prop :=
  (∀ via h r base len tag p e s, Accepted rowDcAdd via 0 s → s.rst.memoryActive = true → s.bistFull = false → s.hostRec h = some r →
    s.staticHost h = false → 0 < len → base % 2 ^ 28 = 0 → len % 2 ^ 28 = 0 → base + len ≤ 2 ^ 52 → s.pool.extents.length < 4096 →
    (s.pool.extents.any fun x => base < x.1 + x.2.len && x.1 < base + len) = false → (s.quota r.tenant).policy = p → p.sharing = 0 →
    (∀ q : Nat × Nat × Nat, q = s.splitParts r.tenant base (reservation len (256 * rawSectors p.strength) p.assured) p
        { len := len, hosts := [h], tag := tag, owner := r.tenant, policy := p } →
      e = { len := len, hosts := [h], tag := tag, owner := r.tenant, policy := p, t2Part := q.1, t3Part := q.2.1, t4Part := q.2.2 }) →
    (let s' := s.setPool { s.pool with extents := tabSet s.pool.extents base e }
     s'.mapFits = true ∧ ∀ k ∈ [1, 2, 3, 4], s'.charge r.tenant k ≤ s.quotaBytes r.tenant k) →
    exec (.dcAdd via [h] base len tag) s =
      .next ((s.setPool { s.pool with extents := tabSet s.pool.extents base e }).respond via 0x5604 .success [])) ∧
  (∀ link h b r e s, Accepted rowDcResponse (.pf0 link) 0 s → s.hostRec h = some r → r.port = link → s.staticHost h = false →
    tabFind s.pool.extents b = some e → e.hosts.contains h = true → e.accepted.contains h = false →
    Gives (.addDynamicCapacityResponse link h [b]) s fun t =>
      tabFind t.pool.extents b = some { e with accepted := e.accepted ++ [h] } ∧ (∀ x, x ≠ b → tabFind t.pool.extents x = tabFind s.pool.extents x) ∧
      (t.iface (.pf0 link)).ret = .success ∧
      t = { s with pool := { s.pool with extents := t.pool.extents }, mbx := { s.mbx with iface := t.mbx.iface }, out := t.out, fns := t.fns }) ∧
  (∀ link h b r e s, Accepted rowHostRelease (.pf0 link) 0 s → s.hostRec h = some r → r.port = link → s.staticHost h = false →
    tabFind s.pool.extents b = some e → e.hosts.contains h = true → e.hosts ≠ [h] → s.isReleasing b = false →
    Settles (.releaseDynamicCapacity link h [b]) s fun t =>
      tabFind t.pool.extents b = some { e with hosts := e.hosts.filter (· != h), accepted := e.accepted.filter (· != h) } ∧
      (t.iface (.pf0 link)).ret = .success ∧ t.pool.mem = s.pool.mem ∧ t.pool.pages = s.pool.pages) ∧
  (∀ via base e s, Accepted rowDcRelease via 0 s → s.MemOk → s.rst.memoryActive = true → tabFind s.pool.extents base = some e →
    e.hosts.any s.staticHost = false → s.isReleasing base = false → (s.eng.cursors.any fun c => c.2.extent == base) = false → s.dir.ents = [] →
    (s.pool.releasing.any fun r => r.2 == (via, 0x5605)) = false →
    Settles (.dcRelease via base) s fun t =>
      t.pool.extents = tabDel s.pool.extents base ∧ (t.iface via).ret = .success ∧
      (∀ a, memRead t.pool.mem a = if base ≤ a ∧ a < base + e.len then 0 else memRead s.pool.mem a) ∧
      (∀ p ∈ t.pool.pages, p.1 * 4096 < base ∨ base + e.len ≤ p.1 * 4096))

/-- R178-R180, R184, R229: EXTENT_POLICY_SET puts a policy that fits in the extent's place, its reservation divided anew, or a
quota record in the tenant's; a change out of SHARED_COHERENT is complete once no line of the extent is tracked. -/
def Obligations.PoliciesAndQuotasTakeTheirPlace : Prop :=
  (∀ via inp e p base e' s, Accepted rowPolicy via inp.length s → fld inp 0 1 = 0 → fld inp 8 8 = base → tabFind s.pool.extents base = some e →
    readPolicy (fld inp 16 2) = some p → s.isReleasing base = false → s.dir.change = none → p.sharing = 0 → e.policy.sharing = 0 →
    e.hosts.length = 1 → e.drawn = [] → p.assured = e.policy.assured →
    (∀ q : Nat × Nat × Nat, q = s.splitParts e.owner base (s.extentReservation base { e with policy := p }) p e →
      e' = { e with policy := p, t2Part := q.1, t3Part := q.2.1, t4Part := q.2.2 }) →
    (let s' := s.setPool { s.pool with extents := tabSet s.pool.extents base e' }
     s'.mapFits = true ∧ State.chargesFit s s' e.owner = true) →
    exec (.extentPolicySetExtent via inp) s =
      .next ((s.setPool { s.pool with extents := tabSet s.pool.extents base e' }).respond via 0xC030 .success [0xFF, 0xFF])) ∧
  (∀ base e e' p v b s, s.dir.change = some (base, p) → tabFind s.pool.extents base = some e → s.dir.ents = [] → s.dir.waiting = [] →
    e.policy.sharing = 1 → p.sharing = 0 → e.hosts.length = 1 → e.drawn = [] → p.assured = e.policy.assured →
    (∀ q : Nat × Nat × Nat, q = s.splitParts e.owner base (s.extentReservation base { e with policy := p }) p e →
      e' = { e with policy := p, t2Part := q.1, t3Part := q.2.1, t4Part := q.2.2 }) →
    (let s' := s.setPool { s.pool with extents := tabSet s.pool.extents base e' }
     s'.mapFits = true ∧ State.chargesFit s s' e.owner = true) → s.bgOf 0xC030 = some v → (s.iface v).bg = some b → b.opcode = 0xC030 →
    Settles (.sharingChangeDone base) s fun t =>
      t.dir = { s.dir with change := none } ∧ t.pool.extents = tabSet s.pool.extents base e' ∧
      (t.iface v).bg = none ∧ (t.iface v).ret = .success ∧ t.pool = { s.pool with extents := t.pool.extents }) ∧
  (∀ via inp tn p q s, Accepted rowPolicy via inp.length s → fld inp 0 1 = 1 → fld inp 2 2 = tn → tn < 1024 → readPolicy (fld inp 6 2) = some p →
    0 < fld inp 4 2 → fld inp 4 2 ≤ 1000 → s.pool.draws = [] →
    q = { t1 := fld inp 8 4, t2 := fld inp 12 4, t3 := fld inp 16 4, t4 := fld inp 20 4, overflow := fld inp 24 4,
          holdLimit := fld inp 4 2, policy := p } →
    (let s' := s.setPool { s.pool with quotas := tabSet s.pool.quotas tn q }
     s'.quotaSum (·.t1) ≤ s.assignableT1 ∧ s'.quotaSum (·.t2) + s'.quotaSum (·.overflow) ≤ s.availT2 - s.deviceReserve ∧
     s'.quotaSum (·.t3) = 0 ∧ s'.quotaSum (·.t4) = 0) →
    s.charge tn 1 ≤ q.t1 * 2 ^ 20 → s.charge tn 2 ≤ q.t2 * 2 ^ 20 → s.charge tn 3 ≤ q.t3 * 2 ^ 20 → s.charge tn 4 ≤ q.t4 * 2 ^ 20 →
    Gives (.extentPolicySetTenant via inp) s fun t =>
      t.quota tn = q ∧ (∀ k, k ≠ tn → t.quota k = s.quota k) ∧ (t.iface via).ret = .success ∧
      t.pool = { s.pool with quotas := t.pool.quotas })

/-- R279-R284, R290, R295, R439-R441: QOS_SET_CLASS writes or removes a host record, a tenant's class and T0 share, or a class's
ceilings, weight and maxima; QOS_ADMIT takes a guarantee set whole where every sum fits, and changes nothing where it does not;
QOS_QUERY answers the record of its form. -/
def Obligations.QosRecordsAreSetAdmittedAndRead : Prop :=
  (∀ via inp h link s, Accepted rowQosSet via inp.length s → fld inp 0 1 = 0 → fld inp 2 2 = h → h < 1024 →
    2 * (fld inp 4 1 % 4) + b2n (bit (fld inp 4 1) 2) = link → s.hostRec h = none →
    (bit (fld inp 5 1) 1 = true → (bit (fld inp 5 1) 0 && s.qos.hosts.any fun r => r.1 != h && r.2.direct && r.2.port == link) = false →
      fld inp 8 1 < 16 → fld inp 12 4 ≤ 1048575 → 4 ≤ fld inp 16 4 → fld inp 16 4 ≤ 4096 →
      linkFitted s.cfg link = true → (tenantPort s.cfg (fld inp 6 2)).map (·.1) = some (link / 2) →
      Gives (.qosSetClassHost via inp) s fun t =>
        t.hostRec h = some { port := link, direct := bit (fld inp 5 1) 0, tenant := fld inp 6 2, cls := fld inp 8 1, limit := fld inp 12 4, burst := fld inp 16 4,
                             tokens := fld inp 16 4 * 1024000, tokensAt := s.tbc } ∧
        (∀ k, k ≠ h → t.hostRec k = s.hostRec k) ∧ (t.iface via).ret = .success ∧ t.qos = { s.qos with hosts := t.qos.hosts } ∧ t.pool = s.pool)) ∧
  (∀ via inp h r s, Accepted rowQosSet via inp.length s → fld inp 0 1 = 0 → fld inp 2 2 = h → h < 1024 → bit (fld inp 5 1) 1 = false →
    s.hostRec h = some r → s.hostHasExtents h = false → s.dir.sweep = none →
    Gives (.qosSetClassHost via inp) s fun t => t.qos = { s.qos with hosts := tabDel s.qos.hosts h } ∧
      t.pending = r.held.map (·.1) ++ r.recv ++ s.pending ∧ (t.iface via).ret = .success ∧ t.pool = s.pool) ∧
  (∀ via inp tn s, Accepted rowQosSet via inp.length s → fld inp 0 1 = 1 → fld inp 2 2 = tn → tn < 1024 → fld inp 4 1 < 16 → fld inp 5 1 ≤ 120 →
    (∀ n ∈ s.upSlices, (s.setQos { s.qos with tenants := tabSet s.qos.tenants tn { cls := fld inp 4 1, t0Mib := fld inp 5 1 } }).t0Sum ≤
      s.assignableT0 n) →
    Gives (.qosSetClassTenant via inp) s fun t =>
      t.tq tn = { cls := fld inp 4 1, t0Mib := fld inp 5 1 } ∧ (∀ k, k ≠ tn → t.tq k = s.tq k) ∧ (t.iface via).ret = .success ∧
      t.qos = { s.qos with tenants := t.qos.tenants, scale := t.qos.scale } ∧ t.pool = s.pool) ∧
  (∀ via inp k s, Accepted rowQosSet via inp.length s → fld inp 0 1 = 2 → fld inp 2 1 = k → k < 16 → 0 < fld inp 3 1 → 0 < fld inp 4 1 →
    fld inp 4 1 ≤ 16 → 0 < fld inp 5 1 → fld inp 5 1 ≤ 16 → 0 < fld inp 8 4 → 0 < fld inp 12 4 → (s.cls k).t1Floor = 0 → (s.cls k).t2Floor = 0 →
    (s.cls k).qMin ≤ fld inp 4 1 → (s.cls k).minWays ≤ fld inp 5 1 →
    Gives (.qosSetClassClass via inp) s fun t =>
      t.cls k = { s.cls k with weight := fld inp 3 1, qMax := fld inp 4 1, maxWays := fld inp 5 1, t1Ceil := fld inp 8 4, t2Ceil := fld inp 12 4 } ∧
      (∀ j, j ≠ k → t.cls j = s.cls j) ∧ (t.iface via).ret = .success ∧ t.qos = { s.qos with classes := t.qos.classes } ∧ t.pool = s.pool) ∧
  (∀ via inp g s, Accepted rowQosAdmit via inp.length s → guarantees inp = [g] → fld inp 0 1 = 1 → inp.length = 24 → g.cls < 16 → g.qMin ≤ 8 →
    g.ways ≤ 16 → g.t1 ≤ (s.cls g.cls).t1Ceil → g.t2 ≤ (s.cls g.cls).t2Ceil →
    (let w := s.withSet [g]
     ((List.range 16).foldl (fun n k => n + (w.cls k).qMin) 0 ≤ 12 ∧ (List.range 16).foldl (fun n k => n + (w.cls k).minWays) 0 ≤ 16 ∧
      w.shortfall 1 = none ∧ w.shortfall 2 = none →
      Gives (.qosAdmit via inp) s fun t =>
        t.cls g.cls = { s.cls g.cls with qMin := g.qMin, minWays := g.ways, t1Floor := g.t1, t2Floor := g.t2 } ∧
        (∀ j, j ≠ g.cls → t.cls j = s.cls j) ∧ (t.iface via).ret = .success ∧ (t.iface via).payload.headD 0 = 1 ∧ t.pool = s.pool) ∧
     (∀ n x, w.shortfall 1 = some (n, x) → (s.cls g.cls).t1Floor < g.t1 →
      Gives (.qosAdmit via inp) s fun t => t.qos = s.qos ∧ (t.iface via).ret = .success ∧ (t.iface via).payload.headD 0 = 0 ∧ t.pool = s.pool))) ∧
  (∀ via inp s, Accepted rowQosQuery via inp.length s →
    (∀ r, fld inp 0 1 = 0 → fld inp 2 2 < 1024 → s.hostRec (fld inp 2 2) = some r →
      Gives (.qosQuery via inp) s fun t => Answers via 0xC02A .success (flds [(1, 0), (1, 0), (2, fld inp 2 2), (1, r.port / 2 + 4 * (r.port % 2)),
        (1, b2n r.direct + 2), (2, r.tenant), (1, r.cls), (3, 0), (4, r.limit), (4, r.burst)]) s t) ∧
    (fld inp 0 1 = 1 → fld inp 2 2 < 1024 →
      Gives (.qosQuery via inp) s fun t => ∃ out, Answers via 0xC02A .success out s t ∧ out.length = 56 ∧
        fld out 4 1 = (s.tq (fld inp 2 2)).cls % 256 ∧ fld out 8 8 = s.charge (fld inp 2 2) 1 % 2 ^ 64) ∧
    (∀ k, fld inp 0 1 = 2 → fld inp 2 2 = k → k < 16 →
      Gives (.qosQuery via inp) s fun t => Answers via 0xC02A .success (flds [(1, 2), (1, 0), (1, k), (1, (s.cls k).weight), (1, (s.cls k).qMax),
        (1, (s.cls k).maxWays), (2, 0), (4, (s.cls k).t1Ceil), (4, (s.cls k).t2Ceil), (4, 0), (4, (s.cls k).t1Floor), (4, (s.cls k).t2Floor),
        (1, (s.cls k).qMin), (1, (s.cls k).minWays)]) s t))

/-! ## DRAM controllers and integrity -/

/-- R318-R322, R326, 17 R572: a bank with one queued request activates its row, precharges another row, or carries the request out; a
row hit goes before an older request of its bank unless that one is urgent; a request becomes urgent past the age cap; an idle bank
precharges, a refresh that is due is postponed within the standard's limit or issued, the draw of an activate marks its bank, a mark
brings refresh management, and an idle channel
enters self-refresh with every row closed. The numbers of the
commands and the limits of the standard are the model's choice (log 12). -/
def Obligations.BankCommandsFollowTheQueue : Prop :=
  (∀ c b e x s, s.chan c = x → s.chanState c = 2 → x.queue = [e] → e.bank = b → (b < if c.tier = 1 then 64 else 32) → x.inOrder = [] →
    s.drc.ingress = [] → e.job = none →
    Gives (.bankCommandIssue c) s fun t => OnlyChan c s t ∧ t.tbc = s.tbc ∧
      (tabFind x.openRows b = none → tabFind (t.chan c).openRows b = some e.row ∧ (t.chan c).acts = x.acts + 1 ∧ (t.chan c).queue = [e] ∧
        (t.chan c).cmds.getLast? = some { tbc := s.tbc, cmd := 0, bank := b, row := e.row }) ∧
      (∀ r, tabFind x.openRows b = some r → r ≠ e.row → (t.chan c).openRows = tabDel x.openRows b ∧ (t.chan c).queue = [e] ∧
        (t.chan c).cmds.getLast? = some { tbc := s.tbc, cmd := 3, bank := b, row := r }) ∧
      (tabFind x.openRows b = some e.row → (t.chan c).queue = [] ∧ (t.chan c).cmds.getLast? =
        some { tbc := s.tbc, cmd := if e.write then 2 else 1, bank := b, row := columnOf c.tier e.laddr })) ∧
  (∀ c b e f x s, s.chan c = x → s.chanState c = 2 → x.queue = [e, f] → e.bank = b → f.bank = b → (b < if c.tier = 1 then 64 else 32) →
    e.write = false → f.write = false → e.arrival ≤ f.arrival → x.inOrder = [] → s.drc.ingress = [] → f.job = none → tabFind x.openRows b = some f.row →
    e.row ≠ f.row →
    Gives (.bankCommandIssue c) s fun t => OnlyChan c s t ∧ t.tbc = s.tbc ∧
      (s.isUrgent c e = false → (t.chan c).queue = [e]) ∧
      (s.isUrgent c e = true → (t.chan c).queue = [e, f] ∧ (t.chan c).openRows = tabDel x.openRows b)) ∧
  (∀ c b e l s, bankQueue (s.chan c).queue b = e :: l →
    Gives (.requestUrgent c b) s fun t => t.isUrgent c e = true ∧ t = { s with tbc := t.tbc } ∧
      t.tbc = max s.tbc (e.arrival + nsOf c.tier ((s.sched c).2.2.1 * 256) + 1)) ∧
  (∀ c b r x s, s.chan c = x → s.chanState c = 2 → bankQueue x.queue b = [] → tabFind x.openRows b = some r →
    Gives (.bankIdlePrecharge c b) s fun t => OnlyChan c s t ∧ t.tbc = max s.tbc (tabGet 0 x.lastAccess b + nsOf c.tier (s.sched c).2.2.2) ∧
      t.chan c = { x with openRows := tabDel x.openRows b, cmds := (t.chan c).cmds } ∧
      (t.chan c).cmds.getLast? = some { tbc := t.tbc, cmd := 3, bank := b, row := r }) ∧
  (∀ c b x every due s, s.chan c = x → s.chanState c = 2 → x.selfRefresh = false → tabFind x.postponed b = none →
    every = Config.refreshNs c.tier (s.refreshRate c) → due = (tabFind x.refAt b).getD (every * b / banksOf c.tier) →
    Gives (.refresh c b) s fun t => OnlyChan c s t ∧ t.tbc = max s.tbc due ∧
      (∀ e ∈ bankQueue x.queue b, tabFind x.openRows b = some e.row → 0 < Config.postponeLimit c.tier →
        t.chan c = { x with refAt := tabSet x.refAt b (due + every), postponed := tabSet x.postponed b 1 }) ∧
      ((∀ e ∈ bankQueue x.queue b, tabFind x.openRows b ≠ some e.row) ∨ Config.postponeLimit c.tier = 0 →
        t.chan c = { x with refAt := tabSet x.refAt b (due + every), openRows := tabDel x.openRows b, cmds := (t.chan c).cmds } ∧
        (t.chan c).cmds.getLast? = some { tbc := t.tbc, cmd := 4, bank := b, row := 0 })) ∧
  (∀ c b d n x s, s.chan c = x → s.chanState c = 2 → tabGet 0 x.draws b = n → 0 < n →
    Gives (.rfmMark c b d) s fun t => OnlyChan c s t ∧ t.tbc = s.tbc ∧
      t.chan c = { x with lfsr := BitVec.ofNat 32 d, draws := if n = 1 then tabDel x.draws b else tabSet x.draws b (n - 1),
                          marks := if d % 2 ^ (s.drcReg c.slice).rfmK = 0 ∧ tabFind x.marks b = none then tabSet x.marks b (0, s.tbc)
                                   else x.marks }) ∧
  (∀ c b n at0 x s, s.chan c = x → s.chanState c = 2 → tabFind x.marks b = some (n, at0) →
    Gives (.rfmDue c b) s fun t => OnlyChan c s t ∧ t.tbc = (if 3 ≤ n then s.tbc else max s.tbc (at0 + 2000)) ∧
      t.chan c = { x with marks := tabDel x.marks b, openRows := tabDel x.openRows b, rfmRand := x.rfmRand + 1, cmds := (t.chan c).cmds } ∧
      (t.chan c).cmds.getLast? = some { tbc := t.tbc, cmd := 5, bank := b, row := 0 }) ∧
  (∀ c x s, s.chan c = x → c.tier = 2 → s.chanState c = 2 → s.queuedAt c = [] → x.srIdle ≠ 0 → x.marks = [] → x.selfRefresh = false →
    Gives (.selfRefreshEntry c) s fun t => OnlyChan c s t ∧
      t.tbc = max s.tbc (x.lastAccess.foldl (fun m e => max m e.2) 0 + x.srIdle * 1000) ∧
      t.chan c = { x with openRows := [], selfRefresh := true, cmds := (t.chan c).cmds } ∧
      (t.chan c).cmds.getLast? = some { tbc := t.tbc, cmd := 6, bank := 0, row := 0 })

/-- R323, R333, R335, R336, R569: a poll takes the stacks' and packages' temperatures; a controller whose drift tracking or bus or error
checks fail freezes, with a snapshot and a DRC_FROZEN record, and after 100 microseconds what waits there completes with poison;
DRC_FREEZE_DUMP answers the snapshot. -/
def Obligations.ControllersFreezeAndAnswerPoison : Prop :=
  (∀ n temps mr4 d s, s.up n = true → temps.length = 3 → (∀ c ∈ temps, c < 105) → s.drcReg n = d →
    Gives (.tempPoll n temps mr4) s fun t =>
      t.tbc = max s.tbc (d.lastPoll + d.tempPollMs * ms) ∧ (t.drcReg n).mr4 = mr4 ∧ (t.drcReg n).lastPoll = t.tbc ∧
      (∀ i x, temps[i]? = some x → 85 < x → bit (t.drcReg n).t1Doubled i = true) ∧
      (∀ i x, temps[i]? = some x → x ≤ 85 → bit d.t1Doubled i = false → bit (t.drcReg n).t1Doubled i = false) ∧
      (∀ j < 6, (packages s.cfg).contains j = true →
        (bit (t.drcReg n).t2Doubled j = true ↔ ∃ v ∈ (mr4.drop (4 * j)).take 4, 1 < v)) ∧
      (∀ x ∈ temps, 95 < x → (t.ck n).memHot = true ∧ 3 ≤ (t.ck n).thrStep) ∧
      (t.ck n).hbmMax = temps.foldl max 0 ∧ (∀ k, k ≠ n → t.drcReg k = s.drcReg k) ∧
      t.drc = { s.drc with regs := t.drc.regs } ∧ t.pool = s.pool ∧ t.rst = s.rst) ∧
  (∀ c cause a s, s.chanState c = 2 → 0 < cause → cause ≤ 5 → cause ≠ 1 ∨ c.tier ≠ 1 →
    Gives (.controllerFreeze c cause a) s fun t => t.chanState c = 3 ∧
      t = (((s.mapStale c true).modChan c fun x =>
        { x with override := some 3, freezeCause := cause, freezes := x.freezes + 1, frozenAt := some s.tbc, poisoning := false,
                 snap := (t.chan c).snap }).record 2 0x000D (s.frozenPayload c cause a)).signalError ∧
      (t.chan c).snap = some { header := s.frozenPayload c cause a, openRows := (s.chan c).openRows, inOrder := (s.chan c).inOrder,
                               queue := (s.chan c).queue, cmds := (s.chan c).cmds, lanes := (s.chan c).lanes, cap := (s.sched c).2.2.1,
                               at_ := s.tbc }) ∧
  (∀ c u s, s.chanState c = 2 → (s.until ((s.chan c).lastTrack + 100 * ms)).modChan c (fun x =>
      { x with lastTrack := max s.tbc ((s.chan c).lastTrack + 100 * ms) }) = u →
    exec (.driftTracking c false) s = .next u ∧ exec (.driftTracking c true) s = exec (.controllerFreeze c 5 none) u) ∧
  (∀ c t0 r s, (s.chan c).frozenAt = some t0 → (s.chan c).poisoning = false → ((s.queuedAt c).all fun e => !e.write && e.job.isNone) = true →
    s.drc.waitReads = [(ctlKey c, r)] → s.drc.waitWrites = [] → s.linkOpen r.link = true →
    Settles (.freezePoisonTimeout c) s fun t =>
      (∃ dl, .readData r.link r.pbr r.dpa [] true r.grant dl ∈ t.out) ∧ t.tbc = max s.tbc (t0 + 100000) ∧ t.drc.waitReads = [] ∧
      (t.chan c).poisoning = true ∧ t.queuedAt c = [] ∧ t.pool = s.pool) ∧
  (∀ c t0 e k j r s, (s.chan c).frozenAt = some t0 → (s.chan c).poisoning = false → s.queuedAt c = [e] → e.write = false → e.job = some k →
    tabFind s.drc.jobs k = some j → j.read = some r → s.drc.waitReads = [] → s.drc.waitWrites = [] → s.linkOpen r.link = true →
    Settles (.freezePoisonTimeout c) s fun t =>
      (∃ dl, .readData r.link r.pbr r.dpa [] true r.grant dl ∈ t.out) ∧ t.drc.jobs = tabDel s.drc.jobs k ∧ t.queuedAt c = [] ∧
      t.pool = s.pool) ∧
  (∀ via inp p s, Accepted rowFreezeDump via inp.length s → s.restarting (ctlIn inp).slice = false → s.chanState (ctlIn inp) = 3 →
    (s.chan (ctlIn inp)).snap = some p → fld inp 4 4 ≤ 17792 →
    Gives (.drcFreezeDump via inp) s fun t => Answers via 0xC070 .success (flds [(4, 17792), (4, fld inp 4 4)] ++
      ((snapBytes (ctlIn inp) p).drop (fld inp 4 4)).take (ifaceLimit via - 8)) s t)

/-- R332, R340-R342: training that passes returns a controller to service, and a thaw its command's response; a controller frozen for
FREEZE_LIMIT, or retired by command, gives its unit to the stack's spare, whose rebuild begins, and with parity no content is lost. -/
def Obligations.ControllersTrainThawAndRetire : Prop :=
  (∀ c runs lanes x s, s.chan c = x → s.ctlFitted c = true → (s.servedBy c).isSome = true → x.override = some 1 →
    runs.map (trainLane c.tier) = lanes → lanes.all lanePass = true →
    s.drc.waitReads = [] → s.drc.waitWrites = [] → s.pool.waiting = [] → s.fab.lendWait = [] →
    (x.thawing = none → Settles (.controllerTrained c runs) s fun t =>
      t = s.modChan c fun x => { x with lanes := lanes, override := none }) ∧
    (∀ v, x.thawing = some v → Settles (.controllerTrained c runs) s fun t =>
      t = (((s.modChan c fun x => { x with lanes := lanes, thawing := none }).mapRewrite c).modChan c fun x =>
        { x with override := none, snap := none, frozenAt := none, poisoning := false, openRows := [], lastTrack := s.tbc }).respond
          v 0xC071 .success []) ∧
    Settles (.controllerTrained c runs) s fun t => t.chanState c = 2) ∧
  (∀ via inp s, Accepted rowThaw via inp.length s → (s.chan (ctlIn inp)).thawing = none → s.restarting (ctlIn inp).slice = false →
    s.chanState (ctlIn inp) = 3 →
    ((s.ck (ctlIn inp).slice).pending = false →
      exec (.drcThaw via inp) s = .next (s.modChan (ctlIn inp) fun x => { x with override := some 1, thawing := some via })) ∧
    ((s.ck (ctlIn inp).slice).pending = true → (s.ck (ctlIn inp).slice).relock = false →
      exec (.drcThaw via inp) s = .next ((s.modChan (ctlIn inp) fun x => { x with override := some 1, thawing := some via }).modCk (ctlIn inp).slice
        fun k => { k with deferCause := 1 }))) ∧
  (∀ c t0 i u sp s, (s.chan c).frozenAt = some t0 → s.chanState c = 3 → c.tier = 1 → s.servedBy c = some (c.slice, u) → c.unit / 32 = i →
    sp = { slice := c.slice, tier := 1, unit := 32 * i + spareOf s.cfg c.slice i } → s.chanState sp = 5 → sp ≠ c → s.groupOk c.slice i = true →
    (s.eccReg c.slice).rebuilds = [] → s.drc.waitReads = [] → s.drc.waitWrites = [] → s.pool.waiting = [] →
    Settles (.autoRetire c) s fun t => t.tbc = max s.tbc (t0 + (s.drcReg c.slice).freezeLimit * ms) ∧ t.chanState c = 4 ∧
      t.physOf c.slice 1 u = (if s.drc.retired.contains (c.slice * 256 + u) then none else some sp) ∧
      (t.eccReg c.slice).rebuilds = [{ kind := 0, unit := c.unit, source := 0, bytes := pcBytes, units := [u], running := true }] ∧
      t.pool = s.pool ∧ t.eng = s.eng ∧ t.dir = s.dir) ∧
  (∀ via inp c i u sp s, Accepted rowRetire via inp.length s → ctlIn inp = c → s.chanState c = 2 → (s.chan c).thawing = none →
    s.restarting c.slice = false → c.tier = 1 → s.servedBy c = some (c.slice, u) → c.unit / 32 = i →
    sp = { slice := c.slice, tier := 1, unit := 32 * i + spareOf s.cfg c.slice i } → s.chanState sp = 5 → sp ≠ c → s.groupOk c.slice i = true →
    (s.eccReg c.slice).rebuilds = [] → s.drc.waitReads = [] → s.drc.waitWrites = [] → s.pool.waiting = [] →
    Settles (.drcRetireChannel via inp) s fun t => t.chanState c = 4 ∧ (t.iface via).ret = .success ∧ (t.iface via).payload = [0] ∧
      (t.eccReg c.slice).rebuilds = [{ kind := 0, unit := c.unit, source := 0, bytes := pcBytes, units := [u], running := true }] ∧
      t.pool = s.pool ∧ t.eng = s.eng ∧ t.dir = s.dir) ∧
  (∀ l slice val s, s.pf0Open (.pf0 l) = true → bit s.cfg.fmLinks l = true → s.up slice = true → bit val 17 = true → bit val 18 = false →
    s.maskResult slice (bits val 7 0) (bit val 16) = 0 → ((s.touch (.pf0 l)).maskResult slice (bits val 7 0) (bit val 16) = 0) →
    (∀ k < 8, bit (s.drcReg slice).keep k = true → bit (bits val 7 0) k = false → s.segLive slice k = false) → s.items = [] →
    exec (.applyMask (.pf0 l) slice val) s =
      .next ((s.touch (.pf0 l)).modDrcReg slice fun d =>
        { d with busyAt := some (s.touch (.pf0 l)).tbc, keep := bits val 7 0, result := 0 })) ∧
  (∀ l slice val s, s.pf0Open (.pf0 l) = true → bit s.cfg.fmLinks l = true → s.up slice = true → bit val 17 = false → bit val 18 = true →
    exec (.applyEvac (.pf0 l) slice val) s =
      .next ((s.touch (.pf0 l)).modDrcReg slice fun d =>
        { d with busyAt := some (s.touch (.pf0 l)).tbc, evac := bits val 15 8, result := 0 }))

/-- R366-R371, R377, R443: a failed stack of a group with parity leaves service with a rebuild begun and no byte of memory changed; a
stripe rebuilt and the rebuild's end; a scrub is queued, cancelled, reads a home and is reported; the retire list is read, and saved at
most once in 60 s. -/
def Obligations.StacksRebuildAndScrubsRead : Prop :=
  (∀ n k s, s.up n = true → k < 3 → (s.eccReg n).failedStacks = [] → s.groupOk n k = true → (s.eccReg n).rebuilds = [] →
    (∀ p < 32, s.queuedAt { slice := n, tier := 1, unit := 32 * k + p } = []) →
    Settles (.stackFailure n k) s fun t => (t.eccReg n).failedStacks = [k] ∧ (∀ p < 32, t.chanState { slice := n, tier := 1, unit := 32 * k + p } = 4) ∧
      (t.eccReg n).rebuilds = [{ kind := 1, unit := 3 * n + k, source := 0, bytes := 31 * dataRows s.cfg * 65536,
                                 group := (parityGroup s.cfg n k).1, units := (List.range 31).map (31 * k + ·), running := true }] ∧
      t = { s with drc := { s.drc with chans := t.drc.chans, maps := t.drc.maps }, ecc := { s.ecc with regs := t.ecc.regs },
                   qos := { s.qos with scale := t.qos.scale }, mbx := t.mbx, fw := t.fw, out := t.out, fns := t.fns }) ∧
  (∀ n r rs s, (s.eccReg n).rebuilds = r :: rs → r.kind = 1 → r.running = true → r.done < stripeTotal → (s.eccReg n).waitWrites = [] →
    s.pool.waiting = [] →
    Settles (.stripeRebuilt n) s fun t => t = (s.modEccReg n fun e =>
      { e with rebuilds := { r with done := stripeFrom s.cfg (parityGroup s.cfg n (r.unit % 3)).2 r.done + 1 } :: rs })) ∧
  (∀ n r s, (s.eccReg n).rebuilds = [r] → r.kind = 1 → r.running = true → (s.eccReg n).waitWrites = [] → s.pool.waiting = [] →
    Settles (.rebuildDone n) s fun t => (t.eccReg n).rebuilds = [] ∧ (∀ k ∈ s.upSlices, bit (t.eccReg k).degraded r.group = true) ∧
      (∀ i (h : Home), i ∈ s.items → s.homeOf i = some h → s.itemSlice i = n → h.tier = 1 →
        ((homePieces s.cfg n h).any fun p => r.units.contains p.2.1) = true → ∃ e, t.entOf i = some e ∧ e.heavy = 0 ∧ e.any = 0) ∧
      t = { s with ecc := { s.ecc with regs := t.ecc.regs }, qos := { s.qos with scale := t.qos.scale }, mbx := t.mbx, fw := t.fw,
                   out := t.out, fns := t.fns, pool := { s.pool with pages := t.pool.pages },
                   eng := { s.eng with models := t.eng.models, seqs := t.eng.seqs } }) ∧
  (∀ via inp start len x s, Accepted rowScrubRange via inp.length s → s.ecc.scrubs = [] →
    (fld inp 0 1 = 0 → bit (fld inp 1 1) 0 = false → fld inp 8 8 = start → fld inp 16 8 = len → start % 4096 = 0 → len % 4096 = 0 → len ≠ 0 →
      x = { num := s.ecc.nextScrub, scope := 0, mask := fld inp 2 1, tier := fld inp 3 1, handle := fld inp 6 2, start := start, len := len,
              total := len / 4096 } → s.scrubLeft x ≠ [] →
      exec (.scrubRange via inp) s = .next ((s.setEcc { s.ecc with scrubs := [x], nextScrub := (s.ecc.nextScrub + 1) % 65536 }).respond via
        0xC038 .success (flds [(2, s.ecc.nextScrub)])))) ∧
  (∀ via inp x s, Accepted rowScrubRange via inp.length s → s.ecc.scrubs = [x] → bit (fld inp 1 1) 0 = true → fld inp 6 2 = x.num → x.state ≤ 1 →
    exec (.scrubCancel via inp) s = .next ((s.setEcc { s.ecc with scrubs := [{ x with state := 3 }] }).respond via 0xC038 .success (flds [(2, x.num)]))) ∧
  (∀ num i h b x s, s.ecc.scrubs = [x] → x.num = num → x.state ≤ 1 → s.homeOf i = some h → h.blk = some b → s.inScope x i = true →
    x.visited.contains i = false → i ∈ s.items → s.homeFrozen (s.itemSlice i) h 0 (homeLen h) = none →
    Gives (.scrubHomeRead num i []) s fun t => (∃ y, t.ecc.scrubs = [y] ∧ y.visited = x.visited ++ [i] ∧ y.read = x.read + 1 ∧
        y.symbols = x.symbols ∧ y.uncorrectable = x.uncorrectable) ∧
      t.pool.mem = s.pool.mem ∧ t.pool.pages = s.pool.pages ∧ t.out = s.out ∧ t.eng = s.eng) ∧
  (∀ via inp x s, Accepted rowScrubStatus via inp.length s → s.ecc.scrubs = [x] → fld inp 0 2 = x.num → x.state = 1 → s.scrubLeft x ≠ [] →
    Gives (.scrubStatus via inp) s fun t => Answers via 0xC039 .success (flds [(1, 1), (1, min 100 (100 * x.visited.length / max 1 x.total)), (6, 0),
      (8, x.read), (8, x.symbols), (8, x.tripped), (8, x.uncorrectable), (8, x.moved), (8, x.notRead)]) s t) ∧
  (∀ via inp n l s, Accepted rowRetireListGet via inp.length s → fld inp 0 1 = n → n < s.cfg.slices →
    l = ((s.eccReg n).retire.drop (fld inp 4 4)).take ((ifaceLimit via - 8) / 8) →
    Gives (.retireListGet via inp) s fun t => Answers via 0xC03A .success
      (flds [(4, (s.eccReg n).retire.length), (4, l.length)] ++ l.flatMap fun r => le 8 (r.2 % 2 ^ 40 + 2 ^ 40 * r.1)) s t) ∧
  (∀ n t0 s' t, ∀ s : State, ((List.range s.cfg.slices).filter fun k => (s.eccReg k).savePending) = [n] → (s.eccReg n).lastSave = some t0 →
    s' = s.until (t0 + 60000 * ms) → s.pwr.guard = false → s.pwr.testing = false → s'.canWriteFlash = true →
    t = s'.modEccReg n (fun e => { e with saved := e.retire, savePending := false, lastSave := some s'.tbc }) →
    (t.fw.base = 7 ∨ t.fw.journal.fmtA = t.fw.runFmt ∧ t.fw.journal.fmtB = t.fw.runFmt → exec .retireListSave s = .next t) ∧
    (¬(t.fw.base = 7 ∨ t.fw.journal.fmtA = t.fw.runFmt ∧ t.fw.journal.fmtB = t.fw.runFmt) → exec .retireListSave s = .next (t.setFw { t.fw with
      journal := { t.fw.journal with seq := t.fw.journal.seq + 1, fmtA := t.fw.runFmt, fmtB := t.fw.runFmt } })))

/-! ## The Periscope fabric -/

/-- R243, R244, R247-R250: a peer link trains to the width of its lanes with its sequence numbers and credits anew, takes a DATA flit in
order and puts its message next in the queue, asks again from the expected SEQ, acknowledges, replays what is not acknowledged, goes
down, retrains without a message lost, and is DOWN after 10 ms. -/
def Obligations.PeerLinksCarryMessages : Prop :=
  (∀ p lanes w x s, s.peer p = x → peerFitted s.cfg p = true → s.up (peerPortSlice s.cfg p) = true → x.noRefclk = false → x.failed = false →
    x.link ≠ 2 → x.downAt = none → widthOf lanes = w → w ≠ 0 →
    exec (.peerLinkTrain p lanes) s = .next ((((s.modPeer p fun x =>
      { x with link := 2, width := w, credits := [2048, 2048, 256], txSeq := 0, rxSeq := 0, replay := [], discarding := false, partial_ := [],
               owed := [0, 0, 0], sinceAck := 0, lastValid := s.tbc, progressAt := s.tbc, downAt := none, replays := 0 }).dropParts p).hello p).pump p)) ∧
  (∀ p f c x s, s.peer p = x → x.link = 2 → f.length = 272 → flitContent f = some c → x.txq = [] → fld c 0 1 % 16 = 1 → bit (fld c 3 2) 12 = false →
    (∀ b i, fld c 1 2 % 4096 = x.rxSeq → x.partial_ = [] → fld c 9 1 = 0 → x.sinceAck < 63 → splitMsgs 32 (slice c 10 242) = ([b], []) →
      fld b 3 1 = s.fab.me →
      (rowOfMsg (parseMsg b) = some i ∨ 0x20 ≤ fld b 0 1 ∧ fld b 0 1 ≠ 0x30 ∧ s.fab.me ≠ 0xFF ∧ (parseMsg b).ca = 0 ∧ (parseMsg b).gen ≤ 1024 ∧
        tabFind s.fab.ctlParts (65536 * p + 256 * fld b 0 1 + fld b 2 1) = none ∧
        rowOfCtl p s.fab.me (fld b 0 1) (fld b 2 1) (slice (parseMsg b).data 0 (parseMsg b).gen) = some i) →
      Gives (.flitReceive p f) s fun t => t.pending = i :: s.pending ∧ (t.peer p).rxSeq = (x.rxSeq + 1) % 4096 ∧
        (t.peer p).sinceAck = x.sinceAck + 1 ∧ (t.peer p).discarding = false ∧ (t.peer p).owed = x.owed.set (fld b 1 1 % 4)
          (x.owed.getD (fld b 1 1 % 4) 0 + (b.length + 31) / 32) ∧
        t = { s with pending := t.pending, fab := { s.fab with ports := t.fab.ports } }) ∧
    (fld c 1 2 % 4096 ≠ x.rxSeq → x.discarding = false → (fld c 1 2 % 4096 + 4096 - x.rxSeq) % 4096 < 2048 →
      Gives (.flitReceive p f) s fun t => (t.peer p).discarding = true ∧ (t.peer p).rxSeq = x.rxSeq ∧ t.pending = s.pending ∧
        t.out = .flit p (flitBytes (flitOf 2 0 ((x.rxSeq + 4095) % 4096) true [] 0xFF (le 2 x.rxSeq))) :: s.out)) ∧
  (∀ p seq x s, s.peer p = x → x.link = 2 → (x.replay.dropWhile fun f => f.1 != seq % 4096) ≠ [] → x.lastReplay ≠ seq % 4096 ∨ x.replays < 15 →
    Gives (.retryReq p seq) s fun t =>
      t.out = (x.replay.dropWhile fun f => f.1 != seq % 4096).reverse.map (fun f => .flit p f.2) ++ s.out ∧
      t.fab = { s.fab with ports := t.fab.ports } ∧ (t.peer p).link = 2 ∧ (t.peer p).replay = x.replay) ∧
  (∀ p x s, s.peer p = x → x.link = 2 →
    (x.discarding = true → exec (.retryReqRepeat p) s = .next
      (((s.until (x.retrySent + 2000)).modPeer p fun y => { y with discarding := true, retrySent := max s.tbc (x.retrySent + 2000) }).emit
        (.flit p (flitBytes (flitOf 2 0 ((x.rxSeq + 4095) % 4096) true [] 0xFF (le 2 x.rxSeq)))))) ∧
    (0 < x.sinceAck → Gives (.ackTimer p) s fun t => t.tbc = max s.tbc (x.lastGood + 100) ∧ (t.peer p).sinceAck = 0 ∧
      t.out = .flit p (flitBytes (flitOf 0 0 ((x.rxSeq + 4095) % 4096) true (s.returns p) 0xFF [])) :: s.out ∧
      t = { s with tbc := t.tbc, out := t.out, fab := { s.fab with ports := t.fab.ports } }) ∧
    (∀ d, d = (if x.replay = [] ∧ x.discarding = false then x.lastValid + 10 * us else min (x.lastValid + 10 * us) (x.progressAt + 50 * us)) →
      exec (.peerLinkDown p) s = .next ((s.until d).modPeer p fun x => { x with link := 1, downAt := some (max s.tbc d), discarding := false }))) ∧
  (∀ p lanes w x t0 s, s.peer p = x → x.link = 1 → x.downAt = some t0 → widthOf lanes = w → w ≠ 0 →
    Gives (.peerLinkRetrained p lanes) s fun t =>
      ((t.peer p).link = 2 ∧ (t.peer p).width = w ∧ (t.peer p).retrains = x.retrains + 1 ∧ (t.peer p).downAt = none ∧ (t.peer p).rxSeq = x.rxSeq ∧
        (t.peer p).partial_ = x.partial_ ∧ (t.peer p).replays = 0 ∧ ∃ l, (t.peer p).replay = x.replay ++ l) ∧
      (∃ l, t.out = l ++ (x.replay.reverse.map fun f => Out.flit p f.2) ++ s.out ∧
        Out.mgmt 0x20 p [s.fab.constId, s.fab.me, s.fab.master, s.fab.epoch] [] ∈ l) ∧
      t = { s with out := t.out, fab := { s.fab with ports := t.fab.ports } }) ∧
  (∀ p t0 s, (s.peer p).downAt = some t0 →
    exec (.portDown p) s = .next (((((s.until (t0 + 10 * ms)).dropQueued p).modPeer p fun x =>
      { x with link := 3, width := 0, replay := [], partial_ := [], downAt := none, neighbour := 0xFF, cid := 0 }).dropParts p).signalPf0 6))

/-- R253, R262, R266-R269: a lender serves a request of its window's borrower and present generation, and refuses one of another
borrower (RANGE) or an old generation (STALE); a read response answers the read that waited, an acknowledgement completes the write, a
STALE refusal holds the window and asks for its notice; a request that times out leaves poison and its tag out of use until the later
of its response and twice REQ_TIMEOUT. -/
def Obligations.FabricRequestsAreServedOrEnd : Prop :=
  (∀ m w off x n s, s.fab.mstate = 2 → m.dst = s.fab.me → s.fab.routes.getD m.src 0xFF < peerPorts s.cfg → bits m.ca 43 38 = w →
    m.ca % 2 ^ 38 = off → tabFind s.fab.lw w = some x → x.valid = true → lendSlice x.mask (off / 2 ^ 30) = some n → s.up n = true →
    (m.src = x.borrower → m.gen = x.gen → off + 256 * m.len ≤ x.size * 2 ^ 30 →
      (s.lentBad w off (256 * m.len) = false → Gives (.rd m) s fun t => Out.msg m.src
          { opcode := 0x10, vc := 1, len := m.len, src := s.fab.me, dst := m.src, tag := m.tag, hops := 8, gen := x.gen, ca := m.ca, cls := x.cls,
            status := 0, data := (List.range m.len).flatMap fun k => sectorOf x (off / 256 + k) } ∈ t.out ∧ t.fab.lw = s.fab.lw ∧ t.pool = s.pool) ∧
      (s.lentBad w off (256 * m.len) = true → s.lentFrozen w off (256 * m.len) = none → Gives (.rd m) s fun t => t.fab.lw = s.fab.lw ∧ t.pool = s.pool ∧
        ∃ r, Out.msg m.src r ∈ t.out ∧ r.opcode = 0x10 ∧ r.tag = m.tag ∧ r.status = 1 ∧ r.len = 0 ∧ r.data = []) ∧
      (∀ c, s.lentFrozen w off (256 * m.len) = some c →
        ((s.chan c).poisoning = false → ∀ i, i = Instr.rd m ∨ i = Instr.wr m →
          exec i s = .next (s.setFab { s.fab with lendWait := s.fab.lendWait ++ [m] })) ∧
        ((s.chan c).poisoning = true → Gives (.wr m) s fun t => t.fab.lw = s.fab.lw ∧
          ∃ r, Out.msg m.src r ∈ t.out ∧ r.opcode = 0x11 ∧ r.tag = m.tag ∧ r.status = 1)) ∧
      (s.lentFrozen w off (256 * m.len) = none → Gives (.wr m) s fun t => Out.msg m.src
          { opcode := 0x11, vc := 1, len := 0, src := s.fab.me, dst := m.src, tag := m.tag, hops := 8, gen := x.gen, ca := m.ca, cls := x.cls,
            status := 0, data := [] } ∈ t.out ∧ t.pool = s.pool ∧
        ∀ v y, tabFind t.fab.lw v = some y →
          (v ≠ w → tabFind s.fab.lw v = some y) ∧
          (v = w → (∀ k < m.len, sectorOf y (off / 256 + k) = slice m.data (256 * k) 256) ∧
            ∀ j, j < off / 256 ∨ off / 256 + m.len ≤ j → sectorOf y j = sectorOf x j))) ∧
    (m.src ≠ x.borrower → Gives (.rd m) s fun t => (∃ r, Out.msg m.src r ∈ t.out ∧ r.opcode = 0x12 ∧ r.tag = m.tag ∧ r.status = 3) ∧
      t.fab.lw = s.fab.lw ∧ t.pool = s.pool) ∧
    (m.src = x.borrower → m.gen ≠ x.gen → m.gen ≠ (x.gen + 65535) % 65536 →
      Gives (.rd m) s fun t => (∃ r, Out.msg m.src r ∈ t.out ∧ r.opcode = 0x12 ∧ r.tag = m.tag ∧ r.status = 2) ∧
        t.fab.lw = s.fab.lw ∧ t.fab.staleNacks = s.fab.staleNacks + 1 ∧ t.pool = s.pool)) ∧
  (∀ m r s, s.fab.mstate = 2 → m.dst = s.fab.me → s.fab.reqs = [(m.tag, r)] → r.timedOut = false → r.msg.dst = m.src → s.fab.heldReqs = [] →
    (∀ n h b rr d, m.status = 0 → r.kind = 0 → r.item = some (.page n) → s.homeOf (.page n) = some h → h.tier = 3 → h.blk = some b →
      s.fab.flips = [] → m.data = slice (blockBytes b) (r.msg.ca % 2 ^ 38 - h.ma) (256 * r.msg.len) →
      decodeBlock (s.cn (s.itemSlice (.page n))).slots b = .ok d → s.pool.waiting = [rr] → rr.dpa / 4096 = n → s.lineBusy (rr.dpa / 64) = false →
      s.linePoison (rr.dpa / 64) = false → s.linkOpen rr.link = true →
      Settles (.rdData m) s fun t => t = { s with fab := { s.fab with reqs := [] }, pool := { s.pool with waiting := [] }, out := t.out } ∧
        ∃ dl, t.out = .readData rr.link rr.pbr rr.dpa (s.lineData (rr.dpa / 64)) false rr.grant dl :: s.out) ∧
    (∀ n w, m.status = 0 → r.kind = 1 → r.item = some (.page n) → s.pool.far = [(n, w)] → s.pool.waiting = [] →
      exec (.wrAck m) s = .next (({ s with fab := { s.fab with reqs := [] }, pool := { s.pool with far := [] } } : State).complete w 3).dirSettle) ∧
    (m.status = 2 → (s.pw r.win).hold = false →
      exec (.nack m) s = .next (((s.setFab { s.fab with staleNacks := s.fab.staleNacks + 1, reqs := [(m.tag, { r with again := true })] }).modPw r.win
        fun w => { w with hold := true }).mgmt 0x29 (s.pw r.win).lender [(s.pw r.win).lw]).dirSettle) ∧
    (m.status = 3 → r.item = none → Settles (.nack m) s fun t => t.fab.rangeNacks = s.fab.rangeNacks + 1 ∧ t.fab.reqs = [] ∧ t.pool = s.pool)) ∧
  (∀ tag r n h s, tabFind s.fab.reqs tag = some r → r.timedOut = false → r.kind = 0 → r.item = some (.page n) → s.homeOf (.page n) = some h →
    h.tier = 3 → s.pool.waiting = [] →
    Settles (.reqTimeoutExpiry tag) s fun t => t.tbc = max s.tbc (r.issued + r.limitUs * us) ∧
      tabFind t.fab.reqs tag = some { r with timedOut := true, again := false } ∧ (t.page n).poison = BitVec.allOnes 64 ∧
      (∀ k, k ≠ n → t.page k = s.page k)) ∧
  (∀ tag r s, tabFind s.fab.reqs tag = some r → r.timedOut = true → r.lateSeen = true → s.fab.heldReqs = [] →
    exec (.requestTagReuse tag) s = .next ((s.until (r.issued + 2 * r.limitUs * us)).setFab { s.fab with reqs := tabDel s.fab.reqs tag })) ∧
  (∀ src lw size gen w x s, s.fab.mstate = 2 → s.fab.pw = [(w, x)] → x.valid = true → x.lender = src → x.lw = lw → s.fab.reqs = [] →
    s.fab.heldReqs = [] →
    exec (.windowNotice src lw size s.fab.me gen) s = .next (s.setFab { s.fab with
      notices := tabSet s.fab.notices (src * 64 + lw) (size, gen), pw := [(w, { x with gen := gen, size := min x.size size, hold := false })] }) ∧
    exec (.occupancy src lw) s = .next (s.mgmt 0x2A src [lw, s.occupied w])) ∧
  (∀ src lw x s, s.fab.mstate = 2 → tabFind s.fab.lw lw = some x → x.valid = true →
    exec (.windowInfo src lw) s = .next (s.mgmt 0x28 src [lw, x.size, x.borrower, x.gen]))

/-- R264-R266: a window is staged; a commit applies every staged window in one step with a changed lend window's generation raised by
1, or none; a borrower's report of a granule that a commit would take refuses it. -/
def Obligations.WindowsCommitTogether : Prop :=
  (∀ via inp x s, Accepted rowStage via inp.length s → s.fab.commit = none → fld inp 0 1 ≤ 1 → fld inp 1 1 < 64 → fld inp 4 2 ≤ 256 →
    (fld inp 0 1 = 1 → fld inp 6 1 < 64) → (fld inp 0 1 = 0 → fld inp 7 1 < 16 ∧ fld inp 6 1 < 2 ^ s.cfg.slices) →
    x = { kind := fld inp 0 1, win := fld inp 1 1, valid := bit (fld inp 2 1) 0, flag := bit (fld inp 2 1) 1, peer := fld inp 3 1,
          size := fld inp 4 2, mask := fld inp 6 1, cls := fld inp 7 1 % 16 } →
    exec (.periscopeWindowStage via inp) s = .next ((s.setFab { s.fab with staged :=
      (s.fab.staged.filter fun y => !(y.kind == x.kind && y.win == x.win)) ++ [x] }).respond via 0xC040 .success [])) ∧
  (∀ via inp s, Accepted rowCommit via inp.length s → s.fab.commit = none →
    (bit (fld inp 0 1) 0 = true → exec (.periscopeCommit via inp) s =
      .next ((s.setFab { s.fab with staged := [] }).respond via 0xC041 .success (List.replicate 16 0)).dirSettle) ∧
    (bit (fld inp 0 1) 0 = false → s.bistFull = true → (∃ y ∈ s.fab.staged, y.valid = true) →
      Settles (.periscopeCommit via inp) s fun t => Answers via 0xC041 .busy [] s t) ∧
    (bit (fld inp 0 1) 0 = false → s.bistFull = false → s.commitOk (bit (fld inp 0 1) 1) = false →
      Settles (.periscopeCommit via inp) s fun t => Answers via 0xC041 .invalidInput [] s t) ∧
    (bit (fld inp 0 1) 0 = false → s.bistFull = false → s.commitOk (bit (fld inp 0 1) 1) = true → s.asked = [] → s.fab.heldReqs = [] →
      Settles (.periscopeCommit via inp) s fun t => t.fab.staged = [] ∧ t.fab.lw = s.lwAfter ∧ t.fab.pw = s.pwsAfter ∧ (t.iface via).ret = .success ∧
        ∀ y x, s.fab.staged = [y] → y.kind = 0 → tabFind s.fab.lw y.win = some x → x.valid = true → y.valid = true → x.size < y.size →
          (tabFind t.fab.lw y.win).map (fun z => (z.gen, z.size, z.borrower, z.commitAt)) = some ((x.gen + 1) % 65536, y.size, y.peer, s.tbc))) ∧
  (∀ src lw n x y v s, s.fab.commit = some { via := v, asked := [lw] } → s.fab.staged = [y] → y.kind = 0 → y.win = lw →
    tabFind s.fab.lw lw = some x → x.borrower = src → s.fab.heldReqs = [] →
    (keptGranules x y < n → exec (.occupancyAnswer src lw n) s = .next ((s.setFab { s.fab with commit := none }).respond v 0xC041 .invalidInput []).dirSettle) ∧
    (n ≤ keptGranules x y → s.commitOk false = true → Settles (.occupancyAnswer src lw n) s fun t =>
      t.fab.commit = none ∧ t.fab.staged = [] ∧ t.fab.lw = s.lwAfter ∧ (t.iface v).ret = .success))

/-- R251, R254, R256-R261, R275, R445: neighbours, heartbeats and polls are taken; a silent member is LOST with every window it lends, a
silent master sets MASTER_LOST; joins are admitted, judged, acknowledged, answered or end in 500 ms; a table of a higher epoch replaces
the module's and one of a lower epoch changes nothing; a new master rebuilds the table. The fields of management messages and the form of a
refused join are the model's choices (logs 12, 24). -/
def Obligations.ConstellationsKeepTheirTable : Prop :=
  (∀ p cid m ma e s, (s.peer p).link = 2 →
    (s.fab.mstate ≠ 2 ∨ cid = s.fab.constId →
      exec (.hello p cid m ma e) s = .next (s.modPeer p fun x => { x with neighbour := m, cid := cid, nmaster := ma, nepoch := e })) ∧
    (s.fab.mstate = 2 → cid ≠ s.fab.constId →
      exec (.hello p cid m ma e) s = .next (s.modPeer p fun x => { x with neighbour := 0xFF, cid := cid, nmaster := ma, nepoch := e }))) ∧
  (∀ cid root l m d, (∀ x ∈ l, x.module = d → x.state = 3) → (routeTable cid root l m).getD d 0xFF = 0xFF) ∧
  (∀ s, s.fab.mstate = 2 →
    (∀ src, src = s.fab.master → exec (.heartbeat src) s = .next (s.setFab { s.fab with beats := tabSet s.fab.beats src s.tbc })) ∧
    (∀ now, now = max s.tbc (tabGet 0 s.fab.beats 256 + 10 * ms) → exec .heartbeatTimer s =
      .next (((s.until now).setFab { s.fab with beats := tabSet s.fab.beats 256 now }).mgmt 0x21
        (if s.fab.isMaster then 0xFF else s.fab.master) [])) ∧
    (∀ src, exec (.poll src) s = .next (s.mgmt 0x26 src [s.fab.me, s.fab.epoch, s.fw.running.level] s.cfg.serial)) ∧
    (s.fab.isMaster = false → s.fab.masterLost = false → exec .masterLost s =
      .next (((s.until (tabGet 0 s.fab.beats s.fab.master + 1000 * ms)).setFab { s.fab with masterLost := true }).signalPf0 6)) ∧
    (∀ src e tab rt, src ≠ s.fab.me → s.fab.epoch < e → (∃ x ∈ tab, x.module = s.fab.me ∧ x.serial = s.cfg.serial ∧ x.state = 1) →
      s.fab.pw = [] → s.fab.commit = none → exec (.membership src e tab rt) s =
      .next ((s.setFab { s.fab with epoch := e, members := tab, routes := rt, master := src, isMaster := false, masterLost := false,
                                    beats := tabSet s.fab.beats src s.tbc }).mgmt 0x25 src [e])) ∧
    (∀ src e tab rt, e < s.fab.epoch → exec (.membership src e tab rt) s = .next s) ∧
    (∀ src e tab rt, src ≠ s.fab.me → s.fab.epoch < e → s.fab.joinVia = none → (∀ x ∈ tab, x.module = s.fab.me → x.state ≠ 1) →
      exec (.membership src e tab rt) s = .next s.outOf) ∧
    (∀ src m e rt ser q, s.fab.joinPorts = [(ser, q)] → rt ≠ [] → (∃ x ∈ s.fab.members, x.serial = ser ∧ x.state ≤ 1 ∧ x.module = m) →
      Gives (.joinAck src m e rt) s fun t => t.fab.joinPorts = [] ∧ Out.mgmt 0x23 m [m, e] (rt.map (BitVec.ofNat 8)) ∈ t.out ∧
        (t.peer q).cid = s.fab.constId ∧ t.pool = s.pool) ∧
    (∀ src tab rt, src ≠ s.fab.me → (∃ x ∈ tab, x.module = s.fab.me ∧ x.serial = s.cfg.serial ∧ x.state = 1) → src < s.fab.master → Gives (.membership src s.fab.epoch tab rt) s fun t => t.fab.master = src ∧ t.fab.members = tab) ∧
    (∀ src tab rt, s.fab.master < src → exec (.membership src s.fab.epoch tab rt) s = .next s)) ∧
  (∀ m s, s.fab.isMaster = true → s.fab.poll = none → s.fab.commit = none → m ≠ s.fab.me → (∃ x ∈ s.fab.members, x.module = m ∧ x.state ≠ 3) →
    (∀ x ∈ s.fab.members, x.state ≠ 0) →
    Gives (.memberLost m) s fun t => t.tbc = max s.tbc (tabGet 0 s.fab.beats m + 1000 * ms) ∧ t.fab.epoch = s.fab.epoch + 1 ∧
      t.fab.members = withState s.fab.members m 3 (s.fab.epoch + 1) ∧
      (∀ w x, tabFind s.fab.pw w = some x → x.valid = true → x.lender = m → tabFind t.fab.pw w = some { x with state := 2 }) ∧ t.pool = s.pool) ∧
  (∀ p ser rep lv s, s.fab.mstate = 2 → s.fab.isMaster = true → rep ≠ [] →
    (∀ r, s.judge ser rep lv = .error r → exec (.joinReq p ser rep lv) s = .next (s.mgmtOn p 0x23 0xFF [0xFF, r])) ∧
    (∀ m, s.judge ser rep lv = .ok m → Gives (.joinReq p ser rep lv) s fun t => s.fab.epoch < t.fab.epoch ∧
      ∃ x ∈ t.fab.members, x.module = m ∧ x.serial = ser ∧ x.level = lv) ∧
    ((s.fab.admitted.any fun a => a.1 == ser) = false → s.judge ser rep lv = .error 2)) ∧
  (∀ p ser rep lv s, s.fab.mstate = 2 → s.fab.isMaster = false → rep ≠ [] →
    exec (.joinReq p ser rep lv) s = .next ((s.joinsBy ser p).mgmt 0x22 s.fab.master [lv] (ser ++ rep))) ∧
  (∀ p ser lv y s, s.fab.mstate = 2 → s.fab.isMaster = true → y ∈ s.fab.members → y.serial = ser → y.state = 1 → y.module ≠ s.fab.me →
    (∀ x ∈ s.fab.members, x.serial = ser → x = y) → (∀ x ∈ s.fab.members, x.state ≠ 0) →
    Gives (.joinReq p ser [] lv) s fun t => t.fab.epoch = s.fab.epoch + 1 ∧ t.fab.members = withState s.fab.members y.module 2 (s.fab.epoch + 1)) ∧
  (∀ src m e rt v t0 b s, s.fab.joinVia = some (v, t0) → s.fab.mstate = 1 → (s.iface v).bg = some b → b.opcode = 0xC042 →
    (m ≠ 0xFF → s.fab.epoch ≤ e → Gives (.joinAck src m e rt) s fun t => t.fab.mstate = 2 ∧ t.fab.me = m ∧ t.fab.master = src ∧ t.fab.epoch = e ∧
      t.fab.constId = s.fab.joinId ∧ t.fab.routes = rt ∧ t.fab.lastJoin = 1 ∧ (t.iface v).bg = none ∧ (t.iface v).ret = .success ∧ t.pool = s.pool) ∧
    (m ≠ 0xFF → e < s.fab.epoch → exec (.joinAck src m e rt) s = .next s) ∧
    Gives (.joinAck src 0xFF e []) s fun t => t.fab.mstate = 0 ∧ t.fab.lastJoin = e % 256 ∧ (t.iface v).bg = none ∧
      (t.iface v).ret = .internalError ∧ t.pool = s.pool) ∧
  (∀ v t0 b s, s.fab.joinVia = some (v, t0) → s.fab.mstate = 1 ∨ s.fab.mstate = 3 → (s.iface v).bg = some b → b.opcode = 0xC042 →
    (Gives .joinTimeout s fun t => t.tbc = max s.tbc (t0 + 500 * ms) ∧ t.fab.mstate = (if s.fab.mstate = 1 then 0 else 2) ∧
      (s.fab.mstate = 1 → t.fab.lastJoin = 7) ∧ (t.iface v).bg = none ∧ (t.iface v).ret = .internalError ∧ t.pool = s.pool) ∧
    (∀ src e tab rt, s.fab.mstate = 3 → src ≠ s.fab.me → s.fab.epoch < e → (∀ x ∈ tab, x.module = s.fab.me → x.state ≠ 1) →
      Gives (.membership src e tab rt) s fun t => t.fab.mstate = 0 ∧ t.fab.members = [] ∧ (t.iface v).bg = none ∧ (t.iface v).ret = .success ∧
        t.pool = s.pool)) ∧
  (∀ src x y s, s.fab.isMaster = true → x.module = s.fab.me → y.module = src → s.fab.acks = [] → x.state = 1 → y.state = 1 →
    (s.fab.members = [x, y] → exec (.membershipAck src s.fab.epoch) s = .next (s.setFab { s.fab with acks := [src] })) ∧
    (∀ z, s.fab.members = [x, y, z] → z.state = 0 → s.fab.commit = none → Gives (.membershipAck src s.fab.epoch) s fun t =>
      t.fab.epoch = s.fab.epoch + 1 ∧ t.fab.members = [x, y, { z with state := 1, epoch := s.fab.epoch + 1 }])) ∧
  (∀ src e ser lv got v b s, s.fab.poll = some ([src], got) → s.bgOf 0xC044 = some v → (s.iface v).bg = some b → b.opcode = 0xC044 →
    Gives (.pollAnswer src e ser lv) s fun t => t.fab.poll = none ∧ t.fab.isMaster = true ∧ t.fab.master = s.fab.me ∧ t.fab.masterLost = false ∧
      t.fab.epoch = max s.fab.epoch e + 1 ∧ (t.iface v).bg = none) ∧
  (∀ via inp s, Accepted rowJoin via inp.length s → s.fab.masterLost = false →
    (fld inp 0 1 = 0 → s.fab.isMaster = true → exec (.constellationJoinAdmit via inp) s = .next ((s.setFab { s.fab with admitted :=
      (s.fab.admitted.filter fun a => a.1 != slice inp 16 16) ++ [(slice inp 16 16, fld inp 1 1)] }).respond via 0xC042 .success [])) ∧
    (fld inp 0 1 = 1 → s.fab.mstate = 0 → s.fw.identityLost = true →
      exec (.constellationJoinJoin via inp) s = .next (s.respond via 0xC042 .internalError [])) ∧
    (∀ f, fld inp 0 1 = 1 → s.fab.mstate = 0 → s.fw.identityLost = false → s.bgBusy via 0xC042 [] = false →
      f = { s.fab with mstate := 1, joinVia := some (via, s.tbc), joinId := fld inp 8 8 } →
      Gives (.constellationJoinJoin via inp) s fun t => (t.iface via).bg = some { opcode := 0xC042 } ∧ (t.iface via).ret = .backgroundStarted ∧
        t.pool = s.pool ∧ (s.joinNeighbour (fld inp 8 8) = none → t.fab = f) ∧
        ∀ p, s.joinNeighbour (fld inp 8 8) = some p → t.fab = { f with ports := t.fab.ports } ∧
          Out.mgmt 0x22 p [s.fw.running.level] (slice s.cfg.serial 0 16 ++
            (s.setFab f).attestReport (joinNonce (fld inp 8 8) (s.peer p).nepoch)) ∈ t.out) ∧
    (fld inp 0 1 = 2 → s.fab.mstate = 2 → s.fab.isMaster = false → (∀ x ∈ s.fab.lw, x.2.valid = false) → (∀ x ∈ s.fab.pw, x.2.valid = false) →
      s.bgBusy via 0xC042 [] = false →
      Gives (.constellationJoinLeave via inp) s fun t => t.fab = { s.fab with mstate := 3, joinVia := some (via, s.tbc), ports := t.fab.ports } ∧
        Out.mgmt 0x22 s.fab.master [s.fw.running.level] (slice s.cfg.serial 0 16) ∈ t.out ∧
        (t.iface via).bg = some { opcode := 0xC042 } ∧ (t.iface via).ret = .backgroundStarted ∧ t.pool = s.pool)) ∧
  (∀ via inp c s, Accepted rowJoin via inp.length s → 2 < fld inp 0 1 →
    c = Instr.constellationJoinAdmit via inp ∨ c = Instr.constellationJoinJoin via inp ∨ c = Instr.constellationJoinLeave via inp →
    Gives c s fun t => Answers via 0xC042 .invalidInput [] s t) ∧
  (∀ via inp l s, Accepted rowConstStatus via inp.length s → l = (s.fab.members.filter fun m => fld inp 0 1 ≤ m.module).take ((ifaceLimit via - 32) / 24) →
    Gives (.constellationStatus via inp) s fun t => Answers via 0xC043 .success (flds [(8, s.fab.constId), (4, s.fab.epoch), (1, s.fab.me),
      (1, s.fab.master), (1, b2n s.fab.isMaster + 2 * b2n s.fab.masterLost), (1, s.fab.lastJoin), (2, s.fab.members.length), (1, l.length), (13, 0)] ++
      l.flatMap fun m => flds [(1, m.module), (1, m.state), (2, m.level), (4, m.epoch)] ++ slice m.serial 0 16) s t) ∧
  (∀ via inp s, Accepted rowMasterSet via 0 s → s.fab.poll = none → s.fab.commit = none → s.bgBusy via 0xC044 [] = false → inp = ([] : Bytes) →
    (s.fab.mstate = 0 → Gives (.constellationMasterSet via inp) s fun t => t.fab.mstate = 2 ∧ t.fab.isMaster = true ∧ t.fab.me = 0 ∧
      t.fab.members.map (·.module) = [0] ∧ t.fab.epoch = 1 ∧ t.fab.constId < 2 ^ 64 ∧ t.pool = s.pool) ∧
    (∀ x y, s.fab.mstate = 2 → s.fab.members = [x, y] → x.module = s.fab.me → y.module ≠ s.fab.me →
      Gives (.constellationMasterSet via inp) s fun t => t.fab.poll = some ([y.module], []) ∧ t.fab.members = s.fab.members ∧
        Out.mgmt 0x26 y.module [] [] ∈ t.out ∧ t.pool = s.pool))

/-! ## Host ports, functions, trays -/

/-- R383-R390, R392, R396-R398, R402, R410, R412: a link trains at the generation, rate and width that both ends have, is DOWN without a
reference, and where it waits for its retrain its freeze lifts; a link that goes down or is reset keeps no Back-Invalidate and no MSI-X
state but pending bits; resets and configuration writes of the functions change their registers alone; a vector that is let go sends
its pending message. -/
def Obligations.LinksTrainFallAndReset : Prop :=
  (∀ l o p w s, linkFitted s.cfg l = true → s.rst.recovery = false → 5 ≤ s.rst.phase → s.up (hostPortSlice s.cfg (l / 2)) = true → s.port l = p →
    p.perst = false → p.failed = false → p.link = 1 →
    (o.refclk = false → exec (.linkUp l o) s = .next ((s.portRef l false).modPort l fun p => { p with link := 3, noRefclk := true })) ∧
    (o.refclk = true → linkWidth s.cfg l o.lanes = w → w ≠ 0 → o.speed ≠ 0 →
      (p.releasing = none → Gives (.linkUp l o) s fun t =>
        (t.port l).link = 2 ∧ (t.port l).cxlGen = min o.gen 3 ∧ (t.port l).width = w ∧
        (t.port l).speed = min o.speed (if min o.gen 3 = 1 ∨ min o.gen 3 = 2 then 5 else 6) ∧
        (t.port l).viralEnable = (o.viral && min o.gen 3 != 0) ∧ (s.rst.memoryActive = true → (t.port l).memActive = true) ∧
        (t.port l).frozen = p.frozen ∧ (∀ k, k ≠ l → t.port k = s.port k) ∧ bit t.clk.hpRef (l / 2) = true ∧ t = { s with ports := t.ports, fns := t.fns, out := t.out, clk := { s.clk with hpRef := t.clk.hpRef } }) ∧
      (∀ v, p.releasing = some v → Gives (.linkUp l o) s fun t => (t.port l).link = 2 ∧ (t.port l).frozen = false ∧ (t.port l).poisonCount = 0 ∧
        (t.port l).releasing = none ∧ (t.iface v).ret = .success ∧ t.pool = s.pool))) ∧
  (∀ l p s, linkFitted s.cfg l = true → s.port l = p → p.link = 2 → EngineIdle s →
    Gives (.linkDown l) s fun t =>
      t.port l = { p with link := 3, speed := 0, width := 0, linkDowns := p.linkDowns + 1, biEnabled := false, viralEnable := false,
                          hdm := [], storm := 0x3E8, stormNow := 0x3E8, aerUncor := 0, aerAdvisory := false, memActive := false, static := none } ∧
      (t.fn (.pf0 l)).msixEnable = false ∧ (t.fn (.pf0 l)).d3hot = false ∧
      (t.fn (.pf0 l)).vecs = ((s.fn (.pf0 l)).vecs.filter fun e => e.2.pending).map (fun e => (e.1, { pending := true })) ∧
      (l % 2 = 0 → (t.fn (.pf1 (l / 2))).vfEnable = false ∧ (t.fn (.pf1 (l / 2))).numVfs = 0) ∧
      (∀ k, k ≠ l → t.port k = s.port k) ∧ t.pool = s.pool) ∧
  (∀ p l s, p < hostPorts s.cfg → l = 2 * p → EngineIdle s →
    (Gives (.perst p) s fun t => (t.port l).perst = true ∧ (t.port l).link = 0 ∧ (t.port l).biEnabled = false ∧
      (t.port l).linkDowns = (if (s.port l).link = 2 then (s.port l).linkDowns + 1 else (s.port l).linkDowns) ∧
      (t.fn (.pf0 l)).vecs = [] ∧ (t.fn (.pf1 p)).vecs = [] ∧ (t.fn (.pf1 p)).vfEnable = false ∧ t.pool = s.pool) ∧
    (linkFitted s.cfg (l + 1) = false → (s.port l).perst = true → (s.port l).failed = false → 5 ≤ s.rst.phase →
      s.up (hostPortSlice s.cfg p) = true →
      exec (.perstDeassert p) s = .next (s.modPort l fun q => { q with perst := false, link := 1 })) ∧
    (s.cfgOpen l = true → s.rst.recovery = false →
      (Gives (.flrPf1 p) s fun t => (t.fn (.pf1 p)).vecs = [] ∧ (t.fn (.pf1 p)).msixEnable = false ∧ (t.fn (.pf1 p)).numVfs = 0 ∧
        (t.fn (.pf1 p)).vfEnable = false ∧ (t.fn (.pf1 p)).sticky = 0 ∧ t.iface (.pf1 p) = { bg := (s.iface (.pf1 p)).bg } ∧
        t.pool = s.pool ∧ t.ports = s.ports) ∧
      (∀ n e, exec (.vfEnable p n e) s = .next (s.modFn (.pf1 p) fun f => { f with numVfs := n % 65536, vfEnable := e })) ∧
      (∀ tn k, tenantPort s.cfg tn = some (p, k) → s.vfEnabled tn = true → tn < 1024 →
        Gives (.flrVf tn) s fun t => (t.fn (.vf tn)).vecs = [] ∧ (t.fn (.vf tn)).msixEnable = false ∧ (t.fn (.vf tn)).fmask = false ∧
          (t.fn (.vf tn)).sticky = 0 ∧ t.pool = s.pool ∧ t.ports = s.ports))) ∧
  (∀ l s, s.cfgOpen l = true →
    exec (.flrPf0 l) s = .next (((s.modIface (.pf0 l) fun i => { bg := i.bg }).modFn (.pf0 l) fun f =>
      { f with vecs := [], msixEnable := false, fmask := false, d3hot := false, policy := [false, false, false, false] }).modPort l fun p =>
        { p with aerUncor := 0, aerAdvisory := false }) ∧
    (∀ e, (s.port l).cxlGen = 3 → exec (.biEnableWrite l e) s =
      .next (if e = false ∧ s.biLocked l = true then s else s.modPort l fun p => { p with biEnabled := e })) ∧
    exec (.powerStateWrite (.pf0 l) true) s = .next (s.modFn (.pf0 l) fun g => { g with d3hot := true }) ∧
    exec (.powerStateWrite (.pf0 l) false) s = .next ((s.modFn (.pf0 l) fun g => { g with d3hot := false }).releaseFn (.pf0 l)) ∧
    (∀ v, (tabGet ({} : Vec) (s.fn (.pf0 l)).vecs v).pending = true → (s.fn (.pf0 l)).d3hot = false →
      (∀ w, w ≠ v → (tabGet ({} : Vec) (s.fn (.pf0 l)).vecs w).pending = true → (tabGet ({} : Vec) (s.fn (.pf0 l)).vecs w).masked = true) →
      Gives (.msixRelease (.pf0 l) v) s fun t => t.out = .msix (.pf0 l) v :: s.out ∧
        tabGet {} (t.fn (.pf0 l)).vecs v = { tabGet {} (s.fn (.pf0 l)).vecs v with pending := false, masked := false } ∧
        t = { s with out := t.out, fns := t.fns }) ∧
    exec (.unexpectedCompletion l) s = .next (s.modPort l fun p => { p with aerAdvisory := true }) ∧
    (∀ ph, 2 ≤ (s.port l).cxlGen → ph = 1 ∨ ph = 2 → exec (.globalPersistentFlush l ph) s = .next (s.emit (.gpf l ph))))

/-- R274, R404-R408, R414, R415, R417: a detected cause freezes a link with a record and the others' vectors; the poison count restarts
at a millisecond; PORT_RELEASE lifts the freeze at once or with the retrain; a tray's completion answers the reads that wait, a read
of it that times out poisons its page and keeps its tag out of use, and the trays behind an error are LOST. -/
def Obligations.FrozenLinksAndTraysEnd : Prop :=
  (∀ l p s, linkFitted s.cfg l = true → s.port l = p → p.link = 2 → p.frozen = false → p.cxlGen ≠ 0 →
    exec (.portFreeze l 4) s = .next (((s.modPort l fun p =>
        { p with frozen := true, freezeCause := 4, freezes := p.freezes + 1, frozenDiscarded := 0 }).record 2 0x0013
      ((s.modPort l fun p => { p with frozen := true, freezeCause := 4, freezes := p.freezes + 1, frozenDiscarded := 0 }).frozenRecord l 4 0)
      ).signalOthers l) ∧
    (∀ cause, cause = 1 ∨ cause = 2 → Gives (.portFreeze l cause) s fun t => (t.port l).frozen = true ∧ (t.port l).freezeCause = cause ∧
      (t.port l).freezes = p.freezes + 1 ∧ (t.port l).link = 2 ∧ t.pool = s.pool ∧ t.dir = s.dir)) ∧
  (∀ l p s, linkFitted s.cfg l = true → s.port l = p → s.tbc / ms ≤ p.countMs →
    Gives (.poisonCountRestart l) s fun t => t.tbc = max s.tbc ((p.countMs + 1) * ms) ∧
      t = { s with tbc := t.tbc, ports := tabSet s.ports l { p with countMs := t.tbc / ms, poisonCount := 0, stormNow := p.storm } }) ∧
  (∀ via inp l s, Accepted rowPortRelease via inp.length s → 2 * (fld inp 0 1 % 4) + b2n (bit (fld inp 0 1) 2) = l → via ≠ .pf0 l →
    linkFitted s.cfg l = true → (s.port l).frozen = true → (s.port l).releasing = none →
    (bit (fld inp 1 1) 0 = false → Gives (.portRelease via inp) s fun t => t = (s.respond via 0xC048 .success []).unfreeze l ∧
      (t.port l).frozen = false ∧ (t.port l).poisonCount = 0 ∧ (t.iface via).ret = .success) ∧
    (bit (fld inp 1 1) 0 = true → exec (.portReleaseLinkReset via inp) s = .next (s.modPort l fun p =>
      { p with releasing := some via, link := if p.link = 2 then 1 else p.link }))) ∧
  (∀ tag t0 n h b d rr s, s.trayTag (tag % 4096) = t0 → t0.item = some (.page n) → t0.out = false → t0.inc = tag / 4096 % 16 →
    s.homeOf (.page n) = some h → h.blk = some b →
    decodeBlock (s.cn (s.itemSlice (.page n))).slots b = .ok d → s.pool.waiting = [rr] → rr.dpa / 4096 = n → s.lineBusy (rr.dpa / 64) = false →
    s.linePoison (rr.dpa / 64) = false → s.linkOpen rr.link = true →
    Settles (.trayCompletion tag false) s fun t =>
      t = { s with fab := { s.fab with tags := tabSet s.fab.tags (tag % 4096) { t0 with item := none } },
                   pool := { s.pool with waiting := [] }, out := t.out } ∧
      ∃ dl, t.out = .readData rr.link rr.pbr rr.dpa (s.lineData (rr.dpa / 64)) false rr.grant dl :: s.out) ∧
  (∀ e t0 n h s, s.trayTag e = t0 → t0.item = some (.page n) → t0.out = false → s.homeOf (.page n) = some h → h.tier = 4 → s.pool.waiting = [] →
    Settles (.trayReadTimeout e) s fun t => t.tbc = max s.tbc (t0.issued + t0.limitUs * us) ∧ t.fab.tpTimeouts = s.fab.tpTimeouts + 1 ∧
      t.trayTag e = { t0 with item := none, out := true, timedOut := true, lateSeen := false } ∧ (t.page n).poison = BitVec.allOnes 64) ∧
  (∀ e t0 s, s.trayTag e = t0 → t0.out = true → t0.lateSeen = false → bit t0.mask ((t0.inc + 1) % 16) = false →
    exec (.tagReuse e) s = .next ((s.until (t0.issued + 2 * t0.limitUs * us)).setTag e
      { t0 with out := false, inc := (t0.inc + 1) % 16, mask := setBit t0.mask t0.inc true, timedOut := false, lateSeen := false,
                past := (t0.inc, t0.issued, t0.tray) :: t0.past.filter fun p => p.1 != t0.inc })) ∧
  (∀ mask s, s.fab.tags = [] → Settles (.tp0LinkError mask) s fun t => t = s.setFab { s.fab with trays := t.fab.trays } ∧
    ∀ k x, tabFind s.fab.trays k = some x → tabFind t.fab.trays k = some { x with lost := x.lost || (bit mask k && x.present) }) ∧
  (∀ l k d s, s.pf0Open (.pf0 l) = true → bit s.cfg.fmLinks l = true → (tabGet ({} : Tray) s.fab.trays k).present = true →
    exec (.trayDrain (.pf0 l) k d) s = .next ((s.touch (.pf0 l)).setFab
      { s.fab with trays := tabMod ({} : Tray) s.fab.trays k fun t => { t with drain := d } }))

/-! ## Command interfaces -/

/-- R420-R426, R430-R432: the identity, health, firmware, log and timestamp commands answer what the module holds and change nothing
but the clock they set; background status and abort are of the interface's own operation; an opcode that no interface takes, and a
payload of a wrong length, are refused with no effect; the profile and a slice's status have their lengths and fields. The payloads that the CXL
standard lays out are uninterpreted, the model's choice (log 12). -/
def Obligations.StandardCommandsAnswer : Prop :=
  (∀ via s, Accepted { op := 1, thru := 7, rom := true } via 0 s →
    exec (.identify via) s = .next (s.respond via 1 .success (Config.cxlPayload "Identify" (Config.vendorId :: strNats s.cfg.serial)))) ∧
  (∀ via s, Accepted { op := 2, thru := 7 } via 0 s →
    (∀ o r, (s.iface via).bg = none → (s.iface via).lastBg = some (o, r) → exec (.backgroundOperationStatus via) s = .next (s.respond via 2 .success
      (Config.cxlPayload "Background Operation Status" [0, o, 100, retCode r]))) ∧
    (∀ b, (s.iface via).bg = some b → Gives (.backgroundOperationStatus via) s fun t => ∃ pct ≤ 100,
      t = (s.draw.2).respond via 2 .success (Config.cxlPayload "Background Operation Status" [1, b.opcode, pct, 0]))) ∧
  (∀ via s, Accepted { op := 5, thru := 7 } via 0 s →
    ((s.iface via).bg = none → exec (.requestAbortBackgroundOperation via) s = .next (s.respond via 5 .success [])) ∧
    (∀ b, (s.iface via).bg = some b → b.opcode ≠ 0xC050 → b.opcode ≠ 0xC010 → (b.opcode = 0xC058 → s.forwarding = false) →
      exec (.requestAbortBackgroundOperation via) s = .next (s.respond via 5 .unsupported [])) ∧
    (∀ b r n, (s.iface via).bg = some b → b.opcode = 0xC050 → s.bst.runs = [r] → r.members = [n] → r.via = via →
      ((r.of n).cur < 15 → Gives (.requestAbortBackgroundOperation via) s fun t =>
        t.bst = { s.bst with runs := [{ r with state := 3 }] } ∧ (t.iface via).bg = some b ∧ (t.iface via).ret = .success) ∧
      ((r.of n).cur = 15 → r.sliceDone n = false → Gives (.requestAbortBackgroundOperation via) s fun t =>
        t.bst = { s.bst with runs := [r.stopped] } ∧ (t.iface via).bg = none ∧ (t.iface via).ret = .aborted)) ∧
    (∀ b c o, (s.iface via).bg = some b → b.opcode = 0xC058 → s.fw.chain = some c → c.next.isSome = true → s.fw.write = none → s.fw.offer = some o →
      o.via = some via → Gives (.requestAbortBackgroundOperation via) s fun t => t.fw.offer = none ∧ t.fw.chain = some { c with next := none } ∧
        t.fw.state = s.fw.base ∧ (t.iface via).bg = none ∧ (t.iface via).ret = .aborted) ∧
    (∀ b, (s.iface via).bg = some b → b.opcode = 0xC010 →
      (s.draw.1 % 2 = 1 → exec (.requestAbortBackgroundOperation via) s = .next ((s.draw.2).respond via 5 .unsupported [])) ∧
      (s.draw.1 % 2 = 0 → exec (.requestAbortBackgroundOperation via) s =
        .next (((s.draw.2).respond via 5 .success []).abandonLoad (b.args.headD 0) .aborted)))) ∧
  (∀ via s, Accepted { op := 0x4000, thru := 5 } via 0 s → Gives (.identifyMemoryDevice via) s fun t => ∃ cap,
    t = s.respond via 0x4000 .success (Config.cxlPayload "Identify Memory Device" [cap, cap, 0, 0, 256, 64]) ∧
    ((s.port (viaLink via)).cxlGen = 3 → cap = 0)) ∧
  (∀ via s, Accepted { op := 0x4200, thru := 5 } via 0 s → exec (.getHealthInfo via) s = .next (s.respond via 0x4200 .success
    (Config.cxlPayload "Get Health Info" [(s.upSlices.map fun n => (s.ck n).junction).foldl max 0, 0]))) ∧
  (∀ via s, Accepted { op := 0x0200, thru := 5 } via 0 s → exec (.getFwInfo via) s = .next (s.respond via 0x0200 .success
    (Config.cxlPayload "Get FW Info" ([2, s.fw.journal.active, b2n s.fw.main.ok, b2n s.fw.fallback.ok] ++
      strNats (slice s.fw.main.version 0 16) ++ strNats (slice s.fw.fallback.version 0 16))))) ∧
  (∀ via s, Accepted { op := 0x0400, thru := 7 } via 0 s →
    exec (.getSupportedLogs via) s = .next (s.respond via 0x0400 .success (Config.cxlPayload "Get Supported Logs" [1, (s.opsOf via).length]))) ∧
  (∀ via s, Accepted { op := 0x0401, thru := 7 } via 0 s →
    exec (.getLog via) s = .next (s.respond via 0x0401 .success (Config.cxlPayload "Get Log" (s.opsOf via)))) ∧
  (∀ via s, Accepted { op := 0x0300, thru := 5 } via 0 s →
    exec (.getTimestamp via) s = .next (s.respond via 0x0300 .success (le 8 s.clockTime))) ∧
  (∀ via ns s, Accepted { op := 0x0301, thru := 5 } via 0 s → Gives (.setTimestamp via ns) s fun t =>
    t = (s.setMbx { s.mbx with timestamp := some (ns % 2 ^ 64, s.tbc), stampSet := true }).respond via 0x0301 .success [] ∧
    t.clockTime = ns % 2 ^ 64 ∧ { t with tbc := t.tbc + 5 }.clockTime = ns % 2 ^ 64 + 5) ∧
  (∀ via op s, s.ifaceUp via = true → s.mbxPaused = false → s.rst.recovery = false → (acceptedOps.any fun r => r.1 == op) = false →
    exec (.unsupportedCommand via op) s = .next (s.respond via op .unsupported [])) ∧
  (∀ via inp s, s.ifaceUp via = true → s.mbxPaused = false → s.rst.recovery = false →
    (inp = [] → Gives (.getDeviceProfile via inp) s fun t => ∃ out, t = s.respond via 0xC000 .success out ∧ out.length = 128 ∧
      slice out 24 16 = slice s.cfg.serial 0 16 ∧ fld out 42 1 = s.cfg.slices % 256 ∧ fld out 43 1 = s.upMask % 256) ∧
    (inp ≠ [] → (∃ p, via = .pf1 p) → exec (.getDeviceProfile via inp) s = .next (s.respond via 0xC000 .invalidPayloadLength []))) ∧
  (∀ via inp n s, Accepted rowSliceStatus via inp.length s → fld inp 0 1 = n →
    (n < s.cfg.slices → (s.sl n).state = 4 → Gives (.getSliceStatus via inp) s fun t => ∃ out, t = (s.draw.2).respond via 0xC001 .success out ∧
      out.length = 32 ∧ fld out 0 1 = n ∧ fld out 1 1 = 2 ∧ fld out 2 1 = 0 ∧ fld out 16 4 = 0 ∧ fld out 20 4 = 0) ∧
    (s.cfg.slices ≤ n → exec (.getSliceStatus via inp) s = .next (s.respond via 0xC001 .invalidInput [])))

/-- R354, R389, R391, R401, R428-R430: event records are read oldest first, cleared from the oldest in their order or all at once; the
interrupt policy is of the link; poison is listed, injected and cleared by a full line; the Dynamic Capacity lists name the regions of
a CXL 3.1 link and the extents that a host of the link has accepted. The payloads that
the CXL standard lays out are uninterpreted, the model's choice (log 12). -/
def Obligations.EventAndPoisonCommandsTakeEffect : Prop :=
  (∀ via log g s, Accepted { op := 0x0100, thru := 5 } via 0 s → log < 4 → tabGet ({} : Log) s.mbx.logs log = g →
    Gives (.getEventRecords via log) s fun t => ∃ l, l <+: g.recs ∧ (g.recs.length ≤ 63 → l = g.recs) ∧
      t = s.respond via 0x0100 .success (Config.cxlPayload "Get Event Records"
        ([log, b2n (l.length < g.recs.length), g.overflow, g.firstOverflow, g.lastOverflow, l.length] ++ l.flatMap recFacts))) ∧
  (∀ via log hs g s, Accepted { op := 0x0101, thru := 5 } via 0 s → log < 4 → tabGet ({} : Log) s.mbx.logs log = g →
    exec (.clearEventRecords via log true hs) s =
      .next ((s.setMbx { s.mbx with logs := tabSet s.mbx.logs log { recs := [], next := g.next } }).respond via 0x0101 .success []) ∧
    (hs ≠ [] → (g.recs.take hs.length).map (·.handle) = hs → exec (.clearEventRecords via log false hs) s =
      .next ((s.setMbx { s.mbx with logs := tabSet s.mbx.logs log { recs := g.recs.drop hs.length, next := g.next } }).respond via 0x0101 .success [])) ∧
    ((g.recs.take hs.length).map (·.handle) ≠ hs → exec (.clearEventRecords via log false hs) s =
      .next (s.respond via 0x0101 .invalidHandle []))) ∧
  (∀ l s, Accepted { op := 0x0102, thru := 1 } (.pf0 l) 0 s →
    exec (.getEventInterruptPolicy (.pf0 l)) s = .next (s.respond (.pf0 l) 0x0102 .success (Config.cxlPayload "Get Event Interrupt Policy"
      ((s.fn (.pf0 l)).policy.zipIdx.flatMap fun p => [b2n p.1, p.2 + 1]))) ∧
    (∀ a b c d, exec (.setEventInterruptPolicy (.pf0 l) [a, b, c, d]) s = .next ((s.modFn (.pf0 l) fun f =>
      { f with policy := [a % 4 == 1, b % 4 == 1, c % 4 == 1, d % 4 == 1] }).respond (.pf0 l) 0x0103 .success []))) ∧
  (∀ via start len s, Accepted { op := 0x4300, thru := 5 } via 0 s →
    Gives (.getPoisonList via start len) s fun t => ∃ l : List Nat, (∀ n, n ∈ l ↔ n ∈ s.poisonLines ∧ start ≤ n * 64 ∧ n * 64 < start + len) ∧
      t = s.respond via 0x4300 .success (Config.cxlPayload "Get Poison List" ([b2n (256 < l.length), min l.length 256] ++ (l.take 256).map (· * 64)))) ∧
  (∀ l dpa h e s, Accepted { op := 0x4301, thru := 1 } (.pf0 l) 0 s → s.linkHost l dpa = some (h, e) → dpa % 64 = 0 → s.up (s.sliceOf dpa) = true →
    (s.mbx.injected.filter s.linePoison).length < 64 → s.linePoison (dpa / 64) = false → s.MemOk →
    Gives (.injectPoison (.pf0 l) dpa) s fun t => t.linePoison (dpa / 64) = true ∧ (∀ n, n ≠ dpa / 64 → t.linePoison n = s.linePoison n) ∧
      (t.iface (.pf0 l)).ret = .success ∧ t.mbx.injected = s.mbx.injected.filter s.linePoison ++ [dpa / 64] ∧
      (∀ a, a < dpa ∨ dpa + 64 ≤ a → memRead t.pool.mem a = memRead s.pool.mem a)) ∧
  (∀ l dpa data h e hm s, Accepted { op := 0x4302, thru := 1 } (.pf0 l) 0 s → s.linkHost l dpa = some (h, e) → dpa % 64 = 0 → data.length = 64 →
    s.up (s.sliceOf dpa) = true → e.policy.sharing = 0 → s.MemOk → (s.pool.held.any fun w => w.line == dpa / 64) = false →
    s.moveOf (.page (dpa / 4096)) = none → s.homeOf (.page (dpa / 4096)) = some hm → hm.tier = 1 →
    s.homeFrozen (s.sliceOf dpa) hm (64 * (dpa / 64 % 64)) 64 = none → s.stripeWaits (s.sliceOf dpa) hm (64 * (dpa / 64 % 64)) = false →
    Gives (.clearPoison (.pf0 l) dpa data) s fun t => t.linePoison (dpa / 64) = false ∧ (t.iface (.pf0 l)).ret = .success ∧
      (∀ k, k < 64 → memRead t.pool.mem (dpa + k) = data.getD k 0) ∧
      (∀ a, a < dpa ∨ dpa + 64 ≤ a → memRead t.pool.mem a = memRead s.pool.mem a)) ∧
  (∀ l start s, Accepted { op := 0x4800, thru := 1 } (.pf0 l) 0 s → (s.port l).cxlGen = 3 →
    exec (.getDynamicCapacityConfiguration (.pf0 l) start) s = .next (s.respond (.pf0 l) 0x4800 .success
      (Config.cxlPayload "Get Dynamic Capacity Configuration"
        ([8, start, 256] ++ ((List.range 8).map fun k => s.cfg.dcRegionMib.getD (8 * l + k) 0).drop start)))) ∧
  (∀ l host start s, Accepted { op := 0x4801, thru := 1 } (.pf0 l) 0 s →
    (s.hostLink host = l → Gives (.getDynamicCapacityExtentList (.pf0 l) host start) s fun t => ∃ ext,
      ext <+: (s.pool.extents.filter fun e => e.2.accepted.contains host).drop start ∧
      t = s.respond (.pf0 l) 0x4801 .success (Config.cxlPayload "Get Dynamic Capacity Extent List" ([ext.length,
        (s.pool.extents.filter fun e => e.2.accepted.contains host).length, start] ++ ext.flatMap fun e => [e.1, e.2.len, e.2.tag]))) ∧
    (s.hostLink host ≠ l → exec (.getDynamicCapacityExtentList (.pf0 l) host start) s = .next (s.respond (.pf0 l) 0x4801 .invalidInput [])))

/-! ## Firmware -/

/-- R423, R447, R448, R480, R484, R485: BEGIN, SEGMENT and OFFER build an image, which is verified; an object that fails ends the offer
with its result, one that passes is written. The copy to the fall-back slot comes before the record ACTIVE fall-back, WRITING and the
main slot; each step waits for the guard and the pre-write check; a failed check is retried each second and ends the write after 60 s;
a read-back that fails ends it, one that matches leaves STAGED; ABORT ends it. FW_STATUS reports the slots. -/
def Obligations.FirmwareOffersAreWritten : Prop :=
  (∀ via inp n s, Accepted rowChainOffer via inp.length s → s.rst.recovery = false → fld inp 0 1 = 0 → (fld inp 1 1 = 0 ∨ fld inp 1 1 = 1 ∧ s.fab.isMaster = true) → fld inp 4 4 = n →
    (s.fw.offer = none → s.receiving = false → s.fw.handover = none → s.fw.base ∈ [0, 5, 8] → 0 < n → n ≤ 50331648 →
      exec (.fwChainOfferBegin via inp) s =
        .next (((s.setFw { s.fw with part := some (n, []) }).fwTo 1 0 s.fw.offered).respond via 0xC058 .success [])) ∧
    (s.fw.offer.isSome → exec (.fwChainOfferBegin via inp) s = .next (s.respond via 0xC058 .busy []))) ∧
  (∀ via inp total b off n s, Accepted rowChainOffer via inp.length s → s.rst.recovery = false → fld inp 0 1 = 1 → (fld inp 1 1 = 0 ∨ fld inp 1 1 = 1 ∧ s.fab.isMaster = true) →
    s.fw.part = some (total, b) → fld inp 8 4 = off → fld inp 12 4 = n → 16 + n ≤ inp.length →
    (off = b.length → off % 4096 = 0 → b.length + n ≤ total → exec (.fwChainOfferSegment via inp) s =
      .next ((s.setFw { s.fw with part := some (total, b ++ slice inp 16 n) }).respond via 0xC058 .success [])) ∧
    (off ≠ b.length → exec (.fwChainOfferSegment via inp) s = .next (s.respond via 0xC058 .invalidInput []))) ∧
  (∀ via inp b s, Accepted rowChainOffer via inp.length s → s.rst.recovery = false → fld inp 0 1 = 2 → fld inp 1 1 = 0 →
    s.fw.part = some (b.length, b) → s.fw.offer = none → s.receiving = false → s.fw.handover = none → s.bgBusy via 0xC058 [] = false →
    (s.fw.base ∈ [0, 5, 8] → Gives (.fwChainOfferOffer via inp) s fun t => t.fw.state = 2 ∧ t.fw.part = none ∧
      t.fw.offer = some { kind := fld b 6 1, bytes := b, img := imageOf b, scope := 0, via := some via } ∧
      (t.iface via).ret = .backgroundStarted ∧ (t.iface via).bg.map (·.opcode) = some 0xC058 ∧ OnlyFw s t) ∧
    (s.fw.base = 7 → exec (.fwChainOfferOffer via inp) s = .next (s.respond via 0xC058 .busy []))) ∧
  (∀ via inp i s, Accepted rowChainOffer via inp.length s → 1 < fld inp 1 1 ∨ s.rst.recovery = false ∧ (3 < fld inp 0 1 ∨ fld inp 1 1 = 1 ∧ s.fab.isMaster = false) →
    i ∈ [Instr.fwChainOfferBegin via inp, .fwChainOfferSegment via inp, .fwChainOfferOffer via inp, .fwChainOfferAbort via inp] →
    exec i s = .next (s.respond via 0xC058 .invalidInput [])) ∧
  (∀ o v s, s.fw.offer = some o → o.via = some v → (s.iface v).bg.map (·.opcode) = some 0xC058 → o.scope = 0 → o.kind ≠ 2 →
    s.rst.recovery = false → s.fw.state = 2 → s.forwarding = false → Gives .offerVerified s fun t => OnlyFw s t ∧
    (∀ r, (s.verifyOffer o).1 = r → r ≠ 0 → t.fw.offer = none ∧ t.fw.write = none ∧ t.fw.state = s.fw.base ∧ t.fw.lastResult = r ∧
      (t.iface v).bg = none ∧ (t.iface v).ret = resultRet r) ∧
    ((s.verifyOffer o).1 = 0 → t.fw.state = 4 ∧ t.fw.offer = some o ∧ t.fw.journal = s.fw.journal ∧
      (s.fw.journal.fbDigest ≠ s.fw.running.digest → t.fw.write = some { phase := 0, total := writeSteps s.fw.running.bytes }) ∧
      (s.fw.journal.fbDigest = s.fw.running.digest → t.fw.write = some { phase := 1, total := writeSteps o.bytes.length }))) ∧
  (∀ w s, s.fw.write = some w → w.paused = none → w.step < w.total →
    (s.pwr.guard = false → s.pwr.testing = false → s.prewriteFailed = 0 → Gives .flashWriteStep s fun t =>
      t = { s with fw := t.fw } ∧ t.fw.write = some { w with step := w.step + 1 } ∧
      (w.phase = 0 → t.fw = { s.fw with write := t.fw.write, fallback := { s.fw.fallback with ok := false } }) ∧
      (w.phase = 1 → w.step = 0 → w.recorded = false → t.fw = { s.fw with
        write := t.fw.write, main := { s.fw.main with ok := false },
        journal := { s.fw.journal with active := 1, mainState := 1, fbDigest := s.fw.running.digest, seq := s.fw.journal.seq + 1 } }) ∧
      (w.phase = 1 → 0 < w.step → t.fw = { s.fw with write := t.fw.write })) ∧
    (s.pwr.guard = true → Gives .flashWriteStep s fun t => t.fw = s.fw ∧ t = { s with pwr := t.pwr } ∧ 3 ∈ t.pwr.deferred) ∧
    (s.pwr.guard = false → s.pwr.testing = false → s.prewriteFailed ≠ 0 →
      Gives .flashWriteStep s fun t => t.fw.write = some { w with paused := some s.tbc, retryAt := s.tbc })) ∧
  (∀ w t0 o s, s.fw.write = some w → w.paused = some t0 → s.fw.offer = some o → w.phase = 1 → s.pwr.guard = false → s.pwr.testing = false →
    s.forwarding = false →
    ((s.until (w.retryAt + 1000 * ms)).prewriteFailed = 0 → exec .flashWriteRetry s =
      .next ((s.until (w.retryAt + 1000 * ms)).setFw { s.fw with write := some { w with paused := none } })) ∧
    ((s.until (w.retryAt + 1000 * ms)).prewriteFailed ≠ 0 → Gives .flashWriteRetry s fun t =>
      t.tbc = max s.tbc (w.retryAt + 1000 * ms) ∧
      (t.tbc < t0 + 60000 * ms → t.fw.write = some { w with retryAt := t.tbc }) ∧
      (t0 + 60000 * ms ≤ t.tbc → t.fw.write = none ∧ t.fw.offer = none ∧ t.fw.lastResult = 9 ∧ t.fw.journal = s.fw.journal))) ∧
  (∀ w o off s, s.fw.write = some w → s.fw.offer = some o → w.paused = none → w.total ≤ w.step → s.forwarding = false →
    (w.phase = 1 → Gives (.imageWriteDone false off) s fun t => t.fw.write = none ∧ t.fw.offer = none ∧ t.fw.lastResult = 10 ∧
      t.fw.journal = s.fw.journal ∧ t.fw.state = (if s.fw.base = 5 then 0 else s.fw.base) ∧ OnlyFw s t) ∧
    (s.pwr.guard = false → s.pwr.testing = false → s.prewriteFailed = 0 →
      (w.phase = 0 → Gives (.imageWriteDone true off) s fun t => t = { s with fw := t.fw } ∧
        t.fw = { s.fw with fallback := { s.fw.running with ok := true },
                           write := some { phase := 1, total := writeSteps o.bytes.length, recorded := true },
                           journal := { s.fw.journal with active := 1, mainState := 1, fbDigest := s.fw.running.digest, seq := s.fw.journal.seq + 1 } }) ∧
      (w.phase = 1 → s.fw.state = 4 → Gives (.imageWriteDone true off) s fun t => t.fw.state = 5 ∧ t.fw.base = 5 ∧ t.fw.main = o.img ∧
        t.fw.write = none ∧ t.fw.offer = none ∧ OnlyFw s t ∧
        t.fw.journal = { s.fw.journal with mainState := 2, mainDigest := o.img.digest, seq := s.fw.journal.seq + 1 }))) ∧
  (∀ via inp s, Accepted rowChainOffer via inp.length s → s.rst.recovery = false → fld inp 0 1 = 3 → (fld inp 1 1 = 0 ∨ fld inp 1 1 = 1 ∧ s.fab.isMaster = true) →
    (s.fw.write = none → exec (.fwChainOfferAbort via inp) s = .next (s.respond via 0xC058 .invalidInput [])) ∧
    (∀ w o, s.fw.write = some w → w.phase ≤ 1 → s.fw.offer = some o → s.forwarding = false → Gives (.fwChainOfferAbort via inp) s fun t =>
      t.fw.write = none ∧ t.fw.offer = none ∧ t.fw.lastResult = 16 ∧ t.fw.journal = s.fw.journal ∧ Out.response via 0xC058 .success [] ∈ t.out)) ∧
  (∀ via inp s, Accepted rowFwStatus via inp.length s → Gives (.fwStatus via inp) s fun t => ∃ out, t = s.respond via 0xC05B .success out ∧
    fld out 0 1 = s.fw.state % 256 ∧ fld out 1 1 = b2n s.fw.main.ok ∧ fld out 2 1 = b2n s.fw.fallback.ok ∧
    fld out 3 1 = b2n s.rst.recovery ∧ slice out 8 16 = slice s.fw.main.version 0 16 ∧ slice out 24 16 = slice s.fw.fallback.version 0 16 ∧
    slice out 40 16 = slice s.fw.offered 0 16 ∧ out.length = 68 ∧ (s.fw.part = none → fld out 64 4 = 0) ∧
    ∀ n < 8, s.cfg.slices ≤ n → fld out (56 + n) 1 = 0)

/-- R251, R481-R483: a module whose state takes offers answers ANNOUNCE with READY; a SEGMENT that continues is kept and a gap asked for
again; DONE checks the transit CRC. A holder sends the image in SEGMENTs of at most 1,024 B and DONE, from the offset that a RESEND
names, sends it again on a mismatch, at most twice, and skips a module that refuses, fails a third time or is silent, so that the next of
ORDER is served. The master keeps what each RESULT says. The fields of chain messages
that R481 leaves open are the model's choice (log 12). -/
def Obligations.FirmwareChainsHopModules : Prop :=
  (∀ (m : Nat) (s : State), m ∈ s.chainOrder ↔ m < 256 ∧ m ≠ s.fab.me ∧ ∃ x ∈ s.fab.members, x.module = m ∧ x.state = 1) ∧
  (∀ src num bytes crc ver kind order s, s.fab.mstate = 2 → s.rst.recovery = false → ver.length = 16 →
    (s.fw.state ∈ [0, 5, 8] → s.fw.part = none → s.receiving = false → s.forwarding = false → bytes ≤ 50331648 → s.fw.handover = none →
      Gives (.announce src num bytes crc ver kind order) s fun t => t.fw.state = 1 ∧
        t.fw.chain = some { num := num, bytes := bytes, crc := crc, version := ver, kind := kind, order := order, source := some src, lastAt := s.tbc } ∧
        t.out.head? = some (.mgmt 0x30 src [num % 4096, 1, 0] [0]) ∧ OnlyFw s t) ∧
    (s.fw.state ∉ [0, 5, 8] → Gives (.announce src num bytes crc ver kind order) s fun t => ∃ r : Byte, r ≠ 0 ∧
      t = s.chainMsg src num 1 0 [r])) ∧
  (∀ src c off data s, s.fw.chain = some c → c.source = some src →
    (off = c.recv.length → exec (.segment src off data) s =
      .next (s.setFw { s.fw with chain := some { c with recv := (c.recv ++ data).take c.bytes, lastAt := s.tbc } })) ∧
    (c.recv.length < off → exec (.segment src off data) s = .next (s.chainMsg src c.num 3 c.recv.length [])) ∧
    (c.recv.length = c.bytes → crc32c c.recv = c.crc → s.fw.handover = none → s.fw.state = 1 → Gives (.done src) s fun t =>
      t.fw.state = 2 ∧ t.fw.offer = some { kind := c.kind, bytes := c.recv, img := imageOf c.recv, scope := 1, via := none } ∧
      t.fw.chain = some { c with source := none, recv := [] } ∧ t.out.head? = some (.mgmt 0x30 src [c.num % 4096, 5, 0] [0]) ∧ OnlyFw s t) ∧
    (c.recv.length = c.bytes → crc32c c.recv ≠ c.crc → c.tries < 2 → exec (.done src) s =
      .next ((s.chainMsg src c.num 5 0 [1]).setFw { s.fw with chain := some { c with recv := [], tries := c.tries + 1 } }))) ∧
  (∀ src c o s, s.fw.chain = some c → c.next = some src → s.fw.offer = some o →
    (c.ready = false → Gives (.ready src 0) s fun t => t = { s with out := t.out, fw := t.fw, fab := { s.fab with ports := t.fab.ports } } ∧
      t.fw = { s.fw with chain := some { c with ready := true, lastAt := s.tbc } } ∧
      ∃ l : List Out, mgmts t.out = .mgmt 0x30 src [c.num % 4096, 4, 0] [] :: (l.reverse ++ mgmts s.out) ∧ l.flatMap contentOf = o.bytes ∧
        ∀ x ∈ l, ∃ off d, x = .mgmt 0x30 src [c.num % 4096, 2, off] d ∧ d.length ≤ 1024) ∧
    (∀ off, off ≤ o.bytes.length → Gives (.resend src off) s fun t => t = { s with out := t.out, fw := t.fw, fab := { s.fab with ports := t.fab.ports } } ∧
      t.fw = { s.fw with chain := some { c with lastAt := s.tbc } } ∧
      ∃ l : List Out, mgmts t.out = .mgmt 0x30 src [c.num % 4096, 4, 0] [] :: (l.reverse ++ mgmts s.out) ∧ l.flatMap contentOf = o.bytes.drop off ∧
        ∀ x ∈ l, ∃ off d, x = .mgmt 0x30 src [c.num % 4096, 2, off] d ∧ d.length ≤ 1024) ∧
    (c.ready = true → c.tries < 2 → Gives (.received src true) s fun t => t = { s with out := t.out, fw := t.fw, fab := { s.fab with ports := t.fab.ports } } ∧
      t.fw = { s.fw with chain := some { c with tries := c.tries + 1, lastAt := s.tbc } } ∧
      ∃ l : List Out, mgmts t.out = .mgmt 0x30 src [c.num % 4096, 4, 0] [] :: (l.reverse ++ mgmts s.out) ∧ l.flatMap contentOf = o.bytes) ∧
    (c.ready = true → s.fw.ownResult = none → s.fw.write.isSome → s.fw.handover = none → Gives (.received src false) s fun t =>
      t.fw.chain = some { c with next := none } ∧ t.fw.state = 4 ∧ t.fw.offer = some o ∧ OnlyFw s t)) ∧
  (∀ src n c rest s, s.fw.chain = some c → c.next = some src → s.fab.isMaster = true → s.fw.handover = none →
    (c.order.dropWhile (· != src)).drop 1 = n :: rest →
    (Gives .chainHopTimeout s fun t => t.tbc = max s.tbc (c.lastAt + (if c.ready then 2000 else 500) * ms) ∧ t.fw.lastResult = 17 ∧
      t.fw.chain = some { c with next := some n, ready := false, tries := 0, lastAt := t.tbc } ∧ ∃ data, t.out.head? = some (.mgmt 0x30 n [c.num % 4096, 0, 0] data)) ∧
    (∀ r, r ≠ 0 → c.ready = false → Gives (.ready src r) s fun t => t.fw.lastResult = 17 ∧
      t.fw.chain = some { c with next := some n, ready := false, tries := 0, lastAt := s.tbc }) ∧
    (c.ready = true → 2 ≤ c.tries → Gives (.received src true) s fun t => t.fw.lastResult = 17 ∧
      t.fw.chain = some { c with next := some n, ready := false, tries := 0, lastAt := s.tbc })) ∧
  (∀ module r st c s, s.fw.chain = some c → s.fab.isMaster = true → Gives (.result module r st) s fun t =>
    t.fw.lastResult = r ∧ t.fw.state = s.fw.state ∧
    t.fw.chain = some { c with staged := if r = 0 ∧ module ∉ c.staged then c.staged ++ [module] else c.staged })

/-- R423, R448, R486-R491, R493, R494: FW_ACTIVATE in STAGED alone begins a handover, and its gaps end it; a constellation's modules are
activated one at a time in ORDER. A unit pauses, switches at the barrier of a PM8 and resumes with the new level; a refused import, 90 ms, or
40 ms without the barrier, switch it back, and slices switched before it hand back. After the last unit the image is PENDING with its
deadline; FW_CONFIRM makes it CONFIRMED and IDLE, and at the deadline it is EXPIRED. The results of a refused ACTIVATE and the message
fields are the model's choices (logs 12, 41). -/
def Obligations.HandoverSwitchesUnits : Prop :=
  (∀ via inp s, Accepted rowActivate via inp.length s → s.rst.recovery = false → fld inp 0 1 = 0 →
    (s.fw.state ≠ 5 → exec (.fwActivate via inp) s = .next (s.respond via 0xC059 .invalidInput [])) ∧
    (s.fw.state = 5 → (∀ n ∈ s.upSlices, s.restarting n = false) → s.bgBusy via 0xC059 [] = false → s.fw.handover = none →
      ((∀ n ∈ s.upSlices, s.fw.main.level ≤ s.fw.levels.getD n 0 + 1 ∧ s.fw.levels.getD n 0 ≤ s.fw.main.level + 1) → s.fw.main.minFmt ≤ s.fw.runFmt →
        Gives (.fwActivate via inp) s fun t => t.fw.state = 6 ∧ t.fw.handover = some { via := some via, unit := s.upSlices.foldl max 0 } ∧
          (t.iface via).ret = .backgroundStarted ∧ (t.iface via).bg.map (·.opcode) = some 0xC059 ∧ OnlyFw s t) ∧
      ((∃ n ∈ s.upSlices, s.fw.levels.getD n 0 + 1 < s.fw.main.level) → Gives (.fwActivate via inp) s fun t =>
        t.fw.state = 5 ∧ t.fw.lastResult = 7 ∧ t.fw.handover = none ∧ (t.iface via).ret = .invalidInput))) ∧
  (∀ via inp c m rest s, Accepted rowActivate via inp.length s → s.rst.recovery = false → fld inp 0 1 = 1 → s.fw.chain = some c →
    s.fab.isMaster = true → c.next = none → s.bgBusy via 0xC059 [] = false → c.level = s.fw.running.level → c.order.filter c.staged.contains = m :: rest →
    Gives (.fwActivateConstellation via inp) s fun t => t.fw.actAll = some { via := via, left := rest, waiting := some (m, s.tbc) } ∧
      (t.iface via).ret = .backgroundStarted ∧ t.out.head? = some (.mgmt 0x30 m [c.num % 4096, 7, 0] []) ∧ OnlyFw s t) ∧
  (∀ src s, s.fab.mstate = 2 → src = s.fab.master → s.fab.isMaster = false →
    (s.fw.state = 5 → s.fw.handover = none → (∀ n ∈ s.upSlices, s.restarting n = false) → s.activateGap = 0 → Gives (.activate src) s fun t =>
      t.fw.state = 6 ∧ t.fw.handover = some { via := none, unit := s.upSlices.foldl max 0, scope := 1 } ∧ OnlyFw s t) ∧
    (s.fw.state ≠ 5 → exec (.activate src) s = .next (s.reportMsg 8 17))) ∧
  (∀ a m t0 st s, s.fw.actAll = some a → a.waiting = some (m, t0) → (s.iface a.via).bg.map (·.opcode) = some 0xC059 →
    (∀ n rest c, a.left = n :: rest → s.fw.chain = some c → Gives (.activated m 0 st) s fun t =>
      t.fw.actAll = some { via := a.via, left := rest, waiting := some (n, s.tbc) } ∧ mgmts t.out = .mgmt 0x30 n [c.num % 4096, 7, 0] [] :: mgmts s.out) ∧
    (∀ r, r ≠ 0 → Gives (.activated m r st) s fun t => t.fw.actAll = none ∧ (t.iface a.via).bg = none ∧ (t.iface a.via).ret = resultRet r) ∧
    Gives .activateTimeout s fun t => t.tbc = max s.tbc (t0 + 10000 * ms) ∧ t.fw.actAll = none ∧ (t.iface a.via).bg = none ∧
      (t.iface a.via).ret = .invalidInput) ∧
  (∀ h s, s.fw.handover = some h →
    (h.phase = 0 → h.back = false → h.unit ∉ h.doneUnits → s.foreground = false → (∀ n ∈ s.upSlices, s.restarting n = false) → exec .handoverPause s =
      .next (s.setFw { s.fw with handover := some { h with phase := if s.cfg.slices = 8 then 1 else 3, pauseAt := s.tbc } })) ∧
    (h.phase = 1 → exec .handoverBarrier s = .next (s.setFw { s.fw with handover := some { h with phase := 3 } })) ∧
    (h.phase = 3 → h.back = false → Gives (.handoverImportDone true) s fun t =>
      t.fw.handover = some { h with phase := 0, resumeAt := s.tbc, doneUnits := h.unit :: h.doneUnits } ∧
      t.pending = s.mbx.held ++ s.pending ∧ t.mbx.held = [] ∧ t.fw.buffered = [] ∧
      (s.fw.levels.length = 8 → ∀ n < 8, t.fw.levels.getD n 0 =
        if s.cfg.slices = 8 ∨ n = h.unit then s.fw.main.level else s.fw.levels.getD n 0)) ∧
    (h.phase = 3 → h.back = false → h.doneUnits = [] → Gives (.handoverImportDone false) s fun t => t.fw.handover = none ∧ t.fw.state = 5 ∧
      t.fw.lastResult = 12 ∧ t.fw.levels = s.fw.levels ∧ t.pending = s.mbx.held ++ s.pending) ∧
    (0 < h.phase → h.back = false → Gives .handoverTimeout s fun t => t.tbc = max s.tbc (h.pauseAt + 90 * ms) ∧ t.pending = s.mbx.held ++ s.pending ∧
      (h.doneUnits = [] → t.fw.handover = none ∧ t.fw.state = 5 ∧ t.fw.lastResult = 11) ∧
      (h.doneUnits ≠ [] → ∃ g, t.fw.handover = some g ∧ g.phase = 0 ∧ g.back = true ∧ g.why = 11 ∧ g.doneUnits = h.doneUnits)) ∧
    (h.phase = 1 → h.back = false → h.doneUnits = [] → Gives .barrierAbort s fun t => t.tbc = max s.tbc (h.pauseAt + 40 * ms) ∧
      t.fw.handover = none ∧ t.fw.state = 5 ∧ t.fw.lastResult = 13 ∧ t.fw.levels = s.fw.levels) ∧
    (∀ n rest, h.phase = 0 → h.back = false → s.cfg.slices ≠ 8 → h.unit ∈ h.doneUnits →
      ((s.upSlices.filter fun n => !h.doneUnits.contains n).reverse) = n :: rest → exec .handoverNextUnit s =
        .next ((s.until (h.resumeAt + 50 * ms)).setFw { s.fw with handover := some { h with unit := n } })) ∧
    (∀ v, h.via = some v → (s.iface v).bg.map (·.opcode) = some 0xC059 → h.phase = 0 → h.back = false → s.fw.state = 6 →
      (if s.cfg.slices = 8 then h.unit ∈ h.doneUnits else ∀ n ∈ s.upSlices, n ∈ h.doneUnits) →
      s.pwr.guard = false → s.pwr.testing = false → s.prewriteFailed = 0 → Gives .handoverComplete s fun t =>
        t.fw.state = 7 ∧ t.fw.running = s.fw.main ∧ t.fw.runFmt = s.fw.main.setFmt ∧ t.fw.handover = none ∧
        t.fw.deadline = some (s.tbc + s.fw.confirmMin * 60000 * ms) ∧ t.fw.journal.active = 0 ∧ t.fw.journal.mainState = 3 ∧
        t.fw.journal.boots = 0 ∧ (t.iface v).bg = none ∧ (t.iface v).ret = .success ∧ OnlyFw s t)) ∧
  (∀ via inp s, Accepted rowConfirm via inp.length s →
    (∀ d, s.fw.state = 7 → s.fw.deadline = some d → s.tbc < d → Gives (.fwConfirm via inp) s fun t => t.fw.state = 0 ∧ t.fw.deadline = none ∧
      t.fw.journal = { s.fw.journal with mainState := 4, boots := 0, fmtA := s.fw.runFmt, fmtB := s.fw.runFmt, seq := s.fw.journal.seq + 1 } ∧
      (t.iface via).ret = .success) ∧
    (s.fw.state = 8 → s.fw.journal.mainState = 6 → Gives (.fwConfirm via inp) s fun t => t.fw.state = 0 ∧
      t.fw.journal = { s.fw.journal with mainState := 0, seq := s.fw.journal.seq + 1 } ∧ (t.iface via).ret = .success) ∧
    (∀ d, s.fw.state = 7 → s.fw.deadline = some d → d ≤ s.tbc → exec (.fwConfirm via inp) s = .next (s.respond via 0xC05A .invalidInput [])) ∧
    (s.fw.state = 7 → s.fw.deadline = none → exec (.fwConfirm via inp) s = .next (s.respond via 0xC05A .invalidInput [])) ∧
    (s.fw.state ≠ 7 → s.fw.state ≠ 8 → exec (.fwConfirm via inp) s = .next (s.respond via 0xC05A .invalidInput []))) ∧
  (∀ d s, s.fw.deadline = some d → s.fw.base = 7 → s.fw.handover = none → s.pwr.guard = false → s.pwr.testing = false →
    (s.until d).prewriteFailed = 0 → Gives .confirmExpired s fun t => t.tbc = max s.tbc d ∧ t.fw.state = s.fw.state ∧ t.fw.deadline = none ∧
      t.fw.lastResult = 14 ∧ t.fw.running = s.fw.running ∧ t.fw.journal = { s.fw.journal with mainState := 5, seq := s.fw.journal.seq + 1 })

/-! ## Trust and presence -/

/-- R449, R471, R472, R500, R502, and R453, R454, R460: a report carries the nonce and the facts of R500, has 17,664 + 17,168 × CERTS bytes, and is
read in parts by its nonce; a rotation counts up to 15; SPDM answers its supported requests and ERROR to others; DEBUG_UNLOCK needs the
recorded seal break; SANITIZE_ALL is refused while anything is held, and leaves memory zero. The codes of
SPDM messages and the signatures are uninterpreted or presumed, the model's choice (logs 11, 12). -/
def Obligations.IdentityIsReportedAndRotated : Prop :=
  (∀ via inp s, Accepted rowAttest via inp.length s →
    (s.fw.identityLost = true → exec (.attestDual via inp) s = .next (s.respond via 0xC061 .internalError [])) ∧
    (s.fw.identityLost = false → fld inp 32 4 = 0 → s.fw.rotations ≤ 15 → s.fw.journal.active < 256 → s.fw.state < 256 → s.fw.running.svn < 65536 →
      s.fw.svnFloor < 65536 → s.unwrapSlice < 256 → Gives (.attestDual via inp) s fun t => ∃ r : Bytes,
      t = (s.modIface via fun i => { i with report := some (slice inp 0 32, r) }).respond via 0xC061 .success
        (flds [(4, r.length), (4, 0)] ++ r.take (ifaceLimit via - 8)) ∧
      r.length = 17664 + 17168 * (2 + s.fw.rotations) ∧ fld r 0 4 = 0x52505254 ∧ fld r 6 1 = 4 ∧ slice r 8 32 = slice inp 0 32 ∧
      slice r 64 16 = slice s.cfg.serial 0 16 ∧ slice r 320 16 = slice s.fw.running.version 0 16 ∧ fld r 336 1 = s.fw.journal.active ∧
      fld r 337 1 = s.fw.state ∧ fld r 338 2 = s.fw.running.svn ∧ fld r 340 2 = s.fw.svnFloor ∧ fld r 353 1 = s.fw.rotations ∧
      fld r 354 1 = s.unwrapSlice ∧ fld r 355 1 = 2 + s.fw.rotations ∧ bit (fld r 352 1) 0 = s.fw.sealRec.isSome ∧
      bit (fld r 352 1) 3 = s.presOpen) ∧
    (∀ n r off, s.fw.identityLost = false → fld inp 32 4 = off → off ≠ 0 → (s.iface via).report = some (n, r) →
      (n = slice inp 0 32 → exec (.attestDual via inp) s =
        .next (s.respond via 0xC061 .success (flds [(4, r.length), (4, off)] ++ (r.drop off).take (ifaceLimit via - 8)))) ∧
      (n ≠ slice inp 0 32 → exec (.attestDual via inp) s = .next (s.respond via 0xC061 .invalidInput [])))) ∧
  (∀ via inp s, Accepted rowRotate via inp.length s → s.bgBusy via 0xC062 [] = false →
    (s.fw.rotations < 15 → s.fw.identityLost = false → Gives (.identityRotate via inp) s fun t =>
      t.fw = { s.fw with rotations := s.fw.rotations + 1, keyGen := s.fw.keyGen + 1 } ∧ (t.iface via).bg = none ∧ (t.iface via).ret = .success ∧
      Out.response via 0xC062 .backgroundStarted [] ∈ t.out ∧ t.mbx.authorised = s.mbx.authorised + 1 ∧
      t.mbx.history.head? = some { event := 5, source := s.presSources, opcode := 0xC062, tbc := s.tbc } ∧ OnlyFw s t) ∧
    (15 ≤ s.fw.rotations → exec (.identityRotate via inp) s = .next (s.respond via 0xC062 .invalidInput []))) ∧
  (∀ l s, s.cfgOpen l = true → s.linkOpen l = true → s.rst.recovery = false →
    (∀ r, r ∈ [SpdmReq.getVersion, .getCapabilities, .negotiateAlgorithms, .getDigests] → Gives (.spdmRequest l r) s fun t => ∃ code p, code ≠ 0x7F ∧
      t = s.emit (.spdm l code p)) ∧
    (∀ off, off ≤ (Config.certChain s.fw.rotations).length → exec (.spdmRequest l (.getCertificate 0 off)) s =
      .next (s.emit (.spdm l 0x02 ((Config.certChain s.fw.rotations).drop off)))) ∧
    exec (.spdmRequest l (.getMeasurements 0)) s = .next (s.emit (.spdm l 0x60 [5])) ∧
    exec (.spdmRequest l (.getMeasurements 1)) s = .next (s.emit (.spdm l 0x60 (slice s.fw.loaderDigest 0 48))) ∧
    exec (.spdmRequest l (.getMeasurements 2)) s = .next (s.emit (.spdm l 0x60 (slice s.fw.running.digest 0 48))) ∧
    exec (.spdmRequest l (.getMeasurements 5)) s = .next (s.emit (.spdm l 0x60 s.reportFacts)) ∧
    (∀ n, s.fw.identityLost = false → Gives (.spdmRequest l (.challenge n)) s fun t => ∃ p, t = s.emit (.spdm l 0x03 p)) ∧
    (∀ c, exec (.spdmRequest l (.other c)) s = .next (s.emit (.spdm l 0x7F [])))) ∧
  (∀ via inp s, Accepted rowDebugUnlock via inp.length s →
    (∀ x, s.fw.sealRec = some x → Gives (.debugUnlock via inp) s fun t => t.mbx.debugOpen = s.mbx.debugOpen ||| (fld inp 0 1 % 4) ∧
      t.fw.debugRec.isSome ∧ (s.fw.debugRec = none → t.fw.debugRec = some s.stamp) ∧ (s.fw.debugRec ≠ none → t.fw = s.fw) ∧
      (t.iface via).ret = .success ∧ OnlyFw s t) ∧
    (s.fw.sealRec = none → exec (.debugUnlock via inp) s =
      .next (s.respond via 0xC064 (if s.mbx.sealOpen then .busy else .sealIntact) []))) ∧
  (∀ via inp s, Accepted rowSanitize via inp.length s → fld inp 0 1 = 1 → s.bistFull = false → s.bgBusy via 0xC063 [] = false →
    (s.pool.extents = [] → s.eng.models = [] → s.eng.loads = [] → (∀ w ∈ s.fab.lw, w.2.valid = false) → (∀ w ∈ s.fab.pw, w.2.valid = false) →
      Gives (.sanitizeAll via inp) s fun t => (t.iface via).ret = .backgroundStarted ∧ (t.iface via).bg.map (·.opcode) = some 0xC063 ∧ OnlyFw s t) ∧
    (s.pool.extents ≠ [] → exec (.sanitizeAll via inp) s = .next (s.respond via 0xC063 .invalidInput []))) ∧
  (∀ v fails s, s.bgOf 0xC063 = some v → (s.iface v).bg.map (·.opcode) = some 0xC063 → Gives (.sanitizeAllDone fails) s fun t =>
    (∀ a, memRead t.pool.mem a = 0) ∧ t.pool.pages = [] ∧ t.pool.loupe = [] ∧ t.dir.ents = [] ∧ t.eng.t0 = [] ∧ (t.iface v).bg = none ∧
    (t.iface v).ret = .success ∧ fld (t.iface v).payload 8 4 = fails % 2 ^ 32 ∧ t.fw = s.fw ∧ t.ecc = s.ecc) ∧
  (∀ eid s, s.cfg.mctp ≠ 0 → s.rst.mbxReady = true → exec (.mctpSetEndpointId eid) s = .next (s.setMbx { s.mbx with eid := eid % 256 }))

/-- R455-R459: a hold of 2 s opens the button window for 120 s from then, once for each press, and a further one extends it; an open seal
loop opens the window at once and its break is recorded, or tried again each second; the window closes with its last source. A presence
command is refused while it is closed. PRESENCE_STATUS gives the register and the history. -/
def Obligations.PresenceOpensAndCloses : Prop :=
  (∀ s, (s.pwr.state ≠ 0 → s.mbx.buttonDown = none → exec .buttonPressed s =
      .next (s.setMbx { s.mbx with buttonDown := some s.tbc, holdDone := false })) ∧
    exec .buttonReleased s = .next (s.setMbx { s.mbx with buttonDown := none, holdDone := false })) ∧
  (∀ t0 s, s.mbx.buttonDown = some t0 →
    (s.mbx.holdDone = false → Gives .presenceButton s fun t => t.tbc = max s.tbc (t0 + 2000 * ms) ∧
      t.mbx = { s.mbx with holdDone := true, windowEnd := some (t.tbc + 120000 * ms), history := t.mbx.history } ∧ t.presOpen = true ∧
      t.mbx.history = ({ event := if (s.until (t0 + 2000 * ms)).presOpen then 1 else 0, source := 1, opcode := 0, tbc := t.tbc } :: s.mbx.history).take 16 ∧
      t = { s with tbc := t.tbc, mbx := t.mbx }) ∧
    (s.mbx.holdDone = true → exec .presenceButton s = .next s)) ∧
  (∀ t0 s, s.mbx.windowEnd = some t0 → Gives .buttonWindowExpiry s fun t => t.tbc = max s.tbc t0 ∧ t.mbx.windowEnd = none ∧
    t.buttonOpen = false ∧ (s.mbx.jumper = false → s.mbx.sealOpen = false → s.fw.sealRec = none → t.presOpen = false ∧
      t.mbx.history.head? = some { event := 2, source := 1, opcode := 0, tbc := t.tbc })) ∧
  (∀ s, s.pwr.state ≠ 0 → s.mbx.sealOpen = false → s.fw.sealRec = none → s.rst.mbxReady = true → s.pwr.testing = false →
    (s.pwr.guard = false → s.prewriteFailed = 0 → Gives .sealOpen s fun t => t.mbx.sealOpen = true ∧ t.presOpen = true ∧
      t.fw = { s.fw with sealRec := some s.stamp, sealRetry := none } ∧ t.mbx.history.head? = some { event := 4, source := 4, opcode := 0, tbc := s.tbc } ∧
      { event := 3, source := 4, opcode := 0, tbc := s.tbc } ∈ t.mbx.history ∧ OnlyFw s t) ∧
    (s.pwr.guard = false → s.prewriteFailed ≠ 0 → Gives .sealOpen s fun t => t.mbx.sealOpen = true ∧ t.presOpen = true ∧ t.fw.sealRec = none ∧
      t.fw.sealRetry = some s.tbc)) ∧
  (∀ t0 s, s.fw.sealRetry = some t0 → s.fw.sealRec = none → s.rst.mbxReady = true → s.pwr.testing = false → s.pwr.guard = false →
    (s.until (t0 + 1000 * ms)).prewriteFailed = 0 → Gives .sealRecordRetry s fun t => t.tbc = max s.tbc (t0 + 1000 * ms) ∧
      t.fw = { s.fw with sealRec := some (s.until (t0 + 1000 * ms)).stamp, sealRetry := none } ∧ t.presOpen = true) ∧
  (∀ s, (s.mbx.sealOpen = true → Gives .sealLoopClosed s fun t => t.mbx.sealOpen = false ∧ t.fw = s.fw ∧
      (t.presOpen = false → t.mbx.history.head? = some { event := 2, source := 4, opcode := 0, tbc := s.tbc }) ∧
      (s.fw.sealRec.isSome → t.presOpen = true)) ∧
    (s.mbx.jumper = true → Gives .serviceJumperRemoved s fun t => t.mbx.jumper = false ∧ t.mbx.jumperSample = s.mbx.jumperSample ∧
      (t.presOpen = false → t.mbx.history.head? = some { event := 2, source := 2, opcode := 0, tbc := s.tbc }))) ∧
  (∀ via s, s.ifaceUp via = true → s.mbxPaused = false → s.rst.recovery = false → s.accepts 5 via = true → s.pwr.guard = false → s.presOpen = false →
    exec (.identityRotate via []) s = .next (s.respond via 0xC062 .presenceRequired [])) ∧
  (∀ via inp s, Accepted rowPresenceStatus via inp.length s → s.mbx.history.length ≤ 16 → (∀ e ∈ s.mbx.history, e.event < 256 ∧ e.source < 256) →
    Gives (.presenceStatus via inp) s fun t => ∃ out, t = s.respond via 0xC060 .success out ∧ out.length = 32 + 16 * s.mbx.history.length ∧
      bit (fld out 0 4) 0 = s.presOpen ∧ bit (fld out 0 4) 1 = s.buttonOpen ∧ bit (fld out 0 4) 2 = s.mbx.jumper ∧
      bit (fld out 0 4) 3 = s.mbx.sealOpen ∧ bit (fld out 0 4) 4 = s.fw.sealRec.isSome ∧ bit (fld out 0 4) 6 = s.mbx.buttonDown.isSome ∧
      fld out 2 2 = s.mbx.authorised.toNat ∧ fld out 16 1 = s.mbx.history.length ∧
      ∀ k e, s.mbx.history[k]? = some e → fld out (32 + 16 * k) 1 = e.event ∧ fld out (32 + 16 * k + 1) 1 = e.source)

/-! ## Self-test -/

/-- R446, R574, R575, R577, R578, R580: BIST_RUN is refused while a selected suite may not have a slice, else each slice of its mask begins
its lowest suite; a suite that passes sets its bit, and T0 content is discarded; a failing cluster, T0 bank, port or spare is marked and leaves
service, with the first failure recorded; a suite that takes too long fails with TIMEOUT; the run completes with its last suite.
BIST_RESULT reports a run that is kept. -/
def Obligations.SelfTestsRunAndReport : Prop :=
  (∀ via inp suites mask s, Accepted rowBistRun via inp.length s → fld inp 0 2 = suites → fld inp 2 1 = mask → 0 < suites → suites < 256 → mask ≠ 0 →
    (∀ n, n < 8 → bit mask n = true → s.up n = true) →
    ((∀ n, n < 8 → bit mask n = true → s.bistBlocked suites n = false) → s.bgBusy via 0xC050 [] = false → (∀ x ∈ s.bst.runs, x.num ≠ s.bst.nextRun) →
      Gives (.bistRun via inp) s fun t => (t.iface via).ret = .backgroundStarted ∧ (t.iface via).bg.map (·.opcode) = some 0xC050 ∧
        t.bst.nextRun = (s.bst.nextRun + 1) % 65536 ∧ ∃ r ∈ t.bst.runs, r.num = s.bst.nextRun ∧ r.suites = suites ∧ r.mask = mask ∧ r.via = via ∧
          r.stopOnFail = bit (fld inp 3 1) 0 ∧ ∀ n k, n < 8 → bit mask n = true → k < 8 → bit suites k = true → (∀ j, j < k → bit suites j = false) →
            (k = 6 → bit suites 7 = false) → (r.of n).cur = k ∧ (r.of n).passed = 0 ∧ (r.of n).failed = 0 ∧ (r.of n).first = 0) ∧
    (∀ n, n < 8 → bit mask n = true → bit suites 0 = true → s.hosted n ≠ [] → exec (.bistRun via inp) s = .next (s.respond via 0xC050 .busy [])) ∧
    (∀ n, n < 8 → bit mask n = true → bit suites 7 = true → s.pool.extents ≠ [] → exec (.bistRun via inp) s = .next (s.respond via 0xC050 .busy []))) ∧
  (∀ n r k s, n < 8 → s.bistRun = some r → (∀ x ∈ s.bst.runs, x.num = r.num → x = r) → (r.of n).cur = k → k < 8 → (r.of n).fatal = 0 →
    (Settles (.bistSuiteDone n []) s fun t => ∃ y ∈ t.bst.runs, y.num = r.num ∧ bit (y.of n).passed k = true ∧ bit (y.of n).ended k = true ∧
      (y.of n).failed = (r.of n).failed ∧ (y.of n).first = (r.of n).first ∧ t.bst.slices = s.bst.slices ∧ t.drc = s.drc ∧
      (k = 1 → ∀ c ∈ t.eng.t0, c.slice ≠ n) ∧ (k ≠ 1 → k ≠ 4 → t.eng.t0 = s.eng.t0) ∧
      (k = 4 → (t.sl n).reroutes = (s.sl n).reroutes + (if s.cfg.slices = 8 then 4 else 2))) ∧
    (r.mask = 2 ^ n → r.suites = 2 ^ k → r.state = 1 → (s.iface r.via).bg.map (·.opcode) = some 0xC050 → Settles (.bistSuiteDone n []) s fun t =>
      (∃ y ∈ t.bst.runs, y.num = r.num ∧ y.state = 2) ∧ (t.iface r.via).bg = none ∧ (t.iface r.via).ret = .success ∧
      (t.iface r.via).payload = le 2 r.num) ∧
    (∀ u d j, r.stopOnFail = false → r.state = 1 → u < 8 → d < 65536 → j < 8 → j ≠ k → bit r.todo j = true → bit (r.of n).ended j = false →
      (r.of n).first = 0 → bit r.mask n = true →
      (k = 0 → Settles (.bistSuiteDone n [{ cause := 1, unit := u, detail := d }]) s fun t => bit (t.sl n).clusters u = false ∧
        (∃ y ∈ t.bst.runs, y.num = r.num ∧ bit (y.of n).failed 0 = true ∧ (y.of n).first = 0x10 + 256 * u + 65536 * d) ∧
        bit (tabGet (0, 0, 0, false) t.bst.slices n).1 u = true) ∧
      (k = 1 → Settles (.bistSuiteDone n [{ cause := 2, unit := u, detail := d }]) s fun t => bit (t.sl n).banks u = false ∧
        (∃ y ∈ t.bst.runs, y.num = r.num ∧ bit (y.of n).failed 1 = true ∧ (y.of n).first = 0x21 + 256 * u + 65536 * d) ∧
        bit (tabGet (0, 0, 0, false) t.bst.slices n).2.1 u = true) ∧
      (k = 5 → u < 4 → Settles (.bistSuiteDone n [{ cause := 3, unit := u, detail := d }]) s fun t => (t.port (2 * u)).link = 0 ∧ (t.port (2 * u)).failed = true ∧
        ∃ y ∈ t.bst.runs, y.num = r.num ∧ bit (y.of n).failed 5 = true) ∧
      (k = 6 → s.chanState (bistCtl n u) = 5 → Settles (.bistSuiteDone n [{ cause := 2, unit := u, detail := d }]) s fun t =>
        t.chanState (bistCtl n u) = 4 ∧ ∃ y ∈ t.bst.runs, y.num = r.num ∧ bit (y.of n).failed 6 = true) ∧
      (k = 0 → Settles (.bistSuiteDone n [{ cause := 5, unit := u, detail := d }]) s fun t => t.bst.noExpect = true ∧ t.bst.slices = s.bst.slices ∧
        ∃ y ∈ t.bst.runs, y.num = r.num ∧ bit (y.of n).ended 0 = true ∧ (y.of n).failed = (r.of n).failed ∧ (y.of n).passed = (r.of n).passed) ∧
      (k = 0 → Settles (.bistSuiteTimeout n u) s fun t => t.tbc = max s.tbc ((r.of n).began + 5000 * ms) ∧ bit (t.sl n).clusters u = false ∧
        ∃ y ∈ t.bst.runs, y.num = r.num ∧ bit (y.of n).failed 0 = true ∧ (y.of n).first = 0x60 + 256 * u))) ∧
  (∀ via inp s, Accepted rowBistResult via inp.length s →
    (∀ r, s.bst.runs.find? (fun x => x.num == fld inp 0 2) = some r → Gives (.bistResult via inp) s fun t => ∃ out, t = s.respond via 0xC051 .success out ∧
      out.length = 72 ∧ fld out 0 1 = r.state % 256 ∧ fld out 2 2 = r.suites % 65536 ∧ ∀ n, n < 8 → fld out (8 + 8 * n) 2 = (r.of n).passed % 65536 ∧
        fld out (10 + 8 * n) 2 = (r.of n).failed % 65536 ∧ fld out (12 + 8 * n) 4 = (r.of n).first % 2 ^ 32) ∧
    ((∀ r ∈ s.bst.runs, r.num ≠ fld inp 0 2) → exec (.bistResult via inp) s = .next (s.respond via 0xC051 .invalidInput [])))

/-! ## Resets -/

/-- R454, R479, R498, R504-R509, R512, R515, R516, R520-R522, R526, R530: a module reset leaves no content, keeps flash and starts every slice that does not
fail, or enters recovery mode; the watchdog resets the module at the package master, else its slice. A slice reset fences its engine side,
its cut ends the steps and closes the sequences it hosts, and it returns with the units that pass; a third reset within 10 s, or 1 s without a
return, loses it. A tenant reset waits for a cut and then returns the tenant's registers. -/
def Obligations.ResetsReachTheirDomains : Prop :=
  (∀ b c s, bestConf s.fw.configs = some c → b.loaderOk = true → s.fw.journal.active = 0 → s.fw.journal.mainState = 4 → s.fw.main.ok = true →
    c.floor ≤ s.fw.main.svn → s.fw.main.digest = s.fw.journal.mainDigest → (∃ n, n < s.cfg.slices ∧ bit b.failedSlices n = false) →
    (∀ x ∈ b.train, (x.2.map (trainLane x.1.tier)).all lanePass = true) →
    (∀ cause, cause = 0 ∨ (cause = 1 ∧ s.pwr.state = 1) →
      Gives (.moduleReset cause b) s fun t => t.tbc = 0 ∧ t.pool.mem = [] ∧ t.pool.extents = [] ∧ t.pool.pages = [] ∧ t.pool.quotas = [] ∧ t.qos.hosts = [] ∧
        t.eng = {} ∧ t.dir = {} ∧ t.fab.members = [] ∧ t.fab.lw = [] ∧ t.fab.pw = [] ∧ t.rst.cause = cause ∧ t.rst.phase = 9 ∧ t.rst.configReady = true ∧
        t.rst.mbxReady = true ∧ t.rst.mediaReady = true ∧ t.rst.memoryActive = true ∧ t.rst.engineReady = true ∧ t.rst.recovery = false ∧
        t.rst.inService = (List.range s.cfg.slices).filter (fun n => !bit b.failedSlices n) ∧
        t.rst.packageMaster = t.rst.inService.headD 0 ∧ t.fw.state = 0 ∧ t.fw.running = s.fw.main ∧ t.fw.journal = s.fw.journal ∧
        t.fw.fallback = s.fw.fallback ∧ t.fw.configs = s.fw.configs ∧ t.fw.rotations = s.fw.rotations ∧ t.fw.sealRec = s.fw.sealRec ∧
        t.fw.svnFloor = c.floor ∧ t.cfg = { c.cfg with slices := s.cfg.slices, half := s.cfg.half } ∧ t.pending = s.pending ∧
        (∀ n, n < s.cfg.slices → (t.sl n).state = if bit b.failedSlices n then 4 else 1) ∧
        (∀ k l, b.train = [(k, l)] → t.ctlFitted k = true → (t.chan k).lanes = l.map (trainLane k.tier)) ∧
        t.rst.moduleResets = (if cause = 0 then 0 else s.rst.moduleResets + 1))) ∧
  (∀ b s, b.loaderOk = false → Gives (.moduleReset 0 b) s fun t => t.rst.recovery = true ∧ t.rst.phase = 4 ∧ t.rst.memoryActive = false ∧
    t.rst.mbxReady = false ∧ t.fw.state = 9 ∧ t.pool.mem = [] ∧ t.fw.journal = s.fw.journal) ∧
  (∀ via inp s, Accepted rowRecoveryEnter via inp.length s →
    (fld inp 0 1 = 1 → s.pwr.state = 2 → Gives (.fwRecoveryEnter via inp) s fun t => t.rst.recovery = true ∧ t.rst.cause = 2 ∧ t.rst.memoryActive = false ∧
      t.fw.state = 9 ∧ t.pool.mem = [] ∧ t.mbx.authorised = s.mbx.authorised + 1 ∧ t.rst.moduleResets = s.rst.moduleResets + 1 ∧
      Out.response via 0xC05C .success [] ∈ t.out) ∧
    (fld inp 0 1 ≠ 1 → exec (.fwRecoveryEnter via inp) s = .next (s.respond via 0xC05C .invalidInput []))) ∧
  (∀ n b s, s.up n = true →
    (n = s.rst.packageMaster → exec (.watchdogExpiry n b) s = exec (.moduleReset 4 b) s) ∧
    (n ≠ s.rst.packageMaster → (s.sl n).state = 1 → s.fw.handover = none → s.bistRun = none → (s.ck n).pending = false →
      ((s.sl n).history.filter fun t => s.tbc < t + 10000 * ms).length < 2 → Gives (.watchdogExpiry n b) s fun t =>
        (t.sl n).state = 2 ∧ (t.sl n).lastCause = 1 ∧ (t.sl n).resets = (s.sl n).resets + 1)) ∧
  (∀ n cause s, s.up n = true → 0 < cause → cause ≤ 5 →
    ((s.sl n).state = 1 → s.fw.handover = none → s.bistRun = none → (s.ck n).pending = false →
      ((s.sl n).history.filter fun t => s.tbc < t + 10000 * ms).length < 2 →
      exec (.sliceReset n cause) s = .next (s.modSl n fun r => { r with
        state := 2, lastCause := cause, resets := r.resets + 1, fenceAt := s.tbc,
        drainLimit := s.rst.drainUs, history := s.tbc :: (r.history.filter fun t => s.tbc < t + 10000 * ms) }).dirSettle) ∧
    ((s.sl n).state = 2 ∨ (s.sl n).state = 3 → exec (.sliceReset n cause) s = .next s.dirSettle) ∧
    ((s.sl n).state = 1 → 2 ≤ ((s.sl n).history.filter fun t => s.tbc < t + 10000 * ms).length → Settles (.sliceReset n cause) s fun t =>
      (t.sl n).state = 4 ∧ (t.sl n).lastCause = cause ∧ t.rst.degraded = true)) ∧
  (∀ n s, (s.sl n).state = 2 → s.rst.tenants = [] →
    (∀ q z, s.eng.steps = [] → s.eng.seqs = [(q, z)] → Settles (.drainCut n) s fun t => (t.sl n).state = 3 ∧ t.tbc = s.tbc ∧
      (hostSlice q = n → t.eng.seqs = []) ∧ (hostSlice q ≠ n → t.eng.seqs = [(q, z)]) ∧ (∀ x ∈ t.eng.t0, x.slice ≠ n) ∧
      (∀ f ∈ t.eng.fetches, f.2.slice ≠ n) ∧ t.eng.models = s.eng.models) ∧
    (∀ id x, s.eng.steps = [(id, x)] → x.phase = 1 → s.hasWork x n = true → s.eng.seqs = [] → Settles (.drainCut n) s fun t => (t.sl n).state = 3 ∧
      t.tbc = max s.tbc ((s.sl n).fenceAt + (s.sl n).drainLimit * us) ∧ ∃ y, t.step' id = some y ∧ y.phase = 3 ∧ bit y.conds 8 = true ∧ y.lastDone = 0xFFFF)) ∧
  (∀ n bc bb fc fb cu ok s, (s.sl n).state = 3 → tabGet (0, 0, 0, false) s.bst.slices n = (fc, fb, cu, ok) → fc < 256 → fb < 65536 → bc < 256 → bb < 65536 →
    Settles (.sliceReturn n bc bb) s fun t => (t.sl n).state = 1 ∧ (t.sl n).clusters = 0xFF - (fc ||| bc) ∧ (t.sl n).banks = 0xFFFF - (fb ||| bb) ∧
      tabGet (0, 0, 0, false) t.bst.slices n = (fc ||| bc, fb ||| bb, cu, bc == 0 && bb == 0) ∧
      (n = s.rst.packageMaster → t.pending = s.mbx.held ++ s.pending ∧ t.mbx.held = []) ∧ (n ≠ s.rst.packageMaster → t.pending = s.pending) ∧
      t.pool = s.pool ∧ t.eng = { s.eng with t0 := t.eng.t0 } ∧ ∀ x ∈ t.eng.t0, x ∈ s.eng.t0) ∧
  (∀ n s, s.up n = true → (s.sl n).state = 2 ∨ (s.sl n).state = 3 → Settles (.sliceReturnTimeout n) s fun t =>
    t.tbc = max s.tbc ((s.sl n).fenceAt + 1000 * ms) ∧ (t.sl n).state = 4 ∧ t.rst.degraded = true) ∧
  (∀ n cause s, s.up n = true → 0 < cause → cause ≤ 8 → Settles (.sliceLost n cause) s fun t => (t.sl n).state = 4 ∧ (t.sl n).lastCause = cause ∧
    t.rst.degraded = true ∧ t.rst.inService = s.rst.inService ∧ t.rst.memoryActive = s.rst.memoryActive ∧
    (n ≠ s.rst.packageMaster → t.rst.packageMaster = s.rst.packageMaster)) ∧
  (∀ n s, n < 1024 →
    ((∃ k, k < 8 ∧ (s.sl k).state = 2) → (∀ x ∈ s.rst.tenants, x.1 ≠ n) → exec (.tenantReset n) s =
      .next (s.setRst { s.rst with tenants := s.rst.tenants ++ [(n, s.tbc)] }).dirSettle) ∧
    (EngineIdle s → s.rst.tenants = [] → Settles (.tenantReset n) s fun t => (t.fn (.vf n)).vecs = [] ∧ (t.fn (.vf n)).sticky = 0 ∧
      (t.fn (.vf n)).curSel = 0 ∧ (t.fn (.vf n)).curSnap = none ∧ t.pool = s.pool ∧ t.eng.models = s.eng.models ∧ t.qos = s.qos ∧
      (∀ f, funcKey f ≠ funcKey (.vf n) → t.fn f = s.fn f)))

/-! ## Clocks and crossings -/

/-- R381, R452, R522, R532, R533, R543-R552: FREQ_SET changes the step of a slice that serves, at once on a parked slice and else by a relock that counts it,
waits for what defers it, and completes with the slices that applied; a lost core reference takes its own ports down and the next present
source takes over; a stopped clock resets, loses or takes down what it clocks; a flush and an escalation count and reach the side that failed;
a repair lane is used while one remains, and an edge that is down reroutes. -/
def Obligations.ClocksChangeAndCrossingsFlush : Prop :=
  (∀ via inp s, Accepted rowFreqSet via inp.length s → 2 ^ s.cfg.slices ≤ fld inp 0 1 →
    exec (.freqSet via inp) s = .next (s.respond via 0xC068 .invalidInput [])) ∧
  (∀ via inp n st k s, Accepted rowFreqSet via inp.length s → fld inp 0 1 = 2 ^ n → n < 8 → n < s.cfg.slices → fld inp 1 1 = st → s.bgBusy via 0xC068 [] = false →
    s.up n = true → s.deferral n = 0 → s.ck n = k →
    (st ≤ 4 → k.thrStep ≤ st → st ≠ k.effStep → (s.sl n).parked = false → Gives (.freqSet via inp) s fun t => (t.ck n).pending = true ∧
      (t.ck n).deferCause = 0 ∧ (t.ck n).reqStep = st ∧ (t.ck n).effStep = k.effStep ∧ (t.iface via).ret = .backgroundStarted ∧
      (t.iface via).bg.map (·.opcode) = some 0xC068 ∧ t.clk.op = some { via := via, mask := 2 ^ n }) ∧
    (st ≤ 4 → k.thrStep ≤ st → st ≠ k.effStep → (s.sl n).parked = true → Gives (.freqSet via inp) s fun t => (t.ck n).effStep = st ∧
      (t.ck n).changes = k.changes + 1 ∧ t.clk.op = none ∧ (t.iface via).bg = none ∧ (t.iface via).ret = .success ∧
      (t.iface via).payload = flds [(1, 2 ^ n), (1, 0), (1, 0)]) ∧
    (st ≤ 4 → k.thrStep ≤ st → st = k.effStep → Gives (.freqSet via inp) s fun t => (t.ck n).effStep = st ∧ (t.ck n).changes = k.changes ∧
      t.clk.op = none ∧ (t.iface via).ret = .success ∧ (t.iface via).payload = flds [(1, 2 ^ n), (1, 0), (1, 0)]) ∧
    (4 < st → exec (.freqSet via inp) s = .next (s.respond via 0xC068 .invalidInput []))) ∧
  (∀ n k s, s.ck n = k →
    (k.pending = true → k.deferCause = 0 → k.relock = false → s.deferral n = 0 →
      exec (.engFreqChange n) s = .next (s.modCk n fun c => { c with relock := true })) ∧
    (∀ v, k.relock = true → k.busyGroups = [] → k.latest = [] → s.clk.op = some { via := v, mask := 2 ^ n } → n < 8 →
      (s.iface v).bg.map (·.opcode) = some 0xC068 → Gives (.engFreqChangeDone n) s fun t => (t.ck n).effStep = max k.reqStep k.thrStep ∧
        (t.ck n).changes = k.changes + 1 ∧ (t.ck n).pending = false ∧ (t.ck n).relock = false ∧ t.clk.op = none ∧ (t.iface v).bg = none ∧
        (t.iface v).ret = .success ∧ (t.iface v).payload = flds [(1, 2 ^ n), (1, 0), (1, 0)]) ∧
    (k.pending = true → k.deferCause ≠ 0 → s.up n = true → s.deferral n = 0 → (s.sl n).parked = false → max k.reqStep k.thrStep ≠ k.effStep →
      exec (.freqChangeDeferEnd n) s = .next (s.modCk n fun c => { c with pending := true, deferCause := 0 })) ∧
    (∀ v, k.pending = true → k.deferCause ≠ 0 → k.relock = false → s.up n = false → s.clk.op = some { via := v, mask := 2 ^ n } → n < 8 →
      (s.iface v).bg.map (·.opcode) = some 0xC068 → Gives (.freqChangeDeferEnd n) s fun t => (t.ck n).pending = false ∧
        (t.ck n).reqStep = k.priorStep ∧ (t.ck n).effStep = k.effStep ∧ (t.iface v).ret = .success ∧
        (t.iface v).payload = flds [(1, 0), (1, 2 ^ n), (1, 2)])) ∧
  (∀ s, 5 ≤ s.rst.phase → s.clk.holdover = none →
    (∀ p, s.clk.coreRef = p → p < 4 → linkFitted s.cfg (2 * p) = true → (s.port (2 * p)).perst = false → (s.port (2 * p)).failed = false → Gives .refLost s fun t =>
      t.clk.holdover = some s.tbc ∧ t.clk.coreRef = p ∧ bit t.clk.hpRef p = false ∧ (t.port (2 * p)).noRefclk = true ∧ (t.port (2 * p)).link = 3 ∧
      (EngineIdle s → ∀ l, l / 2 ≠ p → t.port l = s.port l)) ∧
    (s.clk.coreRef = 5 → exec .refLost s = .next (s.setClk { s.clk with holdover := some s.tbc, mgRef := false }))) ∧
  (∀ t0 s, s.clk.holdover = some t0 →
    (∀ p, p < 4 → bit s.clk.hpRef p = true → (∀ j, j < p → bit s.clk.hpRef j = false) → exec .refSwitch s =
      .next (s.setClk { s.clk with holdover := none, coreRef := p, switches := s.clk.switches + 1 })) ∧
    ((∀ j, j < 4 → bit s.clk.hpRef j = false) → s.clk.tpRef = true → exec .refSwitch s =
      .next (s.setClk { s.clk with holdover := none, coreRef := 4, switches := s.clk.switches + 1 })) ∧
    ((∀ j, j < 4 → bit s.clk.hpRef j = false) → s.clk.tpRef = false → s.clk.mgRef = true → exec .refSwitch s =
      .next (s.setClk { s.clk with holdover := none, coreRef := 5, switches := s.clk.switches + 1 }))) ∧
  (∀ n i s, s.up n = true →
    ((s.ck n).relock = false → (s.sl n).parked = false → exec (.clockFault n .eng i) s = exec (.sliceReset n 5) s) ∧
    (∀ d, d ∈ [ClkDomain.noc, .hbm, .lp, .mgmt] → Settles (.clockFault n d i) s fun t => (t.sl n).state = 4 ∧ t.rst.degraded = true) ∧
    (i < peerPorts s.cfg → peerPortSlice s.cfg i = n → (s.peer i).link = 2 → exec (.clockFault n .ppp i) s = .next (s.modPeer i fun x =>
      { x with link := 1, downAt := some s.tbc, discarding := false }).dirSettle) ∧
    (i < hostPorts s.cfg → hostPortSlice s.cfg i = n → Settles (.clockFault n .hpp i) s fun t =>
      ∀ l, l / 2 = i → linkFitted s.cfg l = true → (s.port l).link = 2 → (t.port l).link = 3)) ∧
  (∀ n g s, s.up n = true → g < 16 →
    (Settles (.crossingFlush n g) s fun t => (t.ck n).flushes = (s.ck n).flushes + 1 ∧ (t.ck n).lastGroup = g ∧ (t.ck n).lastEscalated = false ∧
      g ∉ (t.ck n).busyGroups ∧ (g = 1 → (t.ck n).latest = []) ∧ t = { s with clk := t.clk }) ∧
    ((s.sl n).state = 1 → s.fw.handover = none → s.bistRun = none → (s.ck n).pending = false →
      ((s.sl n).history.filter fun t => s.tbc < t + 10000 * ms).length < 2 → Settles (.crossingEscalation n g .engine) s fun t =>
        (t.ck n).escalations = (s.ck n).escalations + 1 ∧ (t.ck n).lastGroup = g ∧ (t.ck n).lastEscalated = true ∧ (t.sl n).state = 2 ∧
        (t.sl n).lastCause = 5 ∧ t.pool = s.pool) ∧
    (∀ c, c.slice = n → s.chanState c = 2 → Settles (.crossingEscalation n g (.controller c)) s fun t =>
      (t.ck n).escalations = (s.ck n).escalations + 1 ∧ t.chanState c = 3 ∧ (t.chan c).freezeCause = 2) ∧
    (∀ p, p < peerPorts s.cfg → peerPortSlice s.cfg p = n → (s.peer p).link = 2 → Settles (.crossingEscalation n g (.peerLink p)) s fun t =>
      (t.peer p).link = 1 ∧ (t.ck n).escalations = (s.ck n).escalations + 1)) ∧
  (∀ n s, s.up n = true →
    ((s.sl n).spareLanes ≠ 0 → exec (.ucieLaneRepair n) s =
      .next (s.modSl n fun r => { r with laneRepairs := r.laneRepairs + 1, spareLanes := r.spareLanes - 1 })) ∧
    (∀ e, e < 4 → bit (s.sl n).edgesUp e = true →
      ((s.sl n).edgesUp ≠ 2 ^ e → (∀ x, edgePeer s.cfg n e = some x → x.1 ≠ n) → Settles (.ucieEdgeDown n e) s fun t =>
        bit (t.sl n).edgesUp e = false ∧ (t.sl n).reroutes = (s.sl n).reroutes + 1 ∧ (t.sl n).state = (s.sl n).state ∧
        ∀ x, edgePeer s.cfg n e = some x → s.up x.1 = true → bit (s.sl x.1).edgesUp x.2 = true →
          bit (t.sl x.1).edgesUp x.2 = false ∧ ((s.sl x.1).edgesUp ≠ 2 ^ x.2 → (t.sl x.1).reroutes = (s.sl x.1).reroutes + 1)) ∧
      ((s.sl n).edgesUp = 2 ^ e → Settles (.ucieEdgeDown n e) s fun t => (t.sl n).state = 4 ∧ (t.sl n).lastCause = 6)))

/-! ## Power -/

/-- R450, R456, R554, R558-R570: J-SVC is sampled as 48 V is applied; each input sample moves the qualification of its thresholds; 10 ms below WARN_MV
enters the guard, 10 ms above WARN_MV + 1,000 leaves it and lets the waiting writes go; input loss leaves flash and presence and nothing else,
and an exhausted bank ends them; a hold-up test sets ESR, capacitance and energy; a junction of 105 °C or more for 1 ms raises the throttle step,
115 °C for 100 µs loses the slice. -/
def Obligations.PowerIsGuardedAndHeld : Prop :=
  (∀ s, s.pwr.state = 0 →
    (Gives (.powerEnable true) s fun t => t.mbx.jumper = true ∧ t.mbx.jumperSample = true ∧ t.presOpen = true ∧ t.tbc = s.tbc + 10 * ms ∧
      t.mbx.history.head? = some { event := 0, source := 2, opcode := 0, tbc := t.tbc } ∧ t = { s with tbc := t.tbc, mbx := t.mbx }) ∧
    (exec (.powerEnable false) s = .next ({ s with tbc := s.tbc + 10 * ms }.setMbx { s.mbx with jumper := false, jumperSample := false }))) ∧
  (∀ mv s, Gives (.inputSample mv) s fun t => t = { s with tbc := max s.tbc (s.pwr.sampledAt + 10 * us), pwr := t.pwr } ∧ t.pwr.inputMv = mv ∧
    t.pwr.minMv = min s.pwr.minMv mv ∧ t.pwr.guard = s.pwr.guard ∧ t.pwr.state = s.pwr.state ∧ t.pwr.sampledAt = t.tbc ∧
    (s.pwr.warnMv ≤ mv → t.pwr.belowWarn = none) ∧ (mv < s.pwr.warnMv → s.pwr.belowWarn = none → t.pwr.belowWarn = some t.tbc) ∧
    (mv < s.pwr.warnMv → ∀ x, s.pwr.belowWarn = some x → t.pwr.belowWarn = some x) ∧
    (mv ≤ s.pwr.warnMv + 1000 → t.pwr.aboveExit = none) ∧ (s.pwr.warnMv + 1000 < mv → t.pwr.aboveExit.isSome) ∧
    (36000 ≤ mv → t.pwr.belowReset = none) ∧ (mv < 36000 → t.pwr.belowReset.isSome) ∧ (60000 < mv → t.pwr.overvolt = true ∧ t.pwr.above60.isSome) ∧
    (mv ≤ 60000 → t.pwr.overvolt = s.pwr.overvolt ∧ t.pwr.above60 = none)) ∧
  (∀ t0 s, s.pwr.belowWarn = some t0 → s.pwr.state = 2 → s.pwr.guard = false → s.pwr.belowReset = none → Gives .brownoutGuardEnter s fun t =>
    t.tbc = max s.tbc (t0 + 10 * ms) ∧ t.pwr.guard = true ∧ t.pwr.guardAt = t.tbc ∧ t.pwr.guardEntries = s.pwr.guardEntries + 1 ∧
    t.pool = s.pool ∧ t.eng = s.eng ∧ t.drc = s.drc ∧ t.rst = s.rst) ∧
  (∀ t0 s, s.pwr.aboveExit = some t0 → s.pwr.guard = true →
    (s.pwr.deferred = [] → Gives .brownoutGuardExit s fun t => t.tbc = max s.tbc (t0 + 10 * ms) ∧ t.pwr.guard = false ∧ t.pwr.belowWarn = none ∧
      t.pool = s.pool ∧ t.eng = s.eng ∧ t.rst = s.rst) ∧
    (s.pwr.deferred = [1] → s.fw.sealRec = none → s.rst.mbxReady = true → s.pwr.testing = false → s.fw.handover = none → 1200 ≤ s.pwr.energyMj →
      47000 ≤ s.pwr.bankMv → s.pwr.testAt = some (max s.tbc (t0 + 10 * ms)) → Gives .brownoutGuardExit s fun t => t.pwr.guard = false ∧
        t.pwr.deferred = [] ∧ t.fw.sealRec.isSome)) ∧
  (∀ t0 s, s.pwr.belowReset = some t0 → s.pwr.inputMv ≤ 80000 → s.pwr.state = 2 → Gives .inputLoss s fun t =>
    t.tbc = max s.tbc (t0 + 20 * us) ∧ t.pwr.state = 1 ∧ t.pool = {} ∧ t.eng = {} ∧ t.dir = {} ∧ t.qos = {} ∧ t.rst.memoryActive = false ∧
    t.rst.inService = [] ∧ t.fw.main = s.fw.main ∧ t.fw.journal = s.fw.journal ∧ t.fw.configs = s.fw.configs ∧ t.mbx.timestamp = none ∧
    t.mbx.authorised = s.mbx.authorised ∧ t.mbx.jumper = s.mbx.jumper ∧ t.pending = s.pending) ∧
  (∀ s, s.pwr.state = 1 → Gives .bankExhausted s fun t => t.pwr.state = 0 ∧ t.pwr.bankMv = 30000 ∧ t.mbx.history = [] ∧ t.mbx.authorised = 0 ∧
    t.mbx.jumper = false ∧ t.mbx.timestamp = none ∧ t.fw = s.fw) ∧
  (∀ esr rt s, s.pwr.state = 2 → s.pwr.guard = false → s.pwr.testing = true →
    (esr ≤ 200 → 1200 ≤ rt / 8 * 702 / 1000 → exec (.holdupTest esr rt) s = .next (s.setPwr { s.pwr with
      esr := esr, capUf := rt / 8, energyMj := rt / 8 * 702 / 1000, bankMv := 48000, testing := false, testAt := some s.tbc })) ∧
    (200 < esr → Gives (.holdupTest esr rt) s fun t => t.pwr.energyMj = 0 ∧ t.pwr.testing = false ∧ t.pwr.testAt = some s.tbc ∧ t.pwr.refused = 0)) ∧
  (∀ esr rt t0 s, s.pwr.state = 2 → s.pwr.guard = false → s.pwr.testing = false → s.pwr.testAt = some t0 → Gives (.holdupTest esr rt) s fun t =>
    t.tbc = max s.tbc (t0 + 3600000 * ms) ∧ t.pwr.testAt = some t.tbc ∧ t.pwr.esr = esr ∧ t.pwr.capUf = rt / 8) ∧
  (∀ s, s.pwr.state ≠ 0 → exec .sbShort s = .next (s.setPwr { s.pwr with sbShort := true }) ∧
    Gives .smbusTimeout s fun t => (t.iface .mctp).ret = .success ∧ (t.iface .mctp).payload = [] ∧ (t.iface .mctp).bg = (s.iface .mctp).bg ∧
      t = { s with mbx := t.mbx } ∧ t.mbx.eid = s.mbx.eid) ∧
  (∀ via inp s, Accepted rowHoldupStatus via inp.length s → Gives (.holdupStatus via inp) s fun t => ∃ out,
    t = (s.setPwr { s.pwr with minStatus := s.pwr.inputMv }).respond via 0xC069 .success out ∧ fld out 0 4 = s.pwr.energyMj % 2 ^ 32 ∧
    fld out 4 2 = s.pwr.esr % 65536 ∧ fld out 6 1 = b2n (1200 ≤ s.pwr.energyMj) ∧ fld out 7 1 = b2n s.pwr.guard ∧
    fld out 8 8 = s.pwr.testAt.getD 0 % 2 ^ 64 ∧ fld out 16 4 = s.pwr.inputMv % 2 ^ 32 ∧ fld out 20 4 = s.pwr.minStatus % 2 ^ 32) ∧
  (∀ n c k s, s.up n = true → s.ck n = k → k.memHot = false →
    (∀ h, 105 ≤ c → c < 115 → k.hotSince = some h → h + 1 * ms ≤ max s.tbc (k.polledAt + 100 * us) → Gives (.junctionPoll n c) s fun t =>
      t.tbc = max s.tbc (k.polledAt + 100 * us) ∧ (t.ck n).thrStep = min 4 (k.thrStep + 1) ∧ (t.ck n).junction = c) ∧
    (∀ h, c ≤ 100 → k.coolSince = some h → h + 100 * ms ≤ max s.tbc (k.polledAt + 100 * us) → Gives (.junctionPoll n c) s fun t =>
      (t.ck n).thrStep = k.thrStep - 1 ∧ (t.ck n).junction = c) ∧
    (100 < c → c < 105 → Gives (.junctionPoll n c) s fun t => (t.ck n).thrStep = k.thrStep ∧ (t.ck n).junction = c ∧ (t.ck n).hotSince = none) ∧
    (∀ h, 115 ≤ c → k.tripSince = some h → h + 100 * us ≤ max s.tbc (k.polledAt + 100 * us) → Gives (.junctionPoll n c) s fun t =>
      (t.sl n).state = 4 ∧ (t.sl n).lastCause = 8))

/-! ## Registers -/

/-- R71, R196, R197, R315, R573, R585, R593-R600, R602: a write within its range takes effect and one outside is ignored; module and slice registers need FM_LINKS;
LOCK holds until module reset; FLUSH and a cleared ENABLE invalidate every copy of the slice; W1C bits clear where ones are written; an MSI-X
entry takes its mask; the first half of a 64-bit register latches the second; an offset that no map assigns reads 0; the Preomel DVSEC gives
port, half, slices and tenant contexts; a decoder that is not committed takes its base. The layout of the decoders and of the DVSEC's headers is
the model's choice (log 9). -/
def Obligations.RegistersReadAndWrite : Prop :=
  (∀ l v s, s.regsOpen (.pf0 l) = true → s.rst.recovery = false → bit s.cfg.fmLinks l = true → v < 2 ^ 32 →
    (Gives (.registerWrite (.pf0 l) 0 0x40200 4 v) s fun t => t = { s with fns := t.fns, pwr := t.pwr } ∧
      t.pwr.warnMv = (if 38000 ≤ v % 65536 ∧ v % 65536 ≤ 46000 then v % 65536 else s.pwr.warnMv) ∧ t.pwr.srIdleUs = v / 65536 % 256) ∧
    (Gives (.registerWrite (.pf0 l) 0 0x4000C 4 v) s fun t => t = { s with fns := t.fns, rst := t.rst } ∧
      t.rst.drainUs = if 10 ≤ v % 1024 then (if v % 1024 ≤ 1000 then v % 1024 else s.rst.drainUs) else s.rst.drainUs) ∧
    (bit v 24 = true → Gives (.minClr (.pf0 l) v) s fun t => t.pwr.minMv = 0xFFFF ∧ t.pwr.inputMv = s.pwr.inputMv ∧ t = { s with fns := t.fns, pwr := t.pwr }) ∧
    (∀ n, n < 8 → s.up n = true → n < s.cfg.slices →
      (bit v 4 = true → Gives (.loupeFlush (.pf0 l) n v) s fun t => (∀ c ∈ t.pool.loupe, s.sliceOf (c.page * 4096) ≠ n) ∧
        (∀ c ∈ s.pool.loupe, s.sliceOf (c.page * 4096) ≠ n → c ∈ t.pool.loupe) ∧ t.pool.mem = s.pool.mem ∧ t.pool.pages = s.pool.pages ∧
        (t.mig n).lpeEnable = bit v 0) ∧
      (bit v 0 = false → Gives (.loupeDisable (.pf0 l) n v) s fun t => (∀ c ∈ t.pool.loupe, s.sliceOf (c.page * 4096) ≠ n) ∧
        t.pool.mem = s.pool.mem ∧ (t.mig n).lpeEnable = false) ∧
      ((s.drcReg n).lock = false → bit v 31 = true → Gives (.lock (.pf0 l) n v) s fun t => (t.drcReg n).lock = true ∧
        t.cfg.mapFlags = v / 2 ^ 24 % 16 ∧ (12 ≤ v % 32 → v % 32 ≤ 30 → t.cfg.sliceGrain = v % 32) ∧ t.pool = s.pool) ∧
      ((s.drcReg n).lock = true → bit v 31 = true → exec (.lock (.pf0 l) n v) s = .next (s.touch (.pf0 l))))) ∧
  (∀ l off v s, s.regsOpen (.pf0 l) = true → s.rst.recovery = false → bit s.cfg.fmLinks l = false → 0x40000 ≤ off → off < 0x42000 → off ≠ 0x40404 →
    off % 4 = 0 → exec (.registerWrite (.pf0 l) 0 off 4 v) s = .next (s.touch (.pf0 l))) ∧
  (∀ n v s, s.regsOpen (.vf n) = true → s.rst.recovery = false → v < 2 ^ 32 → Gives (.registerWrite (.vf n) 2 0 4 v) s fun t =>
    t = { s with fns := t.fns } ∧ ∀ k, k < 5 → (t.fn (.vf n)).sticky.getLsbD k = ((s.fn (.vf n)).sticky.getLsbD k && !v.testBit k)) ∧
  (∀ f k s, s.regsOpen f = true → k < 4 → Gives (.registerWrite f 4 (16 * k + 12) 4 1) s fun t =>
    (tabGet ({} : Vec) (t.fn f).vecs k).masked = true ∧ t = { s with fns := t.fns }) ∧
  (∀ l s, s.regsOpen (.pf0 l) = true → s.rst.recovery = false → (s.fn (.pf0 l)).latch = none → s.linkOpen l = true →
    (Gives (.registerLowHalfRead (.pf0 l) ⟨0, 0x40308⟩) s fun t => t.out = .regData (.pf0 l) 0x40308 (s.tbc % 2 ^ 32) :: s.out ∧
      (t.fn (.pf0 l)).latch = some (0x4030C, le 4 (s.tbc / 2 ^ 32)) ∧ t = { s with fns := t.fns, out := t.out }) ∧
    (Gives (.registerLowHalfRead (.pf0 l) ⟨0, 0x4000C⟩) s fun t => t.out = .regData (.pf0 l) 0x4000C (s.rst.drainUs % 2 ^ 32) :: s.out ∧
      (t.fn (.pf0 l)).latch = none) ∧
    (Gives (.registerLowHalfRead (.pf0 l) ⟨0, 0x4000E⟩) s fun t => t.out = .regData (.pf0 l) 0x4000E 0xFFFFFFFF :: s.out)) ∧
  (∀ l s, s.regsOpen (.pf0 l) = true → s.linkOpen l = true → (s.fn (.pf0 l)).latch = none →
    Gives (.registerLowHalfRead (.pf0 l) ⟨0, 0x21020⟩) s fun t => t = { s with out := .regData (.pf0 l) 0x21020 0 :: s.out, fns := t.fns }) ∧
  (∀ l s, s.configOpen (.pf0 l) = true → s.cfg.slices < 16 → s.cfg.vfBase.getD (l / 2) 0 < 1024 → s.cfg.vfCount.getD (l / 2) 0 < 2048 →
    (Gives (.registerLowHalfRead (.pf0 l) ⟨7, 0x08⟩) s fun t => t.out = .regData (.pf0 l) 0x08 1 :: s.out) ∧
    (Gives (.registerLowHalfRead (.pf0 l) ⟨7, 0x0C⟩) s fun t => ∃ v, t = { s with out := .regData (.pf0 l) 0x0C v :: s.out, freeDraws := t.freeDraws } ∧
      bits v 1 0 = l / 2 ∧ bit v 2 = (l % 2 == 1) ∧ bit v 3 = (l % 2 == 0) ∧ bits v 7 4 = s.cfg.slices ∧ bit v 8 = s.cfg.half ∧ v / 2 ^ 9 = 0) ∧
    (Gives (.registerLowHalfRead (.pf0 l) ⟨7, 0x10⟩) s fun t => ∃ v, t = { s with out := .regData (.pf0 l) 0x10 v :: s.out, freeDraws := t.freeDraws } ∧
      bits v 9 0 = s.cfg.vfBase.getD (l / 2) 0 ∧ bits v 20 10 = s.cfg.vfCount.getD (l / 2) 0 ∧ v / 2 ^ 21 = 0)) ∧
  (∀ l n v d s, s.regsOpen (.pf0 l) = true → s.rst.recovery = false → 2 ≤ (s.port l).cxlGen → n < 32 → v < 2 ^ 32 →
    tabGet ({} : HdmDec) (s.port l).hdm n = d → bit d.ctl 10 = false → Gives (.registerWrite (.pf0 l) 0 (0x1114 + 32 * n) 4 v) s fun t =>
      tabGet ({} : HdmDec) (t.port l).hdm n = { d with base := v * 2 ^ 32 + d.base % 2 ^ 32 } ∧ t = { s with fns := t.fns, ports := t.ports } ∧
      ∀ k, k ≠ n → tabGet ({} : HdmDec) (t.port l).hdm k = tabGet ({} : HdmDec) (s.port l).hdm k) ∧
  (∀ l x s, s.regsOpen (.pf0 l) = true → s.rst.recovery = false → s.linkOpen l = true → x < 2 ^ 32 → (s.fn (.pf0 l)).latch = some (0x4030C, le 4 x) →
    Gives (.registerLowHalfRead (.pf0 l) ⟨0, 0x4030C⟩) s fun t => t.out = .regData (.pf0 l) 0x4030C x :: s.out ∧ (t.fn (.pf0 l)).latch = none) ∧
  (∀ s, s = State.reset →
    s.pwr.warnMv = 0xA028 ∧ s.pwr.srIdleUs = 0x32 ∧ s.pwr.minMv = 0xFFFF ∧ s.rst.drainUs = 0x64 ∧ s.fw.confirmMin = 0x1E ∧ s.bst.gbps = 0x20 ∧
    s.qos.light = 0x19 ∧ s.qos.mod = 0x4B ∧ s.qos.severe = 0x5F ∧ s.fab.graceUs = 0x64 ∧ s.fab.reqTimeoutUs = 0x1F4 ∧ s.clk.mgRef = true ∧
    s.mbx.authorised = 0 ∧ ∀ n l c, (s.sl n).parkIdleUs = 0x3E8 ∧ (s.dirReg n).recallMs = 10 ∧ (s.port l).storm = 0x3E8 ∧ (s.cls c).weight = 16 ∧
      (s.mig n).lpeEnable = true ∧ (s.eccReg n).rebuildT1 = 0x180 ∧ (s.ck n).effStep = 0)
end

