-- ==== Sys2Proof/Laws/Mem.lean ====
section
/-! SUPPORT. Pool memory: every operation keeps the canonical form, a read after a write to the same place gives the value
written, and a write leaves every other place alone. -/
namespace Sys2Proof.Machine
open Sys2Proof

/-! ### The canonical form -/

theorem memWfFrom_mono {m : List Host.Cell} {lo hi : Nat} (h : lo ≤ hi) (w : memWfFrom hi m = true) : memWfFrom lo m = true := by
  cases m with
  | nil => rfl
  | cons c m => simp only [memWfFrom, Bool.and_eq_true, decide_eq_true_eq] at w ⊢; exact ⟨⟨by omega, w.1.2⟩, w.2⟩

theorem memWfFrom_memWrite {m : List Host.Cell} {lo a : Nat} (v : Byte) (h : lo ≤ a) (w : memWfFrom lo m = true) :
    memWfFrom lo (memWrite m a v) = true := by
  induction m generalizing lo with
  | nil =>
    by_cases z : v = 0
    · simp only [memWrite, if_pos z, memWfFrom]
    · simp only [memWrite, if_neg z, memWfFrom, Bool.and_true, Bool.and_eq_true, decide_eq_true_eq, bne_iff_ne]; exact ⟨h, z⟩
  | cons c m ih =>
    obtain ⟨k, b⟩ := c
    have w' := w
    simp only [memWfFrom, Bool.and_eq_true, decide_eq_true_eq] at w
    simp only [memWrite]
    split
    · split
      · exact w'
      · next z =>
        simp only [memWfFrom, Bool.and_eq_true, decide_eq_true_eq, bne_iff_ne]
        exact ⟨⟨h, z⟩, ⟨by omega, by simpa using w.1.2⟩, w.2⟩
    · split
      · split
        · exact memWfFrom_mono (by omega) w.2
        · next z =>
          subst k
          simp only [memWfFrom, Bool.and_eq_true, decide_eq_true_eq, bne_iff_ne]
          exact ⟨⟨h, z⟩, w.2⟩
      · simp only [memWfFrom, Bool.and_eq_true, decide_eq_true_eq]
        exact ⟨w.1, ih (by omega) w.2⟩

theorem memWf_memWrite {m : List Host.Cell} (a : Nat) (v : Byte) (w : memWf m = true) : memWf (memWrite m a v) = true :=
  memWfFrom_memWrite v (Nat.zero_le a) w

theorem memWf_memWriteN {m : List Host.Cell} (a : Nat) (b : Bytes) (w : memWf m = true) : memWf (memWriteN m a b) = true := by
  induction b generalizing m a with
  | nil => exact w
  | cons v b ih => exact ih (a + 1) (memWf_memWrite a v w)

theorem memWf_memWriteBe {m : List Host.Cell} (a be : Nat) (b : Bytes) (w : memWf m = true) : memWf (memWriteBe m a be b) = true := by
  induction b generalizing m a be with
  | nil => exact w
  | cons v b ih => simp only [memWriteBe]; split <;> exact ih _ _ (by first | exact memWf_memWrite a v w | exact w)

theorem memWfFrom_filter {m : List Host.Cell} {lo : Nat} (p : Host.Cell → Bool) (w : memWfFrom lo m = true) :
    memWfFrom lo (m.filter p) = true := by
  induction m generalizing lo with
  | nil => rfl
  | cons c m ih =>
    obtain ⟨k, b⟩ := c
    simp only [memWfFrom, Bool.and_eq_true, decide_eq_true_eq] at w
    simp only [List.filter_cons]
    split
    · simp only [memWfFrom, Bool.and_eq_true, decide_eq_true_eq]; exact ⟨w.1, ih w.2⟩
    · exact memWfFrom_mono (by omega) (ih w.2)

theorem memWf_memClear {m : List Host.Cell} (a n : Nat) (w : memWf m = true) : memWf (memClear m a n) = true :=
  memWfFrom_filter _ w

/-! ### Reads -/

@[simp] theorem memRead_nil (a : Nat) : memRead [] a = 0 := rfl

theorem memRead_below {m : List Host.Cell} {lo a : Nat} (w : memWfFrom lo m = true) (h : a < lo) : memRead m a = 0 := by
  cases m with
  | nil => rfl
  | cons c m =>
    simp only [memWfFrom, Bool.and_eq_true, decide_eq_true_eq] at w
    simp only [memRead, if_neg (show ¬ c.1 = a by omega), if_pos (show a < c.1 by omega)]

theorem memRead_memWrite_from {m : List Host.Cell} {lo : Nat} (a : Nat) (v : Byte) (w : memWfFrom lo m = true) :
    memRead (memWrite m a v) a = v := by
  induction m generalizing lo with
  | nil =>
    by_cases z : v = 0
    · subst z; rfl
    · simp only [memWrite, if_neg z, memRead, if_true]
  | cons c m ih =>
    obtain ⟨k, b⟩ := c
    simp only [memWfFrom, Bool.and_eq_true, decide_eq_true_eq] at w
    simp only [memWrite]
    split
    · split
      · next z => simp only [memRead, if_neg (show ¬ k = a by omega), if_pos (show a < k by omega), z]
      · simp [memRead]
    · split
      · split
        · next z => rw [memRead_below w.2 (by omega), z]
        · simp [memRead]
      · simp only [memRead, if_neg (show ¬ k = a by omega), if_neg (show ¬ a < k by omega)]
        exact ih w.2

/-- A read after a write to the same place gives the value written. -/
theorem memRead_memWrite_same {m : List Host.Cell} (a : Nat) (v : Byte) (w : memWf m = true) : memRead (memWrite m a v) a = v :=
  memRead_memWrite_from a v w

theorem memRead_memWrite_other_from {m : List Host.Cell} {lo : Nat} (a c : Nat) (v : Byte) (w : memWfFrom lo m = true) (h : a ≠ c) :
    memRead (memWrite m a v) c = memRead m c := by
  induction m generalizing lo with
  | nil =>
    by_cases z : v = 0
    · simp only [memWrite, if_pos z]
    · simp only [memWrite, if_neg z, memRead, if_neg h, ite_self]
  | cons p m ih =>
    obtain ⟨k, b⟩ := p
    simp only [memWfFrom, Bool.and_eq_true, decide_eq_true_eq] at w
    simp only [memWrite]
    split
    · split
      · rfl
      · simp only [memRead, if_neg h]
        split
        · rw [if_neg (by omega), if_pos (by omega)]
        · rfl
    · split
      · subst k
        simp only [memRead, if_neg h]
        split
        · split
          · next g => exact memRead_below w.2 (by omega)
          · rfl
        · simp only [memRead, if_neg h]
      · simp only [memRead, ih w.2]

/-- A write leaves every other place alone. -/
theorem memRead_memWrite_other {m : List Host.Cell} (a c : Nat) (v : Byte) (w : memWf m = true) (h : a ≠ c) :
    memRead (memWrite m a v) c = memRead m c := memRead_memWrite_other_from a c v w h

theorem memRead_memWriteN_outside {m : List Host.Cell} (a c : Nat) (b : Bytes) (w : memWf m = true) (h : c < a ∨ a + b.length ≤ c) :
    memRead (memWriteN m a b) c = memRead m c := by
  induction b generalizing m a with
  | nil => rfl
  | cons v b ih =>
    simp only [memWriteN, List.length_cons] at h ⊢
    rw [ih (a + 1) (memWf_memWrite a v w) (by omega), memRead_memWrite_other a c v w (by omega)]

theorem memReadN_length (m : List Host.Cell) (a n : Nat) : (memReadN m a n).length = n := by
  induction n generalizing a with
  | zero => rfl
  | succ n ih => simp [memReadN, ih]

theorem memReadN_congr {m m' : List Host.Cell} (a n : Nat) (h : ∀ c, a ≤ c → c < a + n → memRead m c = memRead m' c) :
    memReadN m a n = memReadN m' a n := by
  induction n generalizing a with
  | zero => rfl
  | succ n ih => simp only [memReadN, h a (by omega) (by omega), ih (a + 1) fun c _ _ => h c (by omega) (by omega)]

/-- The bytes written are the bytes read. -/
theorem memReadN_memWriteN {m : List Host.Cell} (a : Nat) (b : Bytes) (w : memWf m = true) :
    memReadN (memWriteN m a b) a b.length = b := by
  induction b generalizing m a with
  | nil => rfl
  | cons v b ih =>
    simp only [memWriteN, List.length_cons, memReadN, ih (a + 1) (memWf_memWrite a v w)]
    rw [memRead_memWriteN_outside (a + 1) a b (memWf_memWrite a v w) (by omega), memRead_memWrite_same a v w]

theorem memRead_memWriteBe {m : List Host.Cell} (a c be : Nat) (b : Bytes) (w : memWf m = true) :
    memRead (memWriteBe m a be b) c =
      if a ≤ c ∧ c < a + b.length ∧ bit be (c - a) = true then b.getD (c - a) 0 else memRead m c := by
  induction b generalizing m a be with
  | nil => simp [memWriteBe]; omega
  | cons v b ih =>
    have w' : memWf (if be % 2 = 1 then memWrite m a v else m) = true := by
      split
      · exact memWf_memWrite a v w
      · exact w
    simp only [memWriteBe, ih (a + 1) (be / 2) w', List.length_cons]
    have bitS : ∀ k, bit (be / 2) k = bit be (k + 1) := by
      intro k; simp only [bit, Nat.shiftRight_succ_inside]
    by_cases hc : c = a
    · subst c
      simp only [Nat.sub_self, bit, Nat.shiftRight_zero, beq_iff_eq, List.getD_cons_zero]
      rw [if_neg (by omega)]
      by_cases e : be % 2 = 1
      · simp [e, memRead_memWrite_same a v w]
      · simp [e]
    · have other : memRead (if be % 2 = 1 then memWrite m a v else m) c = memRead m c := by
        split
        · exact memRead_memWrite_other a c v w (fun e => hc e.symm)
        · rfl
      by_cases g : a < c
      · obtain ⟨d, rfl⟩ : ∃ d, c = a + 1 + d := ⟨c - a - 1, by omega⟩
        have e1 : a + 1 + d - (a + 1) = d := by omega
        have e2 : a + 1 + d - a = d + 1 := by omega
        simp only [e1, e2, bitS, List.getD_cons_succ, other]
        by_cases q : d < b.length
        · simp only [show a + 1 ≤ a + 1 + d by omega, show a + 1 + d < a + 1 + b.length by omega, show a ≤ a + 1 + d by omega,
            show a + 1 + d < a + (b.length + 1) by omega, true_and]
        · rw [if_neg (by omega), if_neg (by omega)]
      · rw [if_neg (by omega), other, if_neg (by omega)]

theorem memRead_memClear_from {m : List Host.Cell} {lo : Nat} (a n c : Nat) (w : memWfFrom lo m = true) :
    memRead (memClear m a n) c = if a ≤ c ∧ c < a + n then 0 else memRead m c := by
  induction m generalizing lo with
  | nil => simp [memClear]
  | cons p m ih =>
    obtain ⟨k, b⟩ := p
    simp only [memWfFrom, Bool.and_eq_true, decide_eq_true_eq] at w
    have ih' := ih w.2
    simp only [memClear] at ih' ⊢
    simp only [List.filter_cons, memRead]
    by_cases o : k < a ∨ a + n ≤ k
    · rw [if_pos (by simpa using o)]
      simp only [memRead, ih']
      by_cases e : k = c
      · simp only [e, if_true]; rw [if_neg (by omega)]
      · simp only [e, if_false]
        by_cases l : c < k
        · simp [l]
        · simp [l]
    · rw [if_neg (by simpa using o), ih']
      by_cases i : a ≤ c ∧ c < a + n
      · simp [i]
      · simp only [i, if_false]
        by_cases l : c < k
        · rw [if_neg (by omega), if_pos l]
          exact memRead_below w.2 (by omega)
        · rw [if_neg (by omega), if_neg l]

/-- Clearing zeroes the range and leaves every other place alone. -/
theorem memRead_memClear {m : List Host.Cell} (a n c : Nat) (w : memWf m = true) :
    memRead (memClear m a n) c = if a ≤ c ∧ c < a + n then 0 else memRead m c := memRead_memClear_from a n c w

end Sys2Proof.Machine
end

