-- ==== Sys2Proof/Laws/State.lean ====
section
/-! SUPPORT. Field by field, what each update of the state leaves: every lemma holds by unfolding, and no proof over an update
needs its definition. -/
namespace Sys2Proof.Machine
open Sys2Proof

@[simp] theorem State.setPool_pending (s : State) (p : Pool) : (s.setPool p).pending = s.pending := rfl
@[simp] theorem State.setPool_out (s : State) (p : Pool) : (s.setPool p).out = s.out := rfl
@[simp] theorem State.setPool_freeDraws (s : State) (p : Pool) : (s.setPool p).freeDraws = s.freeDraws := rfl
@[simp] theorem State.setPool_cfg (s : State) (p : Pool) : (s.setPool p).cfg = s.cfg := rfl
@[simp] theorem State.setPool_tbc (s : State) (p : Pool) : (s.setPool p).tbc = s.tbc := rfl
@[simp] theorem State.setPool_ports (s : State) (p : Pool) : (s.setPool p).ports = s.ports := rfl
@[simp] theorem State.setPool_fns (s : State) (p : Pool) : (s.setPool p).fns = s.fns := rfl
@[simp] theorem State.setPool_mbx (s : State) (p : Pool) : (s.setPool p).mbx = s.mbx := rfl
@[simp] theorem State.setPool_pool (s : State) (p : Pool) : (s.setPool p).pool = p := rfl
@[simp] theorem State.setPool_cnd (s : State) (p : Pool) : (s.setPool p).cnd = s.cnd := rfl
@[simp] theorem State.setPool_tabLoads (s : State) (p : Pool) : (s.setPool p).tabLoads = s.tabLoads := rfl
@[simp] theorem State.setPool_dir (s : State) (p : Pool) : (s.setPool p).dir = s.dir := rfl
@[simp] theorem State.setPool_qos (s : State) (p : Pool) : (s.setPool p).qos = s.qos := rfl
@[simp] theorem State.setPool_drc (s : State) (p : Pool) : (s.setPool p).drc = s.drc := rfl
@[simp] theorem State.setPool_ecc (s : State) (p : Pool) : (s.setPool p).ecc = s.ecc := rfl
@[simp] theorem State.setPool_eng (s : State) (p : Pool) : (s.setPool p).eng = s.eng := rfl
@[simp] theorem State.setPool_fab (s : State) (p : Pool) : (s.setPool p).fab = s.fab := rfl
@[simp] theorem State.setPool_rst (s : State) (p : Pool) : (s.setPool p).rst = s.rst := rfl
@[simp] theorem State.setPool_clk (s : State) (p : Pool) : (s.setPool p).clk = s.clk := rfl
@[simp] theorem State.setPool_pwr (s : State) (p : Pool) : (s.setPool p).pwr = s.pwr := rfl
@[simp] theorem State.setPool_bst (s : State) (p : Pool) : (s.setPool p).bst = s.bst := rfl
@[simp] theorem State.setPool_fw (s : State) (p : Pool) : (s.setPool p).fw = s.fw := rfl

@[simp] theorem State.setEng_pending (s : State) (e : Eng) : (s.setEng e).pending = s.pending := rfl
@[simp] theorem State.setEng_out (s : State) (e : Eng) : (s.setEng e).out = s.out := rfl
@[simp] theorem State.setEng_freeDraws (s : State) (e : Eng) : (s.setEng e).freeDraws = s.freeDraws := rfl
@[simp] theorem State.setEng_cfg (s : State) (e : Eng) : (s.setEng e).cfg = s.cfg := rfl
@[simp] theorem State.setEng_tbc (s : State) (e : Eng) : (s.setEng e).tbc = s.tbc := rfl
@[simp] theorem State.setEng_ports (s : State) (e : Eng) : (s.setEng e).ports = s.ports := rfl
@[simp] theorem State.setEng_fns (s : State) (e : Eng) : (s.setEng e).fns = s.fns := rfl
@[simp] theorem State.setEng_mbx (s : State) (e : Eng) : (s.setEng e).mbx = s.mbx := rfl
@[simp] theorem State.setEng_pool (s : State) (e : Eng) : (s.setEng e).pool = s.pool := rfl
@[simp] theorem State.setEng_cnd (s : State) (e : Eng) : (s.setEng e).cnd = s.cnd := rfl
@[simp] theorem State.setEng_tabLoads (s : State) (e : Eng) : (s.setEng e).tabLoads = s.tabLoads := rfl
@[simp] theorem State.setEng_dir (s : State) (e : Eng) : (s.setEng e).dir = s.dir := rfl
@[simp] theorem State.setEng_qos (s : State) (e : Eng) : (s.setEng e).qos = s.qos := rfl
@[simp] theorem State.setEng_drc (s : State) (e : Eng) : (s.setEng e).drc = s.drc := rfl
@[simp] theorem State.setEng_ecc (s : State) (e : Eng) : (s.setEng e).ecc = s.ecc := rfl
@[simp] theorem State.setEng_eng (s : State) (e : Eng) : (s.setEng e).eng = e := rfl
@[simp] theorem State.setEng_fab (s : State) (e : Eng) : (s.setEng e).fab = s.fab := rfl
@[simp] theorem State.setEng_rst (s : State) (e : Eng) : (s.setEng e).rst = s.rst := rfl
@[simp] theorem State.setEng_clk (s : State) (e : Eng) : (s.setEng e).clk = s.clk := rfl
@[simp] theorem State.setEng_pwr (s : State) (e : Eng) : (s.setEng e).pwr = s.pwr := rfl
@[simp] theorem State.setEng_bst (s : State) (e : Eng) : (s.setEng e).bst = s.bst := rfl
@[simp] theorem State.setEng_fw (s : State) (e : Eng) : (s.setEng e).fw = s.fw := rfl

@[simp] theorem State.setDir_pending (s : State) (d : Dir) : (s.setDir d).pending = s.pending := rfl
@[simp] theorem State.setDir_out (s : State) (d : Dir) : (s.setDir d).out = s.out := rfl
@[simp] theorem State.setDir_freeDraws (s : State) (d : Dir) : (s.setDir d).freeDraws = s.freeDraws := rfl
@[simp] theorem State.setDir_cfg (s : State) (d : Dir) : (s.setDir d).cfg = s.cfg := rfl
@[simp] theorem State.setDir_tbc (s : State) (d : Dir) : (s.setDir d).tbc = s.tbc := rfl
@[simp] theorem State.setDir_ports (s : State) (d : Dir) : (s.setDir d).ports = s.ports := rfl
@[simp] theorem State.setDir_fns (s : State) (d : Dir) : (s.setDir d).fns = s.fns := rfl
@[simp] theorem State.setDir_mbx (s : State) (d : Dir) : (s.setDir d).mbx = s.mbx := rfl
@[simp] theorem State.setDir_pool (s : State) (d : Dir) : (s.setDir d).pool = s.pool := rfl
@[simp] theorem State.setDir_cnd (s : State) (d : Dir) : (s.setDir d).cnd = s.cnd := rfl
@[simp] theorem State.setDir_tabLoads (s : State) (d : Dir) : (s.setDir d).tabLoads = s.tabLoads := rfl
@[simp] theorem State.setDir_dir (s : State) (d : Dir) : (s.setDir d).dir = d := rfl
@[simp] theorem State.setDir_qos (s : State) (d : Dir) : (s.setDir d).qos = s.qos := rfl
@[simp] theorem State.setDir_drc (s : State) (d : Dir) : (s.setDir d).drc = s.drc := rfl
@[simp] theorem State.setDir_ecc (s : State) (d : Dir) : (s.setDir d).ecc = s.ecc := rfl
@[simp] theorem State.setDir_eng (s : State) (d : Dir) : (s.setDir d).eng = s.eng := rfl
@[simp] theorem State.setDir_fab (s : State) (d : Dir) : (s.setDir d).fab = s.fab := rfl
@[simp] theorem State.setDir_rst (s : State) (d : Dir) : (s.setDir d).rst = s.rst := rfl
@[simp] theorem State.setDir_clk (s : State) (d : Dir) : (s.setDir d).clk = s.clk := rfl
@[simp] theorem State.setDir_pwr (s : State) (d : Dir) : (s.setDir d).pwr = s.pwr := rfl
@[simp] theorem State.setDir_bst (s : State) (d : Dir) : (s.setDir d).bst = s.bst := rfl
@[simp] theorem State.setDir_fw (s : State) (d : Dir) : (s.setDir d).fw = s.fw := rfl

@[simp] theorem State.setQos_pending (s : State) (q : Qos) : (s.setQos q).pending = s.pending := rfl
@[simp] theorem State.setQos_out (s : State) (q : Qos) : (s.setQos q).out = s.out := rfl
@[simp] theorem State.setQos_freeDraws (s : State) (q : Qos) : (s.setQos q).freeDraws = s.freeDraws := rfl
@[simp] theorem State.setQos_cfg (s : State) (q : Qos) : (s.setQos q).cfg = s.cfg := rfl
@[simp] theorem State.setQos_tbc (s : State) (q : Qos) : (s.setQos q).tbc = s.tbc := rfl
@[simp] theorem State.setQos_ports (s : State) (q : Qos) : (s.setQos q).ports = s.ports := rfl
@[simp] theorem State.setQos_fns (s : State) (q : Qos) : (s.setQos q).fns = s.fns := rfl
@[simp] theorem State.setQos_mbx (s : State) (q : Qos) : (s.setQos q).mbx = s.mbx := rfl
@[simp] theorem State.setQos_pool (s : State) (q : Qos) : (s.setQos q).pool = s.pool := rfl
@[simp] theorem State.setQos_cnd (s : State) (q : Qos) : (s.setQos q).cnd = s.cnd := rfl
@[simp] theorem State.setQos_tabLoads (s : State) (q : Qos) : (s.setQos q).tabLoads = s.tabLoads := rfl
@[simp] theorem State.setQos_dir (s : State) (q : Qos) : (s.setQos q).dir = s.dir := rfl
@[simp] theorem State.setQos_qos (s : State) (q : Qos) : (s.setQos q).qos = q := rfl
@[simp] theorem State.setQos_drc (s : State) (q : Qos) : (s.setQos q).drc = s.drc := rfl
@[simp] theorem State.setQos_ecc (s : State) (q : Qos) : (s.setQos q).ecc = s.ecc := rfl
@[simp] theorem State.setQos_eng (s : State) (q : Qos) : (s.setQos q).eng = s.eng := rfl
@[simp] theorem State.setQos_fab (s : State) (q : Qos) : (s.setQos q).fab = s.fab := rfl
@[simp] theorem State.setQos_rst (s : State) (q : Qos) : (s.setQos q).rst = s.rst := rfl
@[simp] theorem State.setQos_clk (s : State) (q : Qos) : (s.setQos q).clk = s.clk := rfl
@[simp] theorem State.setQos_pwr (s : State) (q : Qos) : (s.setQos q).pwr = s.pwr := rfl
@[simp] theorem State.setQos_bst (s : State) (q : Qos) : (s.setQos q).bst = s.bst := rfl
@[simp] theorem State.setQos_fw (s : State) (q : Qos) : (s.setQos q).fw = s.fw := rfl

@[simp] theorem State.setDrc_pending (s : State) (d : Drc) : (s.setDrc d).pending = s.pending := rfl
@[simp] theorem State.setDrc_out (s : State) (d : Drc) : (s.setDrc d).out = s.out := rfl
@[simp] theorem State.setDrc_freeDraws (s : State) (d : Drc) : (s.setDrc d).freeDraws = s.freeDraws := rfl
@[simp] theorem State.setDrc_cfg (s : State) (d : Drc) : (s.setDrc d).cfg = s.cfg := rfl
@[simp] theorem State.setDrc_tbc (s : State) (d : Drc) : (s.setDrc d).tbc = s.tbc := rfl
@[simp] theorem State.setDrc_ports (s : State) (d : Drc) : (s.setDrc d).ports = s.ports := rfl
@[simp] theorem State.setDrc_fns (s : State) (d : Drc) : (s.setDrc d).fns = s.fns := rfl
@[simp] theorem State.setDrc_mbx (s : State) (d : Drc) : (s.setDrc d).mbx = s.mbx := rfl
@[simp] theorem State.setDrc_pool (s : State) (d : Drc) : (s.setDrc d).pool = s.pool := rfl
@[simp] theorem State.setDrc_cnd (s : State) (d : Drc) : (s.setDrc d).cnd = s.cnd := rfl
@[simp] theorem State.setDrc_tabLoads (s : State) (d : Drc) : (s.setDrc d).tabLoads = s.tabLoads := rfl
@[simp] theorem State.setDrc_dir (s : State) (d : Drc) : (s.setDrc d).dir = s.dir := rfl
@[simp] theorem State.setDrc_qos (s : State) (d : Drc) : (s.setDrc d).qos = s.qos := rfl
@[simp] theorem State.setDrc_drc (s : State) (d : Drc) : (s.setDrc d).drc = d := rfl
@[simp] theorem State.setDrc_ecc (s : State) (d : Drc) : (s.setDrc d).ecc = s.ecc := rfl
@[simp] theorem State.setDrc_eng (s : State) (d : Drc) : (s.setDrc d).eng = s.eng := rfl
@[simp] theorem State.setDrc_fab (s : State) (d : Drc) : (s.setDrc d).fab = s.fab := rfl
@[simp] theorem State.setDrc_rst (s : State) (d : Drc) : (s.setDrc d).rst = s.rst := rfl
@[simp] theorem State.setDrc_clk (s : State) (d : Drc) : (s.setDrc d).clk = s.clk := rfl
@[simp] theorem State.setDrc_pwr (s : State) (d : Drc) : (s.setDrc d).pwr = s.pwr := rfl
@[simp] theorem State.setDrc_bst (s : State) (d : Drc) : (s.setDrc d).bst = s.bst := rfl
@[simp] theorem State.setDrc_fw (s : State) (d : Drc) : (s.setDrc d).fw = s.fw := rfl

@[simp] theorem State.setEcc_pending (s : State) (e : Ecc) : (s.setEcc e).pending = s.pending := rfl
@[simp] theorem State.setEcc_out (s : State) (e : Ecc) : (s.setEcc e).out = s.out := rfl
@[simp] theorem State.setEcc_freeDraws (s : State) (e : Ecc) : (s.setEcc e).freeDraws = s.freeDraws := rfl
@[simp] theorem State.setEcc_cfg (s : State) (e : Ecc) : (s.setEcc e).cfg = s.cfg := rfl
@[simp] theorem State.setEcc_tbc (s : State) (e : Ecc) : (s.setEcc e).tbc = s.tbc := rfl
@[simp] theorem State.setEcc_ports (s : State) (e : Ecc) : (s.setEcc e).ports = s.ports := rfl
@[simp] theorem State.setEcc_fns (s : State) (e : Ecc) : (s.setEcc e).fns = s.fns := rfl
@[simp] theorem State.setEcc_mbx (s : State) (e : Ecc) : (s.setEcc e).mbx = s.mbx := rfl
@[simp] theorem State.setEcc_pool (s : State) (e : Ecc) : (s.setEcc e).pool = s.pool := rfl
@[simp] theorem State.setEcc_cnd (s : State) (e : Ecc) : (s.setEcc e).cnd = s.cnd := rfl
@[simp] theorem State.setEcc_tabLoads (s : State) (e : Ecc) : (s.setEcc e).tabLoads = s.tabLoads := rfl
@[simp] theorem State.setEcc_dir (s : State) (e : Ecc) : (s.setEcc e).dir = s.dir := rfl
@[simp] theorem State.setEcc_qos (s : State) (e : Ecc) : (s.setEcc e).qos = s.qos := rfl
@[simp] theorem State.setEcc_drc (s : State) (e : Ecc) : (s.setEcc e).drc = s.drc := rfl
@[simp] theorem State.setEcc_ecc (s : State) (e : Ecc) : (s.setEcc e).ecc = e := rfl
@[simp] theorem State.setEcc_eng (s : State) (e : Ecc) : (s.setEcc e).eng = s.eng := rfl
@[simp] theorem State.setEcc_fab (s : State) (e : Ecc) : (s.setEcc e).fab = s.fab := rfl
@[simp] theorem State.setEcc_rst (s : State) (e : Ecc) : (s.setEcc e).rst = s.rst := rfl
@[simp] theorem State.setEcc_clk (s : State) (e : Ecc) : (s.setEcc e).clk = s.clk := rfl
@[simp] theorem State.setEcc_pwr (s : State) (e : Ecc) : (s.setEcc e).pwr = s.pwr := rfl
@[simp] theorem State.setEcc_bst (s : State) (e : Ecc) : (s.setEcc e).bst = s.bst := rfl
@[simp] theorem State.setEcc_fw (s : State) (e : Ecc) : (s.setEcc e).fw = s.fw := rfl

@[simp] theorem State.setFab_pending (s : State) (f : Fab) : (s.setFab f).pending = s.pending := rfl
@[simp] theorem State.setFab_out (s : State) (f : Fab) : (s.setFab f).out = s.out := rfl
@[simp] theorem State.setFab_freeDraws (s : State) (f : Fab) : (s.setFab f).freeDraws = s.freeDraws := rfl
@[simp] theorem State.setFab_cfg (s : State) (f : Fab) : (s.setFab f).cfg = s.cfg := rfl
@[simp] theorem State.setFab_tbc (s : State) (f : Fab) : (s.setFab f).tbc = s.tbc := rfl
@[simp] theorem State.setFab_ports (s : State) (f : Fab) : (s.setFab f).ports = s.ports := rfl
@[simp] theorem State.setFab_fns (s : State) (f : Fab) : (s.setFab f).fns = s.fns := rfl
@[simp] theorem State.setFab_mbx (s : State) (f : Fab) : (s.setFab f).mbx = s.mbx := rfl
@[simp] theorem State.setFab_pool (s : State) (f : Fab) : (s.setFab f).pool = s.pool := rfl
@[simp] theorem State.setFab_cnd (s : State) (f : Fab) : (s.setFab f).cnd = s.cnd := rfl
@[simp] theorem State.setFab_tabLoads (s : State) (f : Fab) : (s.setFab f).tabLoads = s.tabLoads := rfl
@[simp] theorem State.setFab_dir (s : State) (f : Fab) : (s.setFab f).dir = s.dir := rfl
@[simp] theorem State.setFab_qos (s : State) (f : Fab) : (s.setFab f).qos = s.qos := rfl
@[simp] theorem State.setFab_drc (s : State) (f : Fab) : (s.setFab f).drc = s.drc := rfl
@[simp] theorem State.setFab_ecc (s : State) (f : Fab) : (s.setFab f).ecc = s.ecc := rfl
@[simp] theorem State.setFab_eng (s : State) (f : Fab) : (s.setFab f).eng = s.eng := rfl
@[simp] theorem State.setFab_fab (s : State) (f : Fab) : (s.setFab f).fab = f := rfl
@[simp] theorem State.setFab_rst (s : State) (f : Fab) : (s.setFab f).rst = s.rst := rfl
@[simp] theorem State.setFab_clk (s : State) (f : Fab) : (s.setFab f).clk = s.clk := rfl
@[simp] theorem State.setFab_pwr (s : State) (f : Fab) : (s.setFab f).pwr = s.pwr := rfl
@[simp] theorem State.setFab_bst (s : State) (f : Fab) : (s.setFab f).bst = s.bst := rfl
@[simp] theorem State.setFab_fw (s : State) (f : Fab) : (s.setFab f).fw = s.fw := rfl

@[simp] theorem State.setMbx_pending (s : State) (m : Mbx) : (s.setMbx m).pending = s.pending := rfl
@[simp] theorem State.setMbx_out (s : State) (m : Mbx) : (s.setMbx m).out = s.out := rfl
@[simp] theorem State.setMbx_freeDraws (s : State) (m : Mbx) : (s.setMbx m).freeDraws = s.freeDraws := rfl
@[simp] theorem State.setMbx_cfg (s : State) (m : Mbx) : (s.setMbx m).cfg = s.cfg := rfl
@[simp] theorem State.setMbx_tbc (s : State) (m : Mbx) : (s.setMbx m).tbc = s.tbc := rfl
@[simp] theorem State.setMbx_ports (s : State) (m : Mbx) : (s.setMbx m).ports = s.ports := rfl
@[simp] theorem State.setMbx_fns (s : State) (m : Mbx) : (s.setMbx m).fns = s.fns := rfl
@[simp] theorem State.setMbx_mbx (s : State) (m : Mbx) : (s.setMbx m).mbx = m := rfl
@[simp] theorem State.setMbx_pool (s : State) (m : Mbx) : (s.setMbx m).pool = s.pool := rfl
@[simp] theorem State.setMbx_cnd (s : State) (m : Mbx) : (s.setMbx m).cnd = s.cnd := rfl
@[simp] theorem State.setMbx_tabLoads (s : State) (m : Mbx) : (s.setMbx m).tabLoads = s.tabLoads := rfl
@[simp] theorem State.setMbx_dir (s : State) (m : Mbx) : (s.setMbx m).dir = s.dir := rfl
@[simp] theorem State.setMbx_qos (s : State) (m : Mbx) : (s.setMbx m).qos = s.qos := rfl
@[simp] theorem State.setMbx_drc (s : State) (m : Mbx) : (s.setMbx m).drc = s.drc := rfl
@[simp] theorem State.setMbx_ecc (s : State) (m : Mbx) : (s.setMbx m).ecc = s.ecc := rfl
@[simp] theorem State.setMbx_eng (s : State) (m : Mbx) : (s.setMbx m).eng = s.eng := rfl
@[simp] theorem State.setMbx_fab (s : State) (m : Mbx) : (s.setMbx m).fab = s.fab := rfl
@[simp] theorem State.setMbx_rst (s : State) (m : Mbx) : (s.setMbx m).rst = s.rst := rfl
@[simp] theorem State.setMbx_clk (s : State) (m : Mbx) : (s.setMbx m).clk = s.clk := rfl
@[simp] theorem State.setMbx_pwr (s : State) (m : Mbx) : (s.setMbx m).pwr = s.pwr := rfl
@[simp] theorem State.setMbx_bst (s : State) (m : Mbx) : (s.setMbx m).bst = s.bst := rfl
@[simp] theorem State.setMbx_fw (s : State) (m : Mbx) : (s.setMbx m).fw = s.fw := rfl

@[simp] theorem State.setFw_pending (s : State) (f : Fw) : (s.setFw f).pending = s.pending := rfl
@[simp] theorem State.setFw_out (s : State) (f : Fw) : (s.setFw f).out = s.out := rfl
@[simp] theorem State.setFw_freeDraws (s : State) (f : Fw) : (s.setFw f).freeDraws = s.freeDraws := rfl
@[simp] theorem State.setFw_cfg (s : State) (f : Fw) : (s.setFw f).cfg = s.cfg := rfl
@[simp] theorem State.setFw_tbc (s : State) (f : Fw) : (s.setFw f).tbc = s.tbc := rfl
@[simp] theorem State.setFw_ports (s : State) (f : Fw) : (s.setFw f).ports = s.ports := rfl
@[simp] theorem State.setFw_fns (s : State) (f : Fw) : (s.setFw f).fns = s.fns := rfl
@[simp] theorem State.setFw_mbx (s : State) (f : Fw) : (s.setFw f).mbx = s.mbx := rfl
@[simp] theorem State.setFw_pool (s : State) (f : Fw) : (s.setFw f).pool = s.pool := rfl
@[simp] theorem State.setFw_cnd (s : State) (f : Fw) : (s.setFw f).cnd = s.cnd := rfl
@[simp] theorem State.setFw_tabLoads (s : State) (f : Fw) : (s.setFw f).tabLoads = s.tabLoads := rfl
@[simp] theorem State.setFw_dir (s : State) (f : Fw) : (s.setFw f).dir = s.dir := rfl
@[simp] theorem State.setFw_qos (s : State) (f : Fw) : (s.setFw f).qos = s.qos := rfl
@[simp] theorem State.setFw_drc (s : State) (f : Fw) : (s.setFw f).drc = s.drc := rfl
@[simp] theorem State.setFw_ecc (s : State) (f : Fw) : (s.setFw f).ecc = s.ecc := rfl
@[simp] theorem State.setFw_eng (s : State) (f : Fw) : (s.setFw f).eng = s.eng := rfl
@[simp] theorem State.setFw_fab (s : State) (f : Fw) : (s.setFw f).fab = s.fab := rfl
@[simp] theorem State.setFw_rst (s : State) (f : Fw) : (s.setFw f).rst = s.rst := rfl
@[simp] theorem State.setFw_clk (s : State) (f : Fw) : (s.setFw f).clk = s.clk := rfl
@[simp] theorem State.setFw_pwr (s : State) (f : Fw) : (s.setFw f).pwr = s.pwr := rfl
@[simp] theorem State.setFw_bst (s : State) (f : Fw) : (s.setFw f).bst = s.bst := rfl
@[simp] theorem State.setFw_fw (s : State) (f : Fw) : (s.setFw f).fw = f := rfl

@[simp] theorem State.setRst_pending (s : State) (r : Rst) : (s.setRst r).pending = s.pending := rfl
@[simp] theorem State.setRst_out (s : State) (r : Rst) : (s.setRst r).out = s.out := rfl
@[simp] theorem State.setRst_freeDraws (s : State) (r : Rst) : (s.setRst r).freeDraws = s.freeDraws := rfl
@[simp] theorem State.setRst_cfg (s : State) (r : Rst) : (s.setRst r).cfg = s.cfg := rfl
@[simp] theorem State.setRst_tbc (s : State) (r : Rst) : (s.setRst r).tbc = s.tbc := rfl
@[simp] theorem State.setRst_ports (s : State) (r : Rst) : (s.setRst r).ports = s.ports := rfl
@[simp] theorem State.setRst_fns (s : State) (r : Rst) : (s.setRst r).fns = s.fns := rfl
@[simp] theorem State.setRst_mbx (s : State) (r : Rst) : (s.setRst r).mbx = s.mbx := rfl
@[simp] theorem State.setRst_pool (s : State) (r : Rst) : (s.setRst r).pool = s.pool := rfl
@[simp] theorem State.setRst_cnd (s : State) (r : Rst) : (s.setRst r).cnd = s.cnd := rfl
@[simp] theorem State.setRst_tabLoads (s : State) (r : Rst) : (s.setRst r).tabLoads = s.tabLoads := rfl
@[simp] theorem State.setRst_dir (s : State) (r : Rst) : (s.setRst r).dir = s.dir := rfl
@[simp] theorem State.setRst_qos (s : State) (r : Rst) : (s.setRst r).qos = s.qos := rfl
@[simp] theorem State.setRst_drc (s : State) (r : Rst) : (s.setRst r).drc = s.drc := rfl
@[simp] theorem State.setRst_ecc (s : State) (r : Rst) : (s.setRst r).ecc = s.ecc := rfl
@[simp] theorem State.setRst_eng (s : State) (r : Rst) : (s.setRst r).eng = s.eng := rfl
@[simp] theorem State.setRst_fab (s : State) (r : Rst) : (s.setRst r).fab = s.fab := rfl
@[simp] theorem State.setRst_rst (s : State) (r : Rst) : (s.setRst r).rst = r := rfl
@[simp] theorem State.setRst_clk (s : State) (r : Rst) : (s.setRst r).clk = s.clk := rfl
@[simp] theorem State.setRst_pwr (s : State) (r : Rst) : (s.setRst r).pwr = s.pwr := rfl
@[simp] theorem State.setRst_bst (s : State) (r : Rst) : (s.setRst r).bst = s.bst := rfl
@[simp] theorem State.setRst_fw (s : State) (r : Rst) : (s.setRst r).fw = s.fw := rfl

@[simp] theorem State.setClk_pending (s : State) (c : Clk) : (s.setClk c).pending = s.pending := rfl
@[simp] theorem State.setClk_out (s : State) (c : Clk) : (s.setClk c).out = s.out := rfl
@[simp] theorem State.setClk_freeDraws (s : State) (c : Clk) : (s.setClk c).freeDraws = s.freeDraws := rfl
@[simp] theorem State.setClk_cfg (s : State) (c : Clk) : (s.setClk c).cfg = s.cfg := rfl
@[simp] theorem State.setClk_tbc (s : State) (c : Clk) : (s.setClk c).tbc = s.tbc := rfl
@[simp] theorem State.setClk_ports (s : State) (c : Clk) : (s.setClk c).ports = s.ports := rfl
@[simp] theorem State.setClk_fns (s : State) (c : Clk) : (s.setClk c).fns = s.fns := rfl
@[simp] theorem State.setClk_mbx (s : State) (c : Clk) : (s.setClk c).mbx = s.mbx := rfl
@[simp] theorem State.setClk_pool (s : State) (c : Clk) : (s.setClk c).pool = s.pool := rfl
@[simp] theorem State.setClk_cnd (s : State) (c : Clk) : (s.setClk c).cnd = s.cnd := rfl
@[simp] theorem State.setClk_tabLoads (s : State) (c : Clk) : (s.setClk c).tabLoads = s.tabLoads := rfl
@[simp] theorem State.setClk_dir (s : State) (c : Clk) : (s.setClk c).dir = s.dir := rfl
@[simp] theorem State.setClk_qos (s : State) (c : Clk) : (s.setClk c).qos = s.qos := rfl
@[simp] theorem State.setClk_drc (s : State) (c : Clk) : (s.setClk c).drc = s.drc := rfl
@[simp] theorem State.setClk_ecc (s : State) (c : Clk) : (s.setClk c).ecc = s.ecc := rfl
@[simp] theorem State.setClk_eng (s : State) (c : Clk) : (s.setClk c).eng = s.eng := rfl
@[simp] theorem State.setClk_fab (s : State) (c : Clk) : (s.setClk c).fab = s.fab := rfl
@[simp] theorem State.setClk_rst (s : State) (c : Clk) : (s.setClk c).rst = s.rst := rfl
@[simp] theorem State.setClk_clk (s : State) (c : Clk) : (s.setClk c).clk = c := rfl
@[simp] theorem State.setClk_pwr (s : State) (c : Clk) : (s.setClk c).pwr = s.pwr := rfl
@[simp] theorem State.setClk_bst (s : State) (c : Clk) : (s.setClk c).bst = s.bst := rfl
@[simp] theorem State.setClk_fw (s : State) (c : Clk) : (s.setClk c).fw = s.fw := rfl

@[simp] theorem State.setPwr_pending (s : State) (p : Pwr) : (s.setPwr p).pending = s.pending := rfl
@[simp] theorem State.setPwr_out (s : State) (p : Pwr) : (s.setPwr p).out = s.out := rfl
@[simp] theorem State.setPwr_freeDraws (s : State) (p : Pwr) : (s.setPwr p).freeDraws = s.freeDraws := rfl
@[simp] theorem State.setPwr_cfg (s : State) (p : Pwr) : (s.setPwr p).cfg = s.cfg := rfl
@[simp] theorem State.setPwr_tbc (s : State) (p : Pwr) : (s.setPwr p).tbc = s.tbc := rfl
@[simp] theorem State.setPwr_ports (s : State) (p : Pwr) : (s.setPwr p).ports = s.ports := rfl
@[simp] theorem State.setPwr_fns (s : State) (p : Pwr) : (s.setPwr p).fns = s.fns := rfl
@[simp] theorem State.setPwr_mbx (s : State) (p : Pwr) : (s.setPwr p).mbx = s.mbx := rfl
@[simp] theorem State.setPwr_pool (s : State) (p : Pwr) : (s.setPwr p).pool = s.pool := rfl
@[simp] theorem State.setPwr_cnd (s : State) (p : Pwr) : (s.setPwr p).cnd = s.cnd := rfl
@[simp] theorem State.setPwr_tabLoads (s : State) (p : Pwr) : (s.setPwr p).tabLoads = s.tabLoads := rfl
@[simp] theorem State.setPwr_dir (s : State) (p : Pwr) : (s.setPwr p).dir = s.dir := rfl
@[simp] theorem State.setPwr_qos (s : State) (p : Pwr) : (s.setPwr p).qos = s.qos := rfl
@[simp] theorem State.setPwr_drc (s : State) (p : Pwr) : (s.setPwr p).drc = s.drc := rfl
@[simp] theorem State.setPwr_ecc (s : State) (p : Pwr) : (s.setPwr p).ecc = s.ecc := rfl
@[simp] theorem State.setPwr_eng (s : State) (p : Pwr) : (s.setPwr p).eng = s.eng := rfl
@[simp] theorem State.setPwr_fab (s : State) (p : Pwr) : (s.setPwr p).fab = s.fab := rfl
@[simp] theorem State.setPwr_rst (s : State) (p : Pwr) : (s.setPwr p).rst = s.rst := rfl
@[simp] theorem State.setPwr_clk (s : State) (p : Pwr) : (s.setPwr p).clk = s.clk := rfl
@[simp] theorem State.setPwr_pwr (s : State) (p : Pwr) : (s.setPwr p).pwr = p := rfl
@[simp] theorem State.setPwr_bst (s : State) (p : Pwr) : (s.setPwr p).bst = s.bst := rfl
@[simp] theorem State.setPwr_fw (s : State) (p : Pwr) : (s.setPwr p).fw = s.fw := rfl

@[simp] theorem State.setBst_pending (s : State) (b : Bst) : (s.setBst b).pending = s.pending := rfl
@[simp] theorem State.setBst_out (s : State) (b : Bst) : (s.setBst b).out = s.out := rfl
@[simp] theorem State.setBst_freeDraws (s : State) (b : Bst) : (s.setBst b).freeDraws = s.freeDraws := rfl
@[simp] theorem State.setBst_cfg (s : State) (b : Bst) : (s.setBst b).cfg = s.cfg := rfl
@[simp] theorem State.setBst_tbc (s : State) (b : Bst) : (s.setBst b).tbc = s.tbc := rfl
@[simp] theorem State.setBst_ports (s : State) (b : Bst) : (s.setBst b).ports = s.ports := rfl
@[simp] theorem State.setBst_fns (s : State) (b : Bst) : (s.setBst b).fns = s.fns := rfl
@[simp] theorem State.setBst_mbx (s : State) (b : Bst) : (s.setBst b).mbx = s.mbx := rfl
@[simp] theorem State.setBst_pool (s : State) (b : Bst) : (s.setBst b).pool = s.pool := rfl
@[simp] theorem State.setBst_cnd (s : State) (b : Bst) : (s.setBst b).cnd = s.cnd := rfl
@[simp] theorem State.setBst_tabLoads (s : State) (b : Bst) : (s.setBst b).tabLoads = s.tabLoads := rfl
@[simp] theorem State.setBst_dir (s : State) (b : Bst) : (s.setBst b).dir = s.dir := rfl
@[simp] theorem State.setBst_qos (s : State) (b : Bst) : (s.setBst b).qos = s.qos := rfl
@[simp] theorem State.setBst_drc (s : State) (b : Bst) : (s.setBst b).drc = s.drc := rfl
@[simp] theorem State.setBst_ecc (s : State) (b : Bst) : (s.setBst b).ecc = s.ecc := rfl
@[simp] theorem State.setBst_eng (s : State) (b : Bst) : (s.setBst b).eng = s.eng := rfl
@[simp] theorem State.setBst_fab (s : State) (b : Bst) : (s.setBst b).fab = s.fab := rfl
@[simp] theorem State.setBst_rst (s : State) (b : Bst) : (s.setBst b).rst = s.rst := rfl
@[simp] theorem State.setBst_clk (s : State) (b : Bst) : (s.setBst b).clk = s.clk := rfl
@[simp] theorem State.setBst_pwr (s : State) (b : Bst) : (s.setBst b).pwr = s.pwr := rfl
@[simp] theorem State.setBst_bst (s : State) (b : Bst) : (s.setBst b).bst = b := rfl
@[simp] theorem State.setBst_fw (s : State) (b : Bst) : (s.setBst b).fw = s.fw := rfl

@[simp] theorem State.modPort_pending (s : State) (l : Nat) (f : Port → Port) : (s.modPort l f).pending = s.pending := rfl
@[simp] theorem State.modPort_out (s : State) (l : Nat) (f : Port → Port) : (s.modPort l f).out = s.out := rfl
@[simp] theorem State.modPort_freeDraws (s : State) (l : Nat) (f : Port → Port) : (s.modPort l f).freeDraws = s.freeDraws := rfl
@[simp] theorem State.modPort_cfg (s : State) (l : Nat) (f : Port → Port) : (s.modPort l f).cfg = s.cfg := rfl
@[simp] theorem State.modPort_tbc (s : State) (l : Nat) (f : Port → Port) : (s.modPort l f).tbc = s.tbc := rfl
@[simp] theorem State.modPort_ports (s : State) (l : Nat) (f : Port → Port) : (s.modPort l f).ports = tabMod {} s.ports l f := rfl
@[simp] theorem State.modPort_fns (s : State) (l : Nat) (f : Port → Port) : (s.modPort l f).fns = s.fns := rfl
@[simp] theorem State.modPort_mbx (s : State) (l : Nat) (f : Port → Port) : (s.modPort l f).mbx = s.mbx := rfl
@[simp] theorem State.modPort_pool (s : State) (l : Nat) (f : Port → Port) : (s.modPort l f).pool = s.pool := rfl
@[simp] theorem State.modPort_cnd (s : State) (l : Nat) (f : Port → Port) : (s.modPort l f).cnd = s.cnd := rfl
@[simp] theorem State.modPort_tabLoads (s : State) (l : Nat) (f : Port → Port) : (s.modPort l f).tabLoads = s.tabLoads := rfl
@[simp] theorem State.modPort_dir (s : State) (l : Nat) (f : Port → Port) : (s.modPort l f).dir = s.dir := rfl
@[simp] theorem State.modPort_qos (s : State) (l : Nat) (f : Port → Port) : (s.modPort l f).qos = s.qos := rfl
@[simp] theorem State.modPort_drc (s : State) (l : Nat) (f : Port → Port) : (s.modPort l f).drc = s.drc := rfl
@[simp] theorem State.modPort_ecc (s : State) (l : Nat) (f : Port → Port) : (s.modPort l f).ecc = s.ecc := rfl
@[simp] theorem State.modPort_eng (s : State) (l : Nat) (f : Port → Port) : (s.modPort l f).eng = s.eng := rfl
@[simp] theorem State.modPort_fab (s : State) (l : Nat) (f : Port → Port) : (s.modPort l f).fab = s.fab := rfl
@[simp] theorem State.modPort_rst (s : State) (l : Nat) (f : Port → Port) : (s.modPort l f).rst = s.rst := rfl
@[simp] theorem State.modPort_clk (s : State) (l : Nat) (f : Port → Port) : (s.modPort l f).clk = s.clk := rfl
@[simp] theorem State.modPort_pwr (s : State) (l : Nat) (f : Port → Port) : (s.modPort l f).pwr = s.pwr := rfl
@[simp] theorem State.modPort_bst (s : State) (l : Nat) (f : Port → Port) : (s.modPort l f).bst = s.bst := rfl
@[simp] theorem State.modPort_fw (s : State) (l : Nat) (f : Port → Port) : (s.modPort l f).fw = s.fw := rfl

@[simp] theorem State.modFn_pending (s : State) (g : Func) (f : Fn → Fn) : (s.modFn g f).pending = s.pending := rfl
@[simp] theorem State.modFn_out (s : State) (g : Func) (f : Fn → Fn) : (s.modFn g f).out = s.out := rfl
@[simp] theorem State.modFn_freeDraws (s : State) (g : Func) (f : Fn → Fn) : (s.modFn g f).freeDraws = s.freeDraws := rfl
@[simp] theorem State.modFn_cfg (s : State) (g : Func) (f : Fn → Fn) : (s.modFn g f).cfg = s.cfg := rfl
@[simp] theorem State.modFn_tbc (s : State) (g : Func) (f : Fn → Fn) : (s.modFn g f).tbc = s.tbc := rfl
@[simp] theorem State.modFn_ports (s : State) (g : Func) (f : Fn → Fn) : (s.modFn g f).ports = s.ports := rfl
@[simp] theorem State.modFn_fns (s : State) (g : Func) (f : Fn → Fn) : (s.modFn g f).fns = tabMod {} s.fns (funcKey g) f := rfl
@[simp] theorem State.modFn_mbx (s : State) (g : Func) (f : Fn → Fn) : (s.modFn g f).mbx = s.mbx := rfl
@[simp] theorem State.modFn_pool (s : State) (g : Func) (f : Fn → Fn) : (s.modFn g f).pool = s.pool := rfl
@[simp] theorem State.modFn_cnd (s : State) (g : Func) (f : Fn → Fn) : (s.modFn g f).cnd = s.cnd := rfl
@[simp] theorem State.modFn_tabLoads (s : State) (g : Func) (f : Fn → Fn) : (s.modFn g f).tabLoads = s.tabLoads := rfl
@[simp] theorem State.modFn_dir (s : State) (g : Func) (f : Fn → Fn) : (s.modFn g f).dir = s.dir := rfl
@[simp] theorem State.modFn_qos (s : State) (g : Func) (f : Fn → Fn) : (s.modFn g f).qos = s.qos := rfl
@[simp] theorem State.modFn_drc (s : State) (g : Func) (f : Fn → Fn) : (s.modFn g f).drc = s.drc := rfl
@[simp] theorem State.modFn_ecc (s : State) (g : Func) (f : Fn → Fn) : (s.modFn g f).ecc = s.ecc := rfl
@[simp] theorem State.modFn_eng (s : State) (g : Func) (f : Fn → Fn) : (s.modFn g f).eng = s.eng := rfl
@[simp] theorem State.modFn_fab (s : State) (g : Func) (f : Fn → Fn) : (s.modFn g f).fab = s.fab := rfl
@[simp] theorem State.modFn_rst (s : State) (g : Func) (f : Fn → Fn) : (s.modFn g f).rst = s.rst := rfl
@[simp] theorem State.modFn_clk (s : State) (g : Func) (f : Fn → Fn) : (s.modFn g f).clk = s.clk := rfl
@[simp] theorem State.modFn_pwr (s : State) (g : Func) (f : Fn → Fn) : (s.modFn g f).pwr = s.pwr := rfl
@[simp] theorem State.modFn_bst (s : State) (g : Func) (f : Fn → Fn) : (s.modFn g f).bst = s.bst := rfl
@[simp] theorem State.modFn_fw (s : State) (g : Func) (f : Fn → Fn) : (s.modFn g f).fw = s.fw := rfl

@[simp] theorem State.modCnd_pending (s : State) (n : Nat) (f : Cnd → Cnd) : (s.modCnd n f).pending = s.pending := rfl
@[simp] theorem State.modCnd_out (s : State) (n : Nat) (f : Cnd → Cnd) : (s.modCnd n f).out = s.out := rfl
@[simp] theorem State.modCnd_freeDraws (s : State) (n : Nat) (f : Cnd → Cnd) : (s.modCnd n f).freeDraws = s.freeDraws := rfl
@[simp] theorem State.modCnd_cfg (s : State) (n : Nat) (f : Cnd → Cnd) : (s.modCnd n f).cfg = s.cfg := rfl
@[simp] theorem State.modCnd_tbc (s : State) (n : Nat) (f : Cnd → Cnd) : (s.modCnd n f).tbc = s.tbc := rfl
@[simp] theorem State.modCnd_ports (s : State) (n : Nat) (f : Cnd → Cnd) : (s.modCnd n f).ports = s.ports := rfl
@[simp] theorem State.modCnd_fns (s : State) (n : Nat) (f : Cnd → Cnd) : (s.modCnd n f).fns = s.fns := rfl
@[simp] theorem State.modCnd_mbx (s : State) (n : Nat) (f : Cnd → Cnd) : (s.modCnd n f).mbx = s.mbx := rfl
@[simp] theorem State.modCnd_pool (s : State) (n : Nat) (f : Cnd → Cnd) : (s.modCnd n f).pool = s.pool := rfl
@[simp] theorem State.modCnd_cnd (s : State) (n : Nat) (f : Cnd → Cnd) : (s.modCnd n f).cnd = tabMod {} s.cnd n f := rfl
@[simp] theorem State.modCnd_tabLoads (s : State) (n : Nat) (f : Cnd → Cnd) : (s.modCnd n f).tabLoads = s.tabLoads := rfl
@[simp] theorem State.modCnd_dir (s : State) (n : Nat) (f : Cnd → Cnd) : (s.modCnd n f).dir = s.dir := rfl
@[simp] theorem State.modCnd_qos (s : State) (n : Nat) (f : Cnd → Cnd) : (s.modCnd n f).qos = s.qos := rfl
@[simp] theorem State.modCnd_drc (s : State) (n : Nat) (f : Cnd → Cnd) : (s.modCnd n f).drc = s.drc := rfl
@[simp] theorem State.modCnd_ecc (s : State) (n : Nat) (f : Cnd → Cnd) : (s.modCnd n f).ecc = s.ecc := rfl
@[simp] theorem State.modCnd_eng (s : State) (n : Nat) (f : Cnd → Cnd) : (s.modCnd n f).eng = s.eng := rfl
@[simp] theorem State.modCnd_fab (s : State) (n : Nat) (f : Cnd → Cnd) : (s.modCnd n f).fab = s.fab := rfl
@[simp] theorem State.modCnd_rst (s : State) (n : Nat) (f : Cnd → Cnd) : (s.modCnd n f).rst = s.rst := rfl
@[simp] theorem State.modCnd_clk (s : State) (n : Nat) (f : Cnd → Cnd) : (s.modCnd n f).clk = s.clk := rfl
@[simp] theorem State.modCnd_pwr (s : State) (n : Nat) (f : Cnd → Cnd) : (s.modCnd n f).pwr = s.pwr := rfl
@[simp] theorem State.modCnd_bst (s : State) (n : Nat) (f : Cnd → Cnd) : (s.modCnd n f).bst = s.bst := rfl
@[simp] theorem State.modCnd_fw (s : State) (n : Nat) (f : Cnd → Cnd) : (s.modCnd n f).fw = s.fw := rfl

@[simp] theorem State.modMig_pending (s : State) (n : Nat) (f : MigSlice → MigSlice) : (s.modMig n f).pending = s.pending := rfl
@[simp] theorem State.modMig_out (s : State) (n : Nat) (f : MigSlice → MigSlice) : (s.modMig n f).out = s.out := rfl
@[simp] theorem State.modMig_freeDraws (s : State) (n : Nat) (f : MigSlice → MigSlice) : (s.modMig n f).freeDraws = s.freeDraws := rfl
@[simp] theorem State.modMig_cfg (s : State) (n : Nat) (f : MigSlice → MigSlice) : (s.modMig n f).cfg = s.cfg := rfl
@[simp] theorem State.modMig_tbc (s : State) (n : Nat) (f : MigSlice → MigSlice) : (s.modMig n f).tbc = s.tbc := rfl
@[simp] theorem State.modMig_ports (s : State) (n : Nat) (f : MigSlice → MigSlice) : (s.modMig n f).ports = s.ports := rfl
@[simp] theorem State.modMig_fns (s : State) (n : Nat) (f : MigSlice → MigSlice) : (s.modMig n f).fns = s.fns := rfl
@[simp] theorem State.modMig_mbx (s : State) (n : Nat) (f : MigSlice → MigSlice) : (s.modMig n f).mbx = s.mbx := rfl
@[simp] theorem State.modMig_pool (s : State) (n : Nat) (f : MigSlice → MigSlice) : (s.modMig n f).pool = { s.pool with mig := tabMod {} s.pool.mig n f } := rfl
@[simp] theorem State.modMig_cnd (s : State) (n : Nat) (f : MigSlice → MigSlice) : (s.modMig n f).cnd = s.cnd := rfl
@[simp] theorem State.modMig_tabLoads (s : State) (n : Nat) (f : MigSlice → MigSlice) : (s.modMig n f).tabLoads = s.tabLoads := rfl
@[simp] theorem State.modMig_dir (s : State) (n : Nat) (f : MigSlice → MigSlice) : (s.modMig n f).dir = s.dir := rfl
@[simp] theorem State.modMig_qos (s : State) (n : Nat) (f : MigSlice → MigSlice) : (s.modMig n f).qos = s.qos := rfl
@[simp] theorem State.modMig_drc (s : State) (n : Nat) (f : MigSlice → MigSlice) : (s.modMig n f).drc = s.drc := rfl
@[simp] theorem State.modMig_ecc (s : State) (n : Nat) (f : MigSlice → MigSlice) : (s.modMig n f).ecc = s.ecc := rfl
@[simp] theorem State.modMig_eng (s : State) (n : Nat) (f : MigSlice → MigSlice) : (s.modMig n f).eng = s.eng := rfl
@[simp] theorem State.modMig_fab (s : State) (n : Nat) (f : MigSlice → MigSlice) : (s.modMig n f).fab = s.fab := rfl
@[simp] theorem State.modMig_rst (s : State) (n : Nat) (f : MigSlice → MigSlice) : (s.modMig n f).rst = s.rst := rfl
@[simp] theorem State.modMig_clk (s : State) (n : Nat) (f : MigSlice → MigSlice) : (s.modMig n f).clk = s.clk := rfl
@[simp] theorem State.modMig_pwr (s : State) (n : Nat) (f : MigSlice → MigSlice) : (s.modMig n f).pwr = s.pwr := rfl
@[simp] theorem State.modMig_bst (s : State) (n : Nat) (f : MigSlice → MigSlice) : (s.modMig n f).bst = s.bst := rfl
@[simp] theorem State.modMig_fw (s : State) (n : Nat) (f : MigSlice → MigSlice) : (s.modMig n f).fw = s.fw := rfl

@[simp] theorem State.modPage_pending (s : State) (n : Nat) (f : Page → Page) : (s.modPage n f).pending = s.pending := rfl
@[simp] theorem State.modPage_out (s : State) (n : Nat) (f : Page → Page) : (s.modPage n f).out = s.out := rfl
@[simp] theorem State.modPage_freeDraws (s : State) (n : Nat) (f : Page → Page) : (s.modPage n f).freeDraws = s.freeDraws := rfl
@[simp] theorem State.modPage_cfg (s : State) (n : Nat) (f : Page → Page) : (s.modPage n f).cfg = s.cfg := rfl
@[simp] theorem State.modPage_tbc (s : State) (n : Nat) (f : Page → Page) : (s.modPage n f).tbc = s.tbc := rfl
@[simp] theorem State.modPage_ports (s : State) (n : Nat) (f : Page → Page) : (s.modPage n f).ports = s.ports := rfl
@[simp] theorem State.modPage_fns (s : State) (n : Nat) (f : Page → Page) : (s.modPage n f).fns = s.fns := rfl
@[simp] theorem State.modPage_mbx (s : State) (n : Nat) (f : Page → Page) : (s.modPage n f).mbx = s.mbx := rfl
@[simp] theorem State.modPage_pool (s : State) (n : Nat) (f : Page → Page) : (s.modPage n f).pool = { s.pool with pages := tabMod {} s.pool.pages n f } := rfl
@[simp] theorem State.modPage_cnd (s : State) (n : Nat) (f : Page → Page) : (s.modPage n f).cnd = s.cnd := rfl
@[simp] theorem State.modPage_tabLoads (s : State) (n : Nat) (f : Page → Page) : (s.modPage n f).tabLoads = s.tabLoads := rfl
@[simp] theorem State.modPage_dir (s : State) (n : Nat) (f : Page → Page) : (s.modPage n f).dir = s.dir := rfl
@[simp] theorem State.modPage_qos (s : State) (n : Nat) (f : Page → Page) : (s.modPage n f).qos = s.qos := rfl
@[simp] theorem State.modPage_drc (s : State) (n : Nat) (f : Page → Page) : (s.modPage n f).drc = s.drc := rfl
@[simp] theorem State.modPage_ecc (s : State) (n : Nat) (f : Page → Page) : (s.modPage n f).ecc = s.ecc := rfl
@[simp] theorem State.modPage_eng (s : State) (n : Nat) (f : Page → Page) : (s.modPage n f).eng = s.eng := rfl
@[simp] theorem State.modPage_fab (s : State) (n : Nat) (f : Page → Page) : (s.modPage n f).fab = s.fab := rfl
@[simp] theorem State.modPage_rst (s : State) (n : Nat) (f : Page → Page) : (s.modPage n f).rst = s.rst := rfl
@[simp] theorem State.modPage_clk (s : State) (n : Nat) (f : Page → Page) : (s.modPage n f).clk = s.clk := rfl
@[simp] theorem State.modPage_pwr (s : State) (n : Nat) (f : Page → Page) : (s.modPage n f).pwr = s.pwr := rfl
@[simp] theorem State.modPage_bst (s : State) (n : Nat) (f : Page → Page) : (s.modPage n f).bst = s.bst := rfl
@[simp] theorem State.modPage_fw (s : State) (n : Nat) (f : Page → Page) : (s.modPage n f).fw = s.fw := rfl

@[simp] theorem State.modDirReg_pending (s : State) (n : Nat) (f : DirSlice → DirSlice) : (s.modDirReg n f).pending = s.pending := rfl
@[simp] theorem State.modDirReg_out (s : State) (n : Nat) (f : DirSlice → DirSlice) : (s.modDirReg n f).out = s.out := rfl
@[simp] theorem State.modDirReg_freeDraws (s : State) (n : Nat) (f : DirSlice → DirSlice) : (s.modDirReg n f).freeDraws = s.freeDraws := rfl
@[simp] theorem State.modDirReg_cfg (s : State) (n : Nat) (f : DirSlice → DirSlice) : (s.modDirReg n f).cfg = s.cfg := rfl
@[simp] theorem State.modDirReg_tbc (s : State) (n : Nat) (f : DirSlice → DirSlice) : (s.modDirReg n f).tbc = s.tbc := rfl
@[simp] theorem State.modDirReg_ports (s : State) (n : Nat) (f : DirSlice → DirSlice) : (s.modDirReg n f).ports = s.ports := rfl
@[simp] theorem State.modDirReg_fns (s : State) (n : Nat) (f : DirSlice → DirSlice) : (s.modDirReg n f).fns = s.fns := rfl
@[simp] theorem State.modDirReg_mbx (s : State) (n : Nat) (f : DirSlice → DirSlice) : (s.modDirReg n f).mbx = s.mbx := rfl
@[simp] theorem State.modDirReg_pool (s : State) (n : Nat) (f : DirSlice → DirSlice) : (s.modDirReg n f).pool = s.pool := rfl
@[simp] theorem State.modDirReg_cnd (s : State) (n : Nat) (f : DirSlice → DirSlice) : (s.modDirReg n f).cnd = s.cnd := rfl
@[simp] theorem State.modDirReg_tabLoads (s : State) (n : Nat) (f : DirSlice → DirSlice) : (s.modDirReg n f).tabLoads = s.tabLoads := rfl
@[simp] theorem State.modDirReg_dir (s : State) (n : Nat) (f : DirSlice → DirSlice) : (s.modDirReg n f).dir = { s.dir with regs := tabMod {} s.dir.regs n f } := rfl
@[simp] theorem State.modDirReg_qos (s : State) (n : Nat) (f : DirSlice → DirSlice) : (s.modDirReg n f).qos = s.qos := rfl
@[simp] theorem State.modDirReg_drc (s : State) (n : Nat) (f : DirSlice → DirSlice) : (s.modDirReg n f).drc = s.drc := rfl
@[simp] theorem State.modDirReg_ecc (s : State) (n : Nat) (f : DirSlice → DirSlice) : (s.modDirReg n f).ecc = s.ecc := rfl
@[simp] theorem State.modDirReg_eng (s : State) (n : Nat) (f : DirSlice → DirSlice) : (s.modDirReg n f).eng = s.eng := rfl
@[simp] theorem State.modDirReg_fab (s : State) (n : Nat) (f : DirSlice → DirSlice) : (s.modDirReg n f).fab = s.fab := rfl
@[simp] theorem State.modDirReg_rst (s : State) (n : Nat) (f : DirSlice → DirSlice) : (s.modDirReg n f).rst = s.rst := rfl
@[simp] theorem State.modDirReg_clk (s : State) (n : Nat) (f : DirSlice → DirSlice) : (s.modDirReg n f).clk = s.clk := rfl
@[simp] theorem State.modDirReg_pwr (s : State) (n : Nat) (f : DirSlice → DirSlice) : (s.modDirReg n f).pwr = s.pwr := rfl
@[simp] theorem State.modDirReg_bst (s : State) (n : Nat) (f : DirSlice → DirSlice) : (s.modDirReg n f).bst = s.bst := rfl
@[simp] theorem State.modDirReg_fw (s : State) (n : Nat) (f : DirSlice → DirSlice) : (s.modDirReg n f).fw = s.fw := rfl

@[simp] theorem State.modDrcReg_pending (s : State) (n : Nat) (f : DrcSlice → DrcSlice) : (s.modDrcReg n f).pending = s.pending := rfl
@[simp] theorem State.modDrcReg_out (s : State) (n : Nat) (f : DrcSlice → DrcSlice) : (s.modDrcReg n f).out = s.out := rfl
@[simp] theorem State.modDrcReg_freeDraws (s : State) (n : Nat) (f : DrcSlice → DrcSlice) : (s.modDrcReg n f).freeDraws = s.freeDraws := rfl
@[simp] theorem State.modDrcReg_cfg (s : State) (n : Nat) (f : DrcSlice → DrcSlice) : (s.modDrcReg n f).cfg = s.cfg := rfl
@[simp] theorem State.modDrcReg_tbc (s : State) (n : Nat) (f : DrcSlice → DrcSlice) : (s.modDrcReg n f).tbc = s.tbc := rfl
@[simp] theorem State.modDrcReg_ports (s : State) (n : Nat) (f : DrcSlice → DrcSlice) : (s.modDrcReg n f).ports = s.ports := rfl
@[simp] theorem State.modDrcReg_fns (s : State) (n : Nat) (f : DrcSlice → DrcSlice) : (s.modDrcReg n f).fns = s.fns := rfl
@[simp] theorem State.modDrcReg_mbx (s : State) (n : Nat) (f : DrcSlice → DrcSlice) : (s.modDrcReg n f).mbx = s.mbx := rfl
@[simp] theorem State.modDrcReg_pool (s : State) (n : Nat) (f : DrcSlice → DrcSlice) : (s.modDrcReg n f).pool = s.pool := rfl
@[simp] theorem State.modDrcReg_cnd (s : State) (n : Nat) (f : DrcSlice → DrcSlice) : (s.modDrcReg n f).cnd = s.cnd := rfl
@[simp] theorem State.modDrcReg_tabLoads (s : State) (n : Nat) (f : DrcSlice → DrcSlice) : (s.modDrcReg n f).tabLoads = s.tabLoads := rfl
@[simp] theorem State.modDrcReg_dir (s : State) (n : Nat) (f : DrcSlice → DrcSlice) : (s.modDrcReg n f).dir = s.dir := rfl
@[simp] theorem State.modDrcReg_qos (s : State) (n : Nat) (f : DrcSlice → DrcSlice) : (s.modDrcReg n f).qos = s.qos := rfl
@[simp] theorem State.modDrcReg_drc (s : State) (n : Nat) (f : DrcSlice → DrcSlice) : (s.modDrcReg n f).drc = { s.drc with regs := tabMod {} s.drc.regs n f } := rfl
@[simp] theorem State.modDrcReg_ecc (s : State) (n : Nat) (f : DrcSlice → DrcSlice) : (s.modDrcReg n f).ecc = s.ecc := rfl
@[simp] theorem State.modDrcReg_eng (s : State) (n : Nat) (f : DrcSlice → DrcSlice) : (s.modDrcReg n f).eng = s.eng := rfl
@[simp] theorem State.modDrcReg_fab (s : State) (n : Nat) (f : DrcSlice → DrcSlice) : (s.modDrcReg n f).fab = s.fab := rfl
@[simp] theorem State.modDrcReg_rst (s : State) (n : Nat) (f : DrcSlice → DrcSlice) : (s.modDrcReg n f).rst = s.rst := rfl
@[simp] theorem State.modDrcReg_clk (s : State) (n : Nat) (f : DrcSlice → DrcSlice) : (s.modDrcReg n f).clk = s.clk := rfl
@[simp] theorem State.modDrcReg_pwr (s : State) (n : Nat) (f : DrcSlice → DrcSlice) : (s.modDrcReg n f).pwr = s.pwr := rfl
@[simp] theorem State.modDrcReg_bst (s : State) (n : Nat) (f : DrcSlice → DrcSlice) : (s.modDrcReg n f).bst = s.bst := rfl
@[simp] theorem State.modDrcReg_fw (s : State) (n : Nat) (f : DrcSlice → DrcSlice) : (s.modDrcReg n f).fw = s.fw := rfl

@[simp] theorem State.modEccReg_pending (s : State) (n : Nat) (f : EccSlice → EccSlice) : (s.modEccReg n f).pending = s.pending := rfl
@[simp] theorem State.modEccReg_out (s : State) (n : Nat) (f : EccSlice → EccSlice) : (s.modEccReg n f).out = s.out := rfl
@[simp] theorem State.modEccReg_freeDraws (s : State) (n : Nat) (f : EccSlice → EccSlice) : (s.modEccReg n f).freeDraws = s.freeDraws := rfl
@[simp] theorem State.modEccReg_cfg (s : State) (n : Nat) (f : EccSlice → EccSlice) : (s.modEccReg n f).cfg = s.cfg := rfl
@[simp] theorem State.modEccReg_tbc (s : State) (n : Nat) (f : EccSlice → EccSlice) : (s.modEccReg n f).tbc = s.tbc := rfl
@[simp] theorem State.modEccReg_ports (s : State) (n : Nat) (f : EccSlice → EccSlice) : (s.modEccReg n f).ports = s.ports := rfl
@[simp] theorem State.modEccReg_fns (s : State) (n : Nat) (f : EccSlice → EccSlice) : (s.modEccReg n f).fns = s.fns := rfl
@[simp] theorem State.modEccReg_mbx (s : State) (n : Nat) (f : EccSlice → EccSlice) : (s.modEccReg n f).mbx = s.mbx := rfl
@[simp] theorem State.modEccReg_pool (s : State) (n : Nat) (f : EccSlice → EccSlice) : (s.modEccReg n f).pool = s.pool := rfl
@[simp] theorem State.modEccReg_cnd (s : State) (n : Nat) (f : EccSlice → EccSlice) : (s.modEccReg n f).cnd = s.cnd := rfl
@[simp] theorem State.modEccReg_tabLoads (s : State) (n : Nat) (f : EccSlice → EccSlice) : (s.modEccReg n f).tabLoads = s.tabLoads := rfl
@[simp] theorem State.modEccReg_dir (s : State) (n : Nat) (f : EccSlice → EccSlice) : (s.modEccReg n f).dir = s.dir := rfl
@[simp] theorem State.modEccReg_qos (s : State) (n : Nat) (f : EccSlice → EccSlice) : (s.modEccReg n f).qos = s.qos := rfl
@[simp] theorem State.modEccReg_drc (s : State) (n : Nat) (f : EccSlice → EccSlice) : (s.modEccReg n f).drc = s.drc := rfl
@[simp] theorem State.modEccReg_ecc (s : State) (n : Nat) (f : EccSlice → EccSlice) : (s.modEccReg n f).ecc = { s.ecc with regs := tabMod {} s.ecc.regs n f } := rfl
@[simp] theorem State.modEccReg_eng (s : State) (n : Nat) (f : EccSlice → EccSlice) : (s.modEccReg n f).eng = s.eng := rfl
@[simp] theorem State.modEccReg_fab (s : State) (n : Nat) (f : EccSlice → EccSlice) : (s.modEccReg n f).fab = s.fab := rfl
@[simp] theorem State.modEccReg_rst (s : State) (n : Nat) (f : EccSlice → EccSlice) : (s.modEccReg n f).rst = s.rst := rfl
@[simp] theorem State.modEccReg_clk (s : State) (n : Nat) (f : EccSlice → EccSlice) : (s.modEccReg n f).clk = s.clk := rfl
@[simp] theorem State.modEccReg_pwr (s : State) (n : Nat) (f : EccSlice → EccSlice) : (s.modEccReg n f).pwr = s.pwr := rfl
@[simp] theorem State.modEccReg_bst (s : State) (n : Nat) (f : EccSlice → EccSlice) : (s.modEccReg n f).bst = s.bst := rfl
@[simp] theorem State.modEccReg_fw (s : State) (n : Nat) (f : EccSlice → EccSlice) : (s.modEccReg n f).fw = s.fw := rfl

@[simp] theorem State.modSl_pending (s : State) (n : Nat) (f : SliceRst → SliceRst) : (s.modSl n f).pending = s.pending := rfl
@[simp] theorem State.modSl_out (s : State) (n : Nat) (f : SliceRst → SliceRst) : (s.modSl n f).out = s.out := rfl
@[simp] theorem State.modSl_freeDraws (s : State) (n : Nat) (f : SliceRst → SliceRst) : (s.modSl n f).freeDraws = s.freeDraws := rfl
@[simp] theorem State.modSl_cfg (s : State) (n : Nat) (f : SliceRst → SliceRst) : (s.modSl n f).cfg = s.cfg := rfl
@[simp] theorem State.modSl_tbc (s : State) (n : Nat) (f : SliceRst → SliceRst) : (s.modSl n f).tbc = s.tbc := rfl
@[simp] theorem State.modSl_ports (s : State) (n : Nat) (f : SliceRst → SliceRst) : (s.modSl n f).ports = s.ports := rfl
@[simp] theorem State.modSl_fns (s : State) (n : Nat) (f : SliceRst → SliceRst) : (s.modSl n f).fns = s.fns := rfl
@[simp] theorem State.modSl_mbx (s : State) (n : Nat) (f : SliceRst → SliceRst) : (s.modSl n f).mbx = s.mbx := rfl
@[simp] theorem State.modSl_pool (s : State) (n : Nat) (f : SliceRst → SliceRst) : (s.modSl n f).pool = s.pool := rfl
@[simp] theorem State.modSl_cnd (s : State) (n : Nat) (f : SliceRst → SliceRst) : (s.modSl n f).cnd = s.cnd := rfl
@[simp] theorem State.modSl_tabLoads (s : State) (n : Nat) (f : SliceRst → SliceRst) : (s.modSl n f).tabLoads = s.tabLoads := rfl
@[simp] theorem State.modSl_dir (s : State) (n : Nat) (f : SliceRst → SliceRst) : (s.modSl n f).dir = s.dir := rfl
@[simp] theorem State.modSl_qos (s : State) (n : Nat) (f : SliceRst → SliceRst) : (s.modSl n f).qos = s.qos := rfl
@[simp] theorem State.modSl_drc (s : State) (n : Nat) (f : SliceRst → SliceRst) : (s.modSl n f).drc = s.drc := rfl
@[simp] theorem State.modSl_ecc (s : State) (n : Nat) (f : SliceRst → SliceRst) : (s.modSl n f).ecc = s.ecc := rfl
@[simp] theorem State.modSl_eng (s : State) (n : Nat) (f : SliceRst → SliceRst) : (s.modSl n f).eng = s.eng := rfl
@[simp] theorem State.modSl_fab (s : State) (n : Nat) (f : SliceRst → SliceRst) : (s.modSl n f).fab = s.fab := rfl
@[simp] theorem State.modSl_rst (s : State) (n : Nat) (f : SliceRst → SliceRst) : (s.modSl n f).rst = { s.rst with slices := tabMod {} s.rst.slices n f } := rfl
@[simp] theorem State.modSl_clk (s : State) (n : Nat) (f : SliceRst → SliceRst) : (s.modSl n f).clk = s.clk := rfl
@[simp] theorem State.modSl_pwr (s : State) (n : Nat) (f : SliceRst → SliceRst) : (s.modSl n f).pwr = s.pwr := rfl
@[simp] theorem State.modSl_bst (s : State) (n : Nat) (f : SliceRst → SliceRst) : (s.modSl n f).bst = s.bst := rfl
@[simp] theorem State.modSl_fw (s : State) (n : Nat) (f : SliceRst → SliceRst) : (s.modSl n f).fw = s.fw := rfl

@[simp] theorem State.modCk_pending (s : State) (n : Nat) (f : ClkSlice → ClkSlice) : (s.modCk n f).pending = s.pending := rfl
@[simp] theorem State.modCk_out (s : State) (n : Nat) (f : ClkSlice → ClkSlice) : (s.modCk n f).out = s.out := rfl
@[simp] theorem State.modCk_freeDraws (s : State) (n : Nat) (f : ClkSlice → ClkSlice) : (s.modCk n f).freeDraws = s.freeDraws := rfl
@[simp] theorem State.modCk_cfg (s : State) (n : Nat) (f : ClkSlice → ClkSlice) : (s.modCk n f).cfg = s.cfg := rfl
@[simp] theorem State.modCk_tbc (s : State) (n : Nat) (f : ClkSlice → ClkSlice) : (s.modCk n f).tbc = s.tbc := rfl
@[simp] theorem State.modCk_ports (s : State) (n : Nat) (f : ClkSlice → ClkSlice) : (s.modCk n f).ports = s.ports := rfl
@[simp] theorem State.modCk_fns (s : State) (n : Nat) (f : ClkSlice → ClkSlice) : (s.modCk n f).fns = s.fns := rfl
@[simp] theorem State.modCk_mbx (s : State) (n : Nat) (f : ClkSlice → ClkSlice) : (s.modCk n f).mbx = s.mbx := rfl
@[simp] theorem State.modCk_pool (s : State) (n : Nat) (f : ClkSlice → ClkSlice) : (s.modCk n f).pool = s.pool := rfl
@[simp] theorem State.modCk_cnd (s : State) (n : Nat) (f : ClkSlice → ClkSlice) : (s.modCk n f).cnd = s.cnd := rfl
@[simp] theorem State.modCk_tabLoads (s : State) (n : Nat) (f : ClkSlice → ClkSlice) : (s.modCk n f).tabLoads = s.tabLoads := rfl
@[simp] theorem State.modCk_dir (s : State) (n : Nat) (f : ClkSlice → ClkSlice) : (s.modCk n f).dir = s.dir := rfl
@[simp] theorem State.modCk_qos (s : State) (n : Nat) (f : ClkSlice → ClkSlice) : (s.modCk n f).qos = s.qos := rfl
@[simp] theorem State.modCk_drc (s : State) (n : Nat) (f : ClkSlice → ClkSlice) : (s.modCk n f).drc = s.drc := rfl
@[simp] theorem State.modCk_ecc (s : State) (n : Nat) (f : ClkSlice → ClkSlice) : (s.modCk n f).ecc = s.ecc := rfl
@[simp] theorem State.modCk_eng (s : State) (n : Nat) (f : ClkSlice → ClkSlice) : (s.modCk n f).eng = s.eng := rfl
@[simp] theorem State.modCk_fab (s : State) (n : Nat) (f : ClkSlice → ClkSlice) : (s.modCk n f).fab = s.fab := rfl
@[simp] theorem State.modCk_rst (s : State) (n : Nat) (f : ClkSlice → ClkSlice) : (s.modCk n f).rst = s.rst := rfl
@[simp] theorem State.modCk_clk (s : State) (n : Nat) (f : ClkSlice → ClkSlice) : (s.modCk n f).clk = { s.clk with slices := tabMod {} s.clk.slices n f } := rfl
@[simp] theorem State.modCk_pwr (s : State) (n : Nat) (f : ClkSlice → ClkSlice) : (s.modCk n f).pwr = s.pwr := rfl
@[simp] theorem State.modCk_bst (s : State) (n : Nat) (f : ClkSlice → ClkSlice) : (s.modCk n f).bst = s.bst := rfl
@[simp] theorem State.modCk_fw (s : State) (n : Nat) (f : ClkSlice → ClkSlice) : (s.modCk n f).fw = s.fw := rfl

@[simp] theorem State.emit_pending (s : State) (o : Out) : (s.emit o).pending = s.pending := rfl
@[simp] theorem State.emit_out (s : State) (o : Out) : (s.emit o).out = o :: s.out := rfl
@[simp] theorem State.emit_freeDraws (s : State) (o : Out) : (s.emit o).freeDraws = s.freeDraws := rfl
@[simp] theorem State.emit_cfg (s : State) (o : Out) : (s.emit o).cfg = s.cfg := rfl
@[simp] theorem State.emit_tbc (s : State) (o : Out) : (s.emit o).tbc = s.tbc := rfl
@[simp] theorem State.emit_ports (s : State) (o : Out) : (s.emit o).ports = s.ports := rfl
@[simp] theorem State.emit_fns (s : State) (o : Out) : (s.emit o).fns = s.fns := rfl
@[simp] theorem State.emit_mbx (s : State) (o : Out) : (s.emit o).mbx = s.mbx := rfl
@[simp] theorem State.emit_pool (s : State) (o : Out) : (s.emit o).pool = s.pool := rfl
@[simp] theorem State.emit_cnd (s : State) (o : Out) : (s.emit o).cnd = s.cnd := rfl
@[simp] theorem State.emit_tabLoads (s : State) (o : Out) : (s.emit o).tabLoads = s.tabLoads := rfl
@[simp] theorem State.emit_dir (s : State) (o : Out) : (s.emit o).dir = s.dir := rfl
@[simp] theorem State.emit_qos (s : State) (o : Out) : (s.emit o).qos = s.qos := rfl
@[simp] theorem State.emit_drc (s : State) (o : Out) : (s.emit o).drc = s.drc := rfl
@[simp] theorem State.emit_ecc (s : State) (o : Out) : (s.emit o).ecc = s.ecc := rfl
@[simp] theorem State.emit_eng (s : State) (o : Out) : (s.emit o).eng = s.eng := rfl
@[simp] theorem State.emit_fab (s : State) (o : Out) : (s.emit o).fab = s.fab := rfl
@[simp] theorem State.emit_rst (s : State) (o : Out) : (s.emit o).rst = s.rst := rfl
@[simp] theorem State.emit_clk (s : State) (o : Out) : (s.emit o).clk = s.clk := rfl
@[simp] theorem State.emit_pwr (s : State) (o : Out) : (s.emit o).pwr = s.pwr := rfl
@[simp] theorem State.emit_bst (s : State) (o : Out) : (s.emit o).bst = s.bst := rfl
@[simp] theorem State.emit_fw (s : State) (o : Out) : (s.emit o).fw = s.fw := rfl

@[simp] theorem State.until_pending (s : State) (n : Nat) : (s.until n).pending = s.pending := rfl
@[simp] theorem State.until_out (s : State) (n : Nat) : (s.until n).out = s.out := rfl
@[simp] theorem State.until_freeDraws (s : State) (n : Nat) : (s.until n).freeDraws = s.freeDraws := rfl
@[simp] theorem State.until_cfg (s : State) (n : Nat) : (s.until n).cfg = s.cfg := rfl
@[simp] theorem State.until_tbc (s : State) (n : Nat) : (s.until n).tbc = max s.tbc n := rfl
@[simp] theorem State.until_ports (s : State) (n : Nat) : (s.until n).ports = s.ports := rfl
@[simp] theorem State.until_fns (s : State) (n : Nat) : (s.until n).fns = s.fns := rfl
@[simp] theorem State.until_mbx (s : State) (n : Nat) : (s.until n).mbx = s.mbx := rfl
@[simp] theorem State.until_pool (s : State) (n : Nat) : (s.until n).pool = s.pool := rfl
@[simp] theorem State.until_cnd (s : State) (n : Nat) : (s.until n).cnd = s.cnd := rfl
@[simp] theorem State.until_tabLoads (s : State) (n : Nat) : (s.until n).tabLoads = s.tabLoads := rfl
@[simp] theorem State.until_dir (s : State) (n : Nat) : (s.until n).dir = s.dir := rfl
@[simp] theorem State.until_qos (s : State) (n : Nat) : (s.until n).qos = s.qos := rfl
@[simp] theorem State.until_drc (s : State) (n : Nat) : (s.until n).drc = s.drc := rfl
@[simp] theorem State.until_ecc (s : State) (n : Nat) : (s.until n).ecc = s.ecc := rfl
@[simp] theorem State.until_eng (s : State) (n : Nat) : (s.until n).eng = s.eng := rfl
@[simp] theorem State.until_fab (s : State) (n : Nat) : (s.until n).fab = s.fab := rfl
@[simp] theorem State.until_rst (s : State) (n : Nat) : (s.until n).rst = s.rst := rfl
@[simp] theorem State.until_clk (s : State) (n : Nat) : (s.until n).clk = s.clk := rfl
@[simp] theorem State.until_pwr (s : State) (n : Nat) : (s.until n).pwr = s.pwr := rfl
@[simp] theorem State.until_bst (s : State) (n : Nat) : (s.until n).bst = s.bst := rfl
@[simp] theorem State.until_fw (s : State) (n : Nat) : (s.until n).fw = s.fw := rfl

@[simp] theorem State.modIface_pending (s : State) (v : Iface) (f : IfaceSt → IfaceSt) : (s.modIface v f).pending = s.pending := rfl
@[simp] theorem State.modIface_out (s : State) (v : Iface) (f : IfaceSt → IfaceSt) : (s.modIface v f).out = s.out := rfl
@[simp] theorem State.modIface_freeDraws (s : State) (v : Iface) (f : IfaceSt → IfaceSt) : (s.modIface v f).freeDraws = s.freeDraws := rfl
@[simp] theorem State.modIface_cfg (s : State) (v : Iface) (f : IfaceSt → IfaceSt) : (s.modIface v f).cfg = s.cfg := rfl
@[simp] theorem State.modIface_tbc (s : State) (v : Iface) (f : IfaceSt → IfaceSt) : (s.modIface v f).tbc = s.tbc := rfl
@[simp] theorem State.modIface_ports (s : State) (v : Iface) (f : IfaceSt → IfaceSt) : (s.modIface v f).ports = s.ports := rfl
@[simp] theorem State.modIface_fns (s : State) (v : Iface) (f : IfaceSt → IfaceSt) : (s.modIface v f).fns = s.fns := rfl
@[simp] theorem State.modIface_pool (s : State) (v : Iface) (f : IfaceSt → IfaceSt) : (s.modIface v f).pool = s.pool := rfl
@[simp] theorem State.modIface_cnd (s : State) (v : Iface) (f : IfaceSt → IfaceSt) : (s.modIface v f).cnd = s.cnd := rfl
@[simp] theorem State.modIface_tabLoads (s : State) (v : Iface) (f : IfaceSt → IfaceSt) : (s.modIface v f).tabLoads = s.tabLoads := rfl
@[simp] theorem State.modIface_dir (s : State) (v : Iface) (f : IfaceSt → IfaceSt) : (s.modIface v f).dir = s.dir := rfl
@[simp] theorem State.modIface_qos (s : State) (v : Iface) (f : IfaceSt → IfaceSt) : (s.modIface v f).qos = s.qos := rfl
@[simp] theorem State.modIface_drc (s : State) (v : Iface) (f : IfaceSt → IfaceSt) : (s.modIface v f).drc = s.drc := rfl
@[simp] theorem State.modIface_ecc (s : State) (v : Iface) (f : IfaceSt → IfaceSt) : (s.modIface v f).ecc = s.ecc := rfl
@[simp] theorem State.modIface_eng (s : State) (v : Iface) (f : IfaceSt → IfaceSt) : (s.modIface v f).eng = s.eng := rfl
@[simp] theorem State.modIface_fab (s : State) (v : Iface) (f : IfaceSt → IfaceSt) : (s.modIface v f).fab = s.fab := rfl
@[simp] theorem State.modIface_rst (s : State) (v : Iface) (f : IfaceSt → IfaceSt) : (s.modIface v f).rst = s.rst := rfl
@[simp] theorem State.modIface_clk (s : State) (v : Iface) (f : IfaceSt → IfaceSt) : (s.modIface v f).clk = s.clk := rfl
@[simp] theorem State.modIface_pwr (s : State) (v : Iface) (f : IfaceSt → IfaceSt) : (s.modIface v f).pwr = s.pwr := rfl
@[simp] theorem State.modIface_bst (s : State) (v : Iface) (f : IfaceSt → IfaceSt) : (s.modIface v f).bst = s.bst := rfl
@[simp] theorem State.modIface_fw (s : State) (v : Iface) (f : IfaceSt → IfaceSt) : (s.modIface v f).fw = s.fw := rfl

@[simp] theorem State.modChan_pending (s : State) (c : Ctl) (f : Chan → Chan) : (s.modChan c f).pending = s.pending := rfl
@[simp] theorem State.modChan_out (s : State) (c : Ctl) (f : Chan → Chan) : (s.modChan c f).out = s.out := rfl
@[simp] theorem State.modChan_freeDraws (s : State) (c : Ctl) (f : Chan → Chan) : (s.modChan c f).freeDraws = s.freeDraws := rfl
@[simp] theorem State.modChan_cfg (s : State) (c : Ctl) (f : Chan → Chan) : (s.modChan c f).cfg = s.cfg := rfl
@[simp] theorem State.modChan_tbc (s : State) (c : Ctl) (f : Chan → Chan) : (s.modChan c f).tbc = s.tbc := rfl
@[simp] theorem State.modChan_ports (s : State) (c : Ctl) (f : Chan → Chan) : (s.modChan c f).ports = s.ports := rfl
@[simp] theorem State.modChan_fns (s : State) (c : Ctl) (f : Chan → Chan) : (s.modChan c f).fns = s.fns := rfl
@[simp] theorem State.modChan_mbx (s : State) (c : Ctl) (f : Chan → Chan) : (s.modChan c f).mbx = s.mbx := rfl
@[simp] theorem State.modChan_pool (s : State) (c : Ctl) (f : Chan → Chan) : (s.modChan c f).pool = s.pool := rfl
@[simp] theorem State.modChan_cnd (s : State) (c : Ctl) (f : Chan → Chan) : (s.modChan c f).cnd = s.cnd := rfl
@[simp] theorem State.modChan_tabLoads (s : State) (c : Ctl) (f : Chan → Chan) : (s.modChan c f).tabLoads = s.tabLoads := rfl
@[simp] theorem State.modChan_dir (s : State) (c : Ctl) (f : Chan → Chan) : (s.modChan c f).dir = s.dir := rfl
@[simp] theorem State.modChan_qos (s : State) (c : Ctl) (f : Chan → Chan) : (s.modChan c f).qos = s.qos := rfl
@[simp] theorem State.modChan_ecc (s : State) (c : Ctl) (f : Chan → Chan) : (s.modChan c f).ecc = s.ecc := rfl
@[simp] theorem State.modChan_eng (s : State) (c : Ctl) (f : Chan → Chan) : (s.modChan c f).eng = s.eng := rfl
@[simp] theorem State.modChan_fab (s : State) (c : Ctl) (f : Chan → Chan) : (s.modChan c f).fab = s.fab := rfl
@[simp] theorem State.modChan_rst (s : State) (c : Ctl) (f : Chan → Chan) : (s.modChan c f).rst = s.rst := rfl
@[simp] theorem State.modChan_clk (s : State) (c : Ctl) (f : Chan → Chan) : (s.modChan c f).clk = s.clk := rfl
@[simp] theorem State.modChan_pwr (s : State) (c : Ctl) (f : Chan → Chan) : (s.modChan c f).pwr = s.pwr := rfl
@[simp] theorem State.modChan_bst (s : State) (c : Ctl) (f : Chan → Chan) : (s.modChan c f).bst = s.bst := rfl
@[simp] theorem State.modChan_fw (s : State) (c : Ctl) (f : Chan → Chan) : (s.modChan c f).fw = s.fw := rfl

@[simp] theorem State.draw_pending (s : State) : s.draw.2.pending = s.pending := rfl
@[simp] theorem State.draw_out (s : State) : s.draw.2.out = s.out := rfl
@[simp] theorem State.draw_freeDraws (s : State) : s.draw.2.freeDraws = s.freeDraws + 1 := rfl
@[simp] theorem State.draw_cfg (s : State) : s.draw.2.cfg = s.cfg := rfl
@[simp] theorem State.draw_tbc (s : State) : s.draw.2.tbc = s.tbc := rfl
@[simp] theorem State.draw_ports (s : State) : s.draw.2.ports = s.ports := rfl
@[simp] theorem State.draw_fns (s : State) : s.draw.2.fns = s.fns := rfl
@[simp] theorem State.draw_mbx (s : State) : s.draw.2.mbx = s.mbx := rfl
@[simp] theorem State.draw_pool (s : State) : s.draw.2.pool = s.pool := rfl
@[simp] theorem State.draw_cnd (s : State) : s.draw.2.cnd = s.cnd := rfl
@[simp] theorem State.draw_tabLoads (s : State) : s.draw.2.tabLoads = s.tabLoads := rfl
@[simp] theorem State.draw_dir (s : State) : s.draw.2.dir = s.dir := rfl
@[simp] theorem State.draw_qos (s : State) : s.draw.2.qos = s.qos := rfl
@[simp] theorem State.draw_drc (s : State) : s.draw.2.drc = s.drc := rfl
@[simp] theorem State.draw_ecc (s : State) : s.draw.2.ecc = s.ecc := rfl
@[simp] theorem State.draw_eng (s : State) : s.draw.2.eng = s.eng := rfl
@[simp] theorem State.draw_fab (s : State) : s.draw.2.fab = s.fab := rfl
@[simp] theorem State.draw_rst (s : State) : s.draw.2.rst = s.rst := rfl
@[simp] theorem State.draw_clk (s : State) : s.draw.2.clk = s.clk := rfl
@[simp] theorem State.draw_pwr (s : State) : s.draw.2.pwr = s.pwr := rfl
@[simp] theorem State.draw_bst (s : State) : s.draw.2.bst = s.bst := rfl
@[simp] theorem State.draw_fw (s : State) : s.draw.2.fw = s.fw := rfl
@[simp] theorem State.draw_value (s : State) : s.draw.1 = Config.freeValue s.freeDraws := rfl

end Sys2Proof.Machine
end

