-- ==== Sys2Proof/Laws/Tab.lean ====
section
/-! SUPPORT. Sparse tables: what a table reads after an entry is set or changed. -/
namespace Sys2Proof.Machine
open Sys2Proof

variable {α : Type}

@[simp] theorem tabFind_tabSet_same (t : Tab α) (i : Nat) (v : α) : tabFind (tabSet t i v) i = some v := by
  induction t with
  | nil => simp [tabSet, tabFind]
  | cons h t ih =>
    obtain ⟨k, w⟩ := h
    simp only [tabSet]
    split
    · simp [tabFind]
    · split
      · simp [tabFind]
      · simp [tabFind, *]

theorem tabFind_tabSet_other (t : Tab α) (i j : Nat) (v : α) (h : i ≠ j) : tabFind (tabSet t i v) j = tabFind t j := by
  induction t with
  | nil => simp [tabSet, tabFind, h]
  | cons p t ih =>
    obtain ⟨k, w⟩ := p
    simp only [tabSet]
    split
    · simp only [tabFind, h, if_false]
      split
      · rw [if_neg (by omega), if_pos (by omega)]
      · rfl
    · split
      · subst k; simp [tabFind, h]
      · simp only [tabFind, ih]

@[simp] theorem tabGet_tabSet_same (d : α) (t : Tab α) (i : Nat) (v : α) : tabGet d (tabSet t i v) i = v := by
  simp [tabGet]

theorem tabGet_tabSet_other (d : α) (t : Tab α) (i j : Nat) (v : α) (h : i ≠ j) : tabGet d (tabSet t i v) j = tabGet d t j := by
  simp [tabGet, tabFind_tabSet_other t i j v h]

@[simp] theorem tabGet_tabMod_same (d : α) (t : Tab α) (i : Nat) (f : α → α) : tabGet d (tabMod d t i f) i = f (tabGet d t i) := by
  simp [tabMod]

theorem tabGet_tabMod_other (d e : α) (t : Tab α) (i j : Nat) (f : α → α) (h : i ≠ j) :
    tabGet e (tabMod d t i f) j = tabGet e t j := tabGet_tabSet_other e t i j _ h

@[simp] theorem tabGet_nil (d : α) (i : Nat) : tabGet d [] i = d := rfl

/-! ### The accessors of State after the changes of State -/

@[simp] theorem State.port_modPort (s : State) (l : Nat) (f : Port → Port) : (s.modPort l f).port l = f (s.port l) :=
  tabGet_tabMod_same ({} : Port) s.ports l f
theorem State.port_modPort_other (s : State) (l k : Nat) (f : Port → Port) (h : l ≠ k) : (s.modPort l f).port k = s.port k :=
  tabGet_tabMod_other ({} : Port) ({} : Port) s.ports l k f h
@[simp] theorem State.fn_modFn (s : State) (g : Func) (f : Fn → Fn) : (s.modFn g f).fn g = f (s.fn g) :=
  tabGet_tabMod_same ({} : Fn) s.fns (funcKey g) f
theorem State.fn_modFn_other (s : State) (g k : Func) (f : Fn → Fn) (h : funcKey g ≠ funcKey k) : (s.modFn g f).fn k = s.fn k :=
  tabGet_tabMod_other ({} : Fn) ({} : Fn) s.fns (funcKey g) (funcKey k) f h
@[simp] theorem State.mig_modMig (s : State) (n : Nat) (f : MigSlice → MigSlice) : (s.modMig n f).mig n = f (s.mig n) :=
  tabGet_tabMod_same ({} : MigSlice) s.pool.mig n f
@[simp] theorem State.cn_modCnd (s : State) (n : Nat) (f : Cnd → Cnd) : (s.modCnd n f).cn n = f (s.cn n) :=
  tabGet_tabMod_same ({} : Cnd) s.cnd n f
@[simp] theorem State.dirReg_modDirReg (s : State) (n : Nat) (f : DirSlice → DirSlice) : (s.modDirReg n f).dirReg n = f (s.dirReg n) :=
  tabGet_tabMod_same ({} : DirSlice) s.dir.regs n f
@[simp] theorem State.drcReg_modDrcReg (s : State) (n : Nat) (f : DrcSlice → DrcSlice) : (s.modDrcReg n f).drcReg n = f (s.drcReg n) :=
  tabGet_tabMod_same ({} : DrcSlice) s.drc.regs n f
@[simp] theorem State.eccReg_modEccReg (s : State) (n : Nat) (f : EccSlice → EccSlice) : (s.modEccReg n f).eccReg n = f (s.eccReg n) :=
  tabGet_tabMod_same ({} : EccSlice) s.ecc.regs n f
@[simp] theorem State.sl_modSl (s : State) (n : Nat) (f : SliceRst → SliceRst) : (s.modSl n f).sl n = f (s.sl n) :=
  tabGet_tabMod_same ({} : SliceRst) s.rst.slices n f
@[simp] theorem State.ck_modCk (s : State) (n : Nat) (f : ClkSlice → ClkSlice) : (s.modCk n f).ck n = f (s.ck n) :=
  tabGet_tabMod_same ({} : ClkSlice) s.clk.slices n f
@[simp] theorem State.page_modPage (s : State) (n : Nat) (f : Page → Page) : (s.modPage n f).page n = f (s.page n) :=
  tabGet_tabMod_same ({} : Page) s.pool.pages n f
theorem State.page_modPage_other (s : State) (n k : Nat) (f : Page → Page) (h : n ≠ k) : (s.modPage n f).page k = s.page k :=
  tabGet_tabMod_other ({} : Page) ({} : Page) s.pool.pages n k f h

/-- Keys of functions are the functions': PF0 below 8, PF1 from 8 to 15 on the ports that exist, VFs from 16. -/
theorem funcKey_vf_injective (t u : Nat) : funcKey (.vf t) = funcKey (.vf u) → t = u := by simp [funcKey]

end Sys2Proof.Machine
end

