-- ==== Sys2Proof/Laws/Ops.lean ====
section
/-! SUPPORT. What the shared operations can do: for each, a lemma that names every field it may change, the fields it
leaves as they are, and its outcomes. -/
namespace Sys2Proof.Machine
open Sys2Proof

/-! ### Frames -/

theorem State.send_frame (s : State) (l : Nat) (o : Out) : s.send l o = { s with out := (s.send l o).out } := by
  unfold State.send; split <;> rfl

theorem State.dropIo_frame (s : State) (l : Nat) : s.dropIo l = { s with ports := (s.dropIo l).ports } := by
  unfold State.dropIo; split <;> rfl

theorem State.touch_frame (s : State) (f : Func) : s.touch f = { s with fns := (s.touch f).fns } := rfl

theorem State.signal_frame (s : State) (f : Func) (v : Nat) :
    s.signal f v = { s with fns := (s.signal f v).fns, out := (s.signal f v).out } := by
  unfold State.signal; split
  · rfl
  · split <;> rfl

theorem State.release_frame (s : State) (f : Func) (v : Nat) :
    s.release f v = { s with fns := (s.release f v).fns, out := (s.release f v).out } := by
  unfold State.release; split <;> rfl

/-- A fold of operations that change only functions and messages changes only those. -/
theorem State.foldl_frame {β : Type} (g : State → β → State) (h : ∀ s b, g s b = { s with fns := (g s b).fns, out := (g s b).out })
    (l : List β) (s : State) : l.foldl g s = { s with fns := (l.foldl g s).fns, out := (l.foldl g s).out } := by
  induction l generalizing s with
  | nil => rfl
  | cons b l ih =>
    simp only [List.foldl_cons]
    rw [ih (g s b), h s b]

theorem State.signalPf0_frame (s : State) (v : Nat) :
    s.signalPf0 v = { s with fns := (s.signalPf0 v).fns, out := (s.signalPf0 v).out } :=
  State.foldl_frame _ (fun s l => State.signal_frame s (.pf0 l) v) _ s

theorem State.signalPf1_frame (s : State) (v : Nat) :
    s.signalPf1 v = { s with fns := (s.signalPf1 v).fns, out := (s.signalPf1 v).out } :=
  State.foldl_frame _ (fun s p => State.signal_frame s (.pf1 p) v) _ s

theorem State.logVector_frame (s : State) (log : Nat) :
    s.logVector log = { s with fns := (s.logVector log).fns, out := (s.logVector log).out } := by
  refine State.foldl_frame _ (fun s l => ?_) _ s
  split
  · exact State.signal_frame s (.pf0 l) (1 + log)
  · rfl

theorem State.recordNow_frame (s : State) (log code : Nat) (p : Bytes) :
    s.recordNow log code p =
      { s with fns := (s.recordNow log code p).fns, mbx := (s.recordNow log code p).mbx, out := (s.recordNow log code p).out } := by
  unfold State.recordNow; simp only
  split
  · rfl
  · split
    · split
      · rw [State.signalPf1_frame, State.logVector_frame]; rfl
      · rw [State.logVector_frame]; rfl
    · rfl

theorem State.record_frame (s : State) (log code : Nat) (p : Bytes) :
    s.record log code p = { s with fns := (s.record log code p).fns, mbx := (s.record log code p).mbx, fw := (s.record log code p).fw,
                                   out := (s.record log code p).out } := by
  have now : s.recordNow log code p =
      { s with fns := (s.recordNow log code p).fns, mbx := (s.recordNow log code p).mbx, fw := (s.recordNow log code p).fw,
               out := (s.recordNow log code p).out } := by
    have h := State.recordNow_frame s log code p
    have g : (s.recordNow log code p).fw = s.fw := by rw [h]
    rw [g]; exact h
  unfold State.record
  split
  · split
    · exact now
    · rfl
  · exact now

theorem State.recordLim_frame (s : State) (log code scope gap : Nat) (mk : Nat → Bytes) :
    s.recordLim log code scope gap mk =
      { s with fns := (s.recordLim log code scope gap mk).fns, mbx := (s.recordLim log code scope gap mk).mbx,
               fw := (s.recordLim log code scope gap mk).fw, out := (s.recordLim log code scope gap mk).out } := by
  unfold State.recordLim; simp only
  split
  · split
    · rw [State.record_frame]; rfl
    · rfl
  · rw [State.record_frame]; rfl

theorem State.signalMbx_frame (s : State) (v : Iface) :
    s.signalMbx v = { s with fns := (s.signalMbx v).fns, out := (s.signalMbx v).out } := by
  unfold State.signalMbx; split
  · exact State.signal_frame s _ 0
  · rfl

theorem State.respond_frame (s : State) (v : Iface) (op : Nat) (r : Ret) (p : Bytes) :
    s.respond v op r p = { s with fns := (s.respond v op r p).fns, mbx := (s.respond v op r p).mbx, out := (s.respond v op r p).out } := by
  unfold State.respond; rw [State.signalMbx_frame]; rfl

theorem State.bgDone_frame (s : State) (v : Iface) (op : Nat) (r : Ret) (p : Bytes) :
    s.bgDone v op r p = { s with fns := (s.bgDone v op r p).fns, mbx := (s.bgDone v op r p).mbx, out := (s.bgDone v op r p).out } := by
  unfold State.bgDone; split
  · rw [State.respond_frame]; rfl
  · rfl

theorem State.bgDoneOp_frame (s : State) (op : Nat) (r : Ret) (p : Bytes) :
    s.bgDoneOp op r p = { s with fns := (s.bgDoneOp op r p).fns, mbx := (s.bgDoneOp op r p).mbx, out := (s.bgDoneOp op r p).out } := by
  unfold State.bgDoneOp; split
  · exact State.bgDone_frame s _ op r p
  · rfl

theorem State.presEvent_frame (s : State) (e src op : Nat) : s.presEvent e src op = { s with mbx := (s.presEvent e src op).mbx } := rfl

theorem State.authorise_frame (s : State) (op : Nat) : s.authorise op = { s with mbx := (s.authorise op).mbx } := rfl

theorem State.ite_setPwr (b : Bool) (t : State) (p : Pwr) :
    (if b = true then t.setPwr p else t) = { t with pwr := (if b = true then t.setPwr p else t).pwr } := by cases b <;> rfl

theorem State.prewriteRefused_frame (s : State) :
    s.prewriteRefused = { s with fns := s.prewriteRefused.fns, mbx := s.prewriteRefused.mbx, fw := s.prewriteRefused.fw,
                                 pwr := s.prewriteRefused.pwr, out := s.prewriteRefused.out } := by
  unfold State.prewriteRefused; simp only
  rw [State.ite_setPwr, State.recordLim_frame]; rfl

/-! ### What they leave as it is -/

@[simp] theorem State.send_pending (s : State) (l : Nat) (o : Out) : (s.send l o).pending = s.pending := by rw [State.send_frame]
@[simp] theorem State.send_freeDraws (s : State) (l : Nat) (o : Out) : (s.send l o).freeDraws = s.freeDraws := by rw [State.send_frame]
@[simp] theorem State.send_cfg (s : State) (l : Nat) (o : Out) : (s.send l o).cfg = s.cfg := by rw [State.send_frame]
@[simp] theorem State.send_tbc (s : State) (l : Nat) (o : Out) : (s.send l o).tbc = s.tbc := by rw [State.send_frame]
@[simp] theorem State.send_ports (s : State) (l : Nat) (o : Out) : (s.send l o).ports = s.ports := by rw [State.send_frame]
@[simp] theorem State.send_fns (s : State) (l : Nat) (o : Out) : (s.send l o).fns = s.fns := by rw [State.send_frame]
@[simp] theorem State.send_mbx (s : State) (l : Nat) (o : Out) : (s.send l o).mbx = s.mbx := by rw [State.send_frame]
@[simp] theorem State.send_pool (s : State) (l : Nat) (o : Out) : (s.send l o).pool = s.pool := by rw [State.send_frame]
@[simp] theorem State.send_cnd (s : State) (l : Nat) (o : Out) : (s.send l o).cnd = s.cnd := by rw [State.send_frame]
@[simp] theorem State.send_tabLoads (s : State) (l : Nat) (o : Out) : (s.send l o).tabLoads = s.tabLoads := by rw [State.send_frame]
@[simp] theorem State.send_dir (s : State) (l : Nat) (o : Out) : (s.send l o).dir = s.dir := by rw [State.send_frame]
@[simp] theorem State.send_qos (s : State) (l : Nat) (o : Out) : (s.send l o).qos = s.qos := by rw [State.send_frame]
@[simp] theorem State.send_drc (s : State) (l : Nat) (o : Out) : (s.send l o).drc = s.drc := by rw [State.send_frame]
@[simp] theorem State.send_ecc (s : State) (l : Nat) (o : Out) : (s.send l o).ecc = s.ecc := by rw [State.send_frame]
@[simp] theorem State.send_eng (s : State) (l : Nat) (o : Out) : (s.send l o).eng = s.eng := by rw [State.send_frame]
@[simp] theorem State.send_fab (s : State) (l : Nat) (o : Out) : (s.send l o).fab = s.fab := by rw [State.send_frame]
@[simp] theorem State.send_rst (s : State) (l : Nat) (o : Out) : (s.send l o).rst = s.rst := by rw [State.send_frame]
@[simp] theorem State.send_clk (s : State) (l : Nat) (o : Out) : (s.send l o).clk = s.clk := by rw [State.send_frame]
@[simp] theorem State.send_pwr (s : State) (l : Nat) (o : Out) : (s.send l o).pwr = s.pwr := by rw [State.send_frame]
@[simp] theorem State.send_bst (s : State) (l : Nat) (o : Out) : (s.send l o).bst = s.bst := by rw [State.send_frame]
@[simp] theorem State.send_fw (s : State) (l : Nat) (o : Out) : (s.send l o).fw = s.fw := by rw [State.send_frame]

@[simp] theorem State.dropIo_pending (s : State) (l : Nat) : (s.dropIo l).pending = s.pending := by rw [State.dropIo_frame]
@[simp] theorem State.dropIo_out (s : State) (l : Nat) : (s.dropIo l).out = s.out := by rw [State.dropIo_frame]
@[simp] theorem State.dropIo_freeDraws (s : State) (l : Nat) : (s.dropIo l).freeDraws = s.freeDraws := by rw [State.dropIo_frame]
@[simp] theorem State.dropIo_cfg (s : State) (l : Nat) : (s.dropIo l).cfg = s.cfg := by rw [State.dropIo_frame]
@[simp] theorem State.dropIo_tbc (s : State) (l : Nat) : (s.dropIo l).tbc = s.tbc := by rw [State.dropIo_frame]
@[simp] theorem State.dropIo_fns (s : State) (l : Nat) : (s.dropIo l).fns = s.fns := by rw [State.dropIo_frame]
@[simp] theorem State.dropIo_mbx (s : State) (l : Nat) : (s.dropIo l).mbx = s.mbx := by rw [State.dropIo_frame]
@[simp] theorem State.dropIo_pool (s : State) (l : Nat) : (s.dropIo l).pool = s.pool := by rw [State.dropIo_frame]
@[simp] theorem State.dropIo_cnd (s : State) (l : Nat) : (s.dropIo l).cnd = s.cnd := by rw [State.dropIo_frame]
@[simp] theorem State.dropIo_tabLoads (s : State) (l : Nat) : (s.dropIo l).tabLoads = s.tabLoads := by rw [State.dropIo_frame]
@[simp] theorem State.dropIo_dir (s : State) (l : Nat) : (s.dropIo l).dir = s.dir := by rw [State.dropIo_frame]
@[simp] theorem State.dropIo_qos (s : State) (l : Nat) : (s.dropIo l).qos = s.qos := by rw [State.dropIo_frame]
@[simp] theorem State.dropIo_drc (s : State) (l : Nat) : (s.dropIo l).drc = s.drc := by rw [State.dropIo_frame]
@[simp] theorem State.dropIo_ecc (s : State) (l : Nat) : (s.dropIo l).ecc = s.ecc := by rw [State.dropIo_frame]
@[simp] theorem State.dropIo_eng (s : State) (l : Nat) : (s.dropIo l).eng = s.eng := by rw [State.dropIo_frame]
@[simp] theorem State.dropIo_fab (s : State) (l : Nat) : (s.dropIo l).fab = s.fab := by rw [State.dropIo_frame]
@[simp] theorem State.dropIo_rst (s : State) (l : Nat) : (s.dropIo l).rst = s.rst := by rw [State.dropIo_frame]
@[simp] theorem State.dropIo_clk (s : State) (l : Nat) : (s.dropIo l).clk = s.clk := by rw [State.dropIo_frame]
@[simp] theorem State.dropIo_pwr (s : State) (l : Nat) : (s.dropIo l).pwr = s.pwr := by rw [State.dropIo_frame]
@[simp] theorem State.dropIo_bst (s : State) (l : Nat) : (s.dropIo l).bst = s.bst := by rw [State.dropIo_frame]
@[simp] theorem State.dropIo_fw (s : State) (l : Nat) : (s.dropIo l).fw = s.fw := by rw [State.dropIo_frame]

@[simp] theorem State.touch_pending (s : State) (f : Func) : (s.touch f).pending = s.pending := by rw [State.touch_frame]
@[simp] theorem State.touch_out (s : State) (f : Func) : (s.touch f).out = s.out := by rw [State.touch_frame]
@[simp] theorem State.touch_freeDraws (s : State) (f : Func) : (s.touch f).freeDraws = s.freeDraws := by rw [State.touch_frame]
@[simp] theorem State.touch_cfg (s : State) (f : Func) : (s.touch f).cfg = s.cfg := by rw [State.touch_frame]
@[simp] theorem State.touch_tbc (s : State) (f : Func) : (s.touch f).tbc = s.tbc := by rw [State.touch_frame]
@[simp] theorem State.touch_ports (s : State) (f : Func) : (s.touch f).ports = s.ports := by rw [State.touch_frame]
@[simp] theorem State.touch_mbx (s : State) (f : Func) : (s.touch f).mbx = s.mbx := by rw [State.touch_frame]
@[simp] theorem State.touch_pool (s : State) (f : Func) : (s.touch f).pool = s.pool := by rw [State.touch_frame]
@[simp] theorem State.touch_cnd (s : State) (f : Func) : (s.touch f).cnd = s.cnd := by rw [State.touch_frame]
@[simp] theorem State.touch_tabLoads (s : State) (f : Func) : (s.touch f).tabLoads = s.tabLoads := by rw [State.touch_frame]
@[simp] theorem State.touch_dir (s : State) (f : Func) : (s.touch f).dir = s.dir := by rw [State.touch_frame]
@[simp] theorem State.touch_qos (s : State) (f : Func) : (s.touch f).qos = s.qos := by rw [State.touch_frame]
@[simp] theorem State.touch_drc (s : State) (f : Func) : (s.touch f).drc = s.drc := by rw [State.touch_frame]
@[simp] theorem State.touch_ecc (s : State) (f : Func) : (s.touch f).ecc = s.ecc := by rw [State.touch_frame]
@[simp] theorem State.touch_eng (s : State) (f : Func) : (s.touch f).eng = s.eng := by rw [State.touch_frame]
@[simp] theorem State.touch_fab (s : State) (f : Func) : (s.touch f).fab = s.fab := by rw [State.touch_frame]
@[simp] theorem State.touch_rst (s : State) (f : Func) : (s.touch f).rst = s.rst := by rw [State.touch_frame]
@[simp] theorem State.touch_clk (s : State) (f : Func) : (s.touch f).clk = s.clk := by rw [State.touch_frame]
@[simp] theorem State.touch_pwr (s : State) (f : Func) : (s.touch f).pwr = s.pwr := by rw [State.touch_frame]
@[simp] theorem State.touch_bst (s : State) (f : Func) : (s.touch f).bst = s.bst := by rw [State.touch_frame]
@[simp] theorem State.touch_fw (s : State) (f : Func) : (s.touch f).fw = s.fw := by rw [State.touch_frame]

@[simp] theorem State.signal_pending (s : State) (f : Func) (v : Nat) : (s.signal f v).pending = s.pending := by rw [State.signal_frame]
@[simp] theorem State.signal_freeDraws (s : State) (f : Func) (v : Nat) : (s.signal f v).freeDraws = s.freeDraws := by rw [State.signal_frame]
@[simp] theorem State.signal_cfg (s : State) (f : Func) (v : Nat) : (s.signal f v).cfg = s.cfg := by rw [State.signal_frame]
@[simp] theorem State.signal_tbc (s : State) (f : Func) (v : Nat) : (s.signal f v).tbc = s.tbc := by rw [State.signal_frame]
@[simp] theorem State.signal_ports (s : State) (f : Func) (v : Nat) : (s.signal f v).ports = s.ports := by rw [State.signal_frame]
@[simp] theorem State.signal_mbx (s : State) (f : Func) (v : Nat) : (s.signal f v).mbx = s.mbx := by rw [State.signal_frame]
@[simp] theorem State.signal_pool (s : State) (f : Func) (v : Nat) : (s.signal f v).pool = s.pool := by rw [State.signal_frame]
@[simp] theorem State.signal_cnd (s : State) (f : Func) (v : Nat) : (s.signal f v).cnd = s.cnd := by rw [State.signal_frame]
@[simp] theorem State.signal_tabLoads (s : State) (f : Func) (v : Nat) : (s.signal f v).tabLoads = s.tabLoads := by rw [State.signal_frame]
@[simp] theorem State.signal_dir (s : State) (f : Func) (v : Nat) : (s.signal f v).dir = s.dir := by rw [State.signal_frame]
@[simp] theorem State.signal_qos (s : State) (f : Func) (v : Nat) : (s.signal f v).qos = s.qos := by rw [State.signal_frame]
@[simp] theorem State.signal_drc (s : State) (f : Func) (v : Nat) : (s.signal f v).drc = s.drc := by rw [State.signal_frame]
@[simp] theorem State.signal_ecc (s : State) (f : Func) (v : Nat) : (s.signal f v).ecc = s.ecc := by rw [State.signal_frame]
@[simp] theorem State.signal_eng (s : State) (f : Func) (v : Nat) : (s.signal f v).eng = s.eng := by rw [State.signal_frame]
@[simp] theorem State.signal_fab (s : State) (f : Func) (v : Nat) : (s.signal f v).fab = s.fab := by rw [State.signal_frame]
@[simp] theorem State.signal_rst (s : State) (f : Func) (v : Nat) : (s.signal f v).rst = s.rst := by rw [State.signal_frame]
@[simp] theorem State.signal_clk (s : State) (f : Func) (v : Nat) : (s.signal f v).clk = s.clk := by rw [State.signal_frame]
@[simp] theorem State.signal_pwr (s : State) (f : Func) (v : Nat) : (s.signal f v).pwr = s.pwr := by rw [State.signal_frame]
@[simp] theorem State.signal_bst (s : State) (f : Func) (v : Nat) : (s.signal f v).bst = s.bst := by rw [State.signal_frame]
@[simp] theorem State.signal_fw (s : State) (f : Func) (v : Nat) : (s.signal f v).fw = s.fw := by rw [State.signal_frame]

@[simp] theorem State.release_pending (s : State) (f : Func) (v : Nat) : (s.release f v).pending = s.pending := by rw [State.release_frame]
@[simp] theorem State.release_freeDraws (s : State) (f : Func) (v : Nat) : (s.release f v).freeDraws = s.freeDraws := by rw [State.release_frame]
@[simp] theorem State.release_cfg (s : State) (f : Func) (v : Nat) : (s.release f v).cfg = s.cfg := by rw [State.release_frame]
@[simp] theorem State.release_tbc (s : State) (f : Func) (v : Nat) : (s.release f v).tbc = s.tbc := by rw [State.release_frame]
@[simp] theorem State.release_ports (s : State) (f : Func) (v : Nat) : (s.release f v).ports = s.ports := by rw [State.release_frame]
@[simp] theorem State.release_mbx (s : State) (f : Func) (v : Nat) : (s.release f v).mbx = s.mbx := by rw [State.release_frame]
@[simp] theorem State.release_pool (s : State) (f : Func) (v : Nat) : (s.release f v).pool = s.pool := by rw [State.release_frame]
@[simp] theorem State.release_cnd (s : State) (f : Func) (v : Nat) : (s.release f v).cnd = s.cnd := by rw [State.release_frame]
@[simp] theorem State.release_tabLoads (s : State) (f : Func) (v : Nat) : (s.release f v).tabLoads = s.tabLoads := by rw [State.release_frame]
@[simp] theorem State.release_dir (s : State) (f : Func) (v : Nat) : (s.release f v).dir = s.dir := by rw [State.release_frame]
@[simp] theorem State.release_qos (s : State) (f : Func) (v : Nat) : (s.release f v).qos = s.qos := by rw [State.release_frame]
@[simp] theorem State.release_drc (s : State) (f : Func) (v : Nat) : (s.release f v).drc = s.drc := by rw [State.release_frame]
@[simp] theorem State.release_ecc (s : State) (f : Func) (v : Nat) : (s.release f v).ecc = s.ecc := by rw [State.release_frame]
@[simp] theorem State.release_eng (s : State) (f : Func) (v : Nat) : (s.release f v).eng = s.eng := by rw [State.release_frame]
@[simp] theorem State.release_fab (s : State) (f : Func) (v : Nat) : (s.release f v).fab = s.fab := by rw [State.release_frame]
@[simp] theorem State.release_rst (s : State) (f : Func) (v : Nat) : (s.release f v).rst = s.rst := by rw [State.release_frame]
@[simp] theorem State.release_clk (s : State) (f : Func) (v : Nat) : (s.release f v).clk = s.clk := by rw [State.release_frame]
@[simp] theorem State.release_pwr (s : State) (f : Func) (v : Nat) : (s.release f v).pwr = s.pwr := by rw [State.release_frame]
@[simp] theorem State.release_bst (s : State) (f : Func) (v : Nat) : (s.release f v).bst = s.bst := by rw [State.release_frame]
@[simp] theorem State.release_fw (s : State) (f : Func) (v : Nat) : (s.release f v).fw = s.fw := by rw [State.release_frame]

@[simp] theorem State.signalPf0_pending (s : State) (v : Nat) : (s.signalPf0 v).pending = s.pending := by rw [State.signalPf0_frame]
@[simp] theorem State.signalPf0_freeDraws (s : State) (v : Nat) : (s.signalPf0 v).freeDraws = s.freeDraws := by rw [State.signalPf0_frame]
@[simp] theorem State.signalPf0_cfg (s : State) (v : Nat) : (s.signalPf0 v).cfg = s.cfg := by rw [State.signalPf0_frame]
@[simp] theorem State.signalPf0_tbc (s : State) (v : Nat) : (s.signalPf0 v).tbc = s.tbc := by rw [State.signalPf0_frame]
@[simp] theorem State.signalPf0_ports (s : State) (v : Nat) : (s.signalPf0 v).ports = s.ports := by rw [State.signalPf0_frame]
@[simp] theorem State.signalPf0_mbx (s : State) (v : Nat) : (s.signalPf0 v).mbx = s.mbx := by rw [State.signalPf0_frame]
@[simp] theorem State.signalPf0_pool (s : State) (v : Nat) : (s.signalPf0 v).pool = s.pool := by rw [State.signalPf0_frame]
@[simp] theorem State.signalPf0_cnd (s : State) (v : Nat) : (s.signalPf0 v).cnd = s.cnd := by rw [State.signalPf0_frame]
@[simp] theorem State.signalPf0_tabLoads (s : State) (v : Nat) : (s.signalPf0 v).tabLoads = s.tabLoads := by rw [State.signalPf0_frame]
@[simp] theorem State.signalPf0_dir (s : State) (v : Nat) : (s.signalPf0 v).dir = s.dir := by rw [State.signalPf0_frame]
@[simp] theorem State.signalPf0_qos (s : State) (v : Nat) : (s.signalPf0 v).qos = s.qos := by rw [State.signalPf0_frame]
@[simp] theorem State.signalPf0_drc (s : State) (v : Nat) : (s.signalPf0 v).drc = s.drc := by rw [State.signalPf0_frame]
@[simp] theorem State.signalPf0_ecc (s : State) (v : Nat) : (s.signalPf0 v).ecc = s.ecc := by rw [State.signalPf0_frame]
@[simp] theorem State.signalPf0_eng (s : State) (v : Nat) : (s.signalPf0 v).eng = s.eng := by rw [State.signalPf0_frame]
@[simp] theorem State.signalPf0_fab (s : State) (v : Nat) : (s.signalPf0 v).fab = s.fab := by rw [State.signalPf0_frame]
@[simp] theorem State.signalPf0_rst (s : State) (v : Nat) : (s.signalPf0 v).rst = s.rst := by rw [State.signalPf0_frame]
@[simp] theorem State.signalPf0_clk (s : State) (v : Nat) : (s.signalPf0 v).clk = s.clk := by rw [State.signalPf0_frame]
@[simp] theorem State.signalPf0_pwr (s : State) (v : Nat) : (s.signalPf0 v).pwr = s.pwr := by rw [State.signalPf0_frame]
@[simp] theorem State.signalPf0_bst (s : State) (v : Nat) : (s.signalPf0 v).bst = s.bst := by rw [State.signalPf0_frame]
@[simp] theorem State.signalPf0_fw (s : State) (v : Nat) : (s.signalPf0 v).fw = s.fw := by rw [State.signalPf0_frame]

@[simp] theorem State.signalPf1_pending (s : State) (v : Nat) : (s.signalPf1 v).pending = s.pending := by rw [State.signalPf1_frame]
@[simp] theorem State.signalPf1_freeDraws (s : State) (v : Nat) : (s.signalPf1 v).freeDraws = s.freeDraws := by rw [State.signalPf1_frame]
@[simp] theorem State.signalPf1_cfg (s : State) (v : Nat) : (s.signalPf1 v).cfg = s.cfg := by rw [State.signalPf1_frame]
@[simp] theorem State.signalPf1_tbc (s : State) (v : Nat) : (s.signalPf1 v).tbc = s.tbc := by rw [State.signalPf1_frame]
@[simp] theorem State.signalPf1_ports (s : State) (v : Nat) : (s.signalPf1 v).ports = s.ports := by rw [State.signalPf1_frame]
@[simp] theorem State.signalPf1_mbx (s : State) (v : Nat) : (s.signalPf1 v).mbx = s.mbx := by rw [State.signalPf1_frame]
@[simp] theorem State.signalPf1_pool (s : State) (v : Nat) : (s.signalPf1 v).pool = s.pool := by rw [State.signalPf1_frame]
@[simp] theorem State.signalPf1_cnd (s : State) (v : Nat) : (s.signalPf1 v).cnd = s.cnd := by rw [State.signalPf1_frame]
@[simp] theorem State.signalPf1_tabLoads (s : State) (v : Nat) : (s.signalPf1 v).tabLoads = s.tabLoads := by rw [State.signalPf1_frame]
@[simp] theorem State.signalPf1_dir (s : State) (v : Nat) : (s.signalPf1 v).dir = s.dir := by rw [State.signalPf1_frame]
@[simp] theorem State.signalPf1_qos (s : State) (v : Nat) : (s.signalPf1 v).qos = s.qos := by rw [State.signalPf1_frame]
@[simp] theorem State.signalPf1_drc (s : State) (v : Nat) : (s.signalPf1 v).drc = s.drc := by rw [State.signalPf1_frame]
@[simp] theorem State.signalPf1_ecc (s : State) (v : Nat) : (s.signalPf1 v).ecc = s.ecc := by rw [State.signalPf1_frame]
@[simp] theorem State.signalPf1_eng (s : State) (v : Nat) : (s.signalPf1 v).eng = s.eng := by rw [State.signalPf1_frame]
@[simp] theorem State.signalPf1_fab (s : State) (v : Nat) : (s.signalPf1 v).fab = s.fab := by rw [State.signalPf1_frame]
@[simp] theorem State.signalPf1_rst (s : State) (v : Nat) : (s.signalPf1 v).rst = s.rst := by rw [State.signalPf1_frame]
@[simp] theorem State.signalPf1_clk (s : State) (v : Nat) : (s.signalPf1 v).clk = s.clk := by rw [State.signalPf1_frame]
@[simp] theorem State.signalPf1_pwr (s : State) (v : Nat) : (s.signalPf1 v).pwr = s.pwr := by rw [State.signalPf1_frame]
@[simp] theorem State.signalPf1_bst (s : State) (v : Nat) : (s.signalPf1 v).bst = s.bst := by rw [State.signalPf1_frame]
@[simp] theorem State.signalPf1_fw (s : State) (v : Nat) : (s.signalPf1 v).fw = s.fw := by rw [State.signalPf1_frame]

@[simp] theorem State.logVector_pending (s : State) (v : Nat) : (s.logVector v).pending = s.pending := by rw [State.logVector_frame]
@[simp] theorem State.logVector_freeDraws (s : State) (v : Nat) : (s.logVector v).freeDraws = s.freeDraws := by rw [State.logVector_frame]
@[simp] theorem State.logVector_cfg (s : State) (v : Nat) : (s.logVector v).cfg = s.cfg := by rw [State.logVector_frame]
@[simp] theorem State.logVector_tbc (s : State) (v : Nat) : (s.logVector v).tbc = s.tbc := by rw [State.logVector_frame]
@[simp] theorem State.logVector_ports (s : State) (v : Nat) : (s.logVector v).ports = s.ports := by rw [State.logVector_frame]
@[simp] theorem State.logVector_mbx (s : State) (v : Nat) : (s.logVector v).mbx = s.mbx := by rw [State.logVector_frame]
@[simp] theorem State.logVector_pool (s : State) (v : Nat) : (s.logVector v).pool = s.pool := by rw [State.logVector_frame]
@[simp] theorem State.logVector_cnd (s : State) (v : Nat) : (s.logVector v).cnd = s.cnd := by rw [State.logVector_frame]
@[simp] theorem State.logVector_tabLoads (s : State) (v : Nat) : (s.logVector v).tabLoads = s.tabLoads := by rw [State.logVector_frame]
@[simp] theorem State.logVector_dir (s : State) (v : Nat) : (s.logVector v).dir = s.dir := by rw [State.logVector_frame]
@[simp] theorem State.logVector_qos (s : State) (v : Nat) : (s.logVector v).qos = s.qos := by rw [State.logVector_frame]
@[simp] theorem State.logVector_drc (s : State) (v : Nat) : (s.logVector v).drc = s.drc := by rw [State.logVector_frame]
@[simp] theorem State.logVector_ecc (s : State) (v : Nat) : (s.logVector v).ecc = s.ecc := by rw [State.logVector_frame]
@[simp] theorem State.logVector_eng (s : State) (v : Nat) : (s.logVector v).eng = s.eng := by rw [State.logVector_frame]
@[simp] theorem State.logVector_fab (s : State) (v : Nat) : (s.logVector v).fab = s.fab := by rw [State.logVector_frame]
@[simp] theorem State.logVector_rst (s : State) (v : Nat) : (s.logVector v).rst = s.rst := by rw [State.logVector_frame]
@[simp] theorem State.logVector_clk (s : State) (v : Nat) : (s.logVector v).clk = s.clk := by rw [State.logVector_frame]
@[simp] theorem State.logVector_pwr (s : State) (v : Nat) : (s.logVector v).pwr = s.pwr := by rw [State.logVector_frame]
@[simp] theorem State.logVector_bst (s : State) (v : Nat) : (s.logVector v).bst = s.bst := by rw [State.logVector_frame]
@[simp] theorem State.logVector_fw (s : State) (v : Nat) : (s.logVector v).fw = s.fw := by rw [State.logVector_frame]

@[simp] theorem State.record_pending (s : State) (l c : Nat) (p : Bytes) : (s.record l c p).pending = s.pending := by rw [State.record_frame]
@[simp] theorem State.record_freeDraws (s : State) (l c : Nat) (p : Bytes) : (s.record l c p).freeDraws = s.freeDraws := by rw [State.record_frame]
@[simp] theorem State.record_cfg (s : State) (l c : Nat) (p : Bytes) : (s.record l c p).cfg = s.cfg := by rw [State.record_frame]
@[simp] theorem State.record_tbc (s : State) (l c : Nat) (p : Bytes) : (s.record l c p).tbc = s.tbc := by rw [State.record_frame]
@[simp] theorem State.record_ports (s : State) (l c : Nat) (p : Bytes) : (s.record l c p).ports = s.ports := by rw [State.record_frame]
@[simp] theorem State.record_pool (s : State) (l c : Nat) (p : Bytes) : (s.record l c p).pool = s.pool := by rw [State.record_frame]
@[simp] theorem State.record_cnd (s : State) (l c : Nat) (p : Bytes) : (s.record l c p).cnd = s.cnd := by rw [State.record_frame]
@[simp] theorem State.record_tabLoads (s : State) (l c : Nat) (p : Bytes) : (s.record l c p).tabLoads = s.tabLoads := by rw [State.record_frame]
@[simp] theorem State.record_dir (s : State) (l c : Nat) (p : Bytes) : (s.record l c p).dir = s.dir := by rw [State.record_frame]
@[simp] theorem State.record_qos (s : State) (l c : Nat) (p : Bytes) : (s.record l c p).qos = s.qos := by rw [State.record_frame]
@[simp] theorem State.record_drc (s : State) (l c : Nat) (p : Bytes) : (s.record l c p).drc = s.drc := by rw [State.record_frame]
@[simp] theorem State.record_ecc (s : State) (l c : Nat) (p : Bytes) : (s.record l c p).ecc = s.ecc := by rw [State.record_frame]
@[simp] theorem State.record_eng (s : State) (l c : Nat) (p : Bytes) : (s.record l c p).eng = s.eng := by rw [State.record_frame]
@[simp] theorem State.record_fab (s : State) (l c : Nat) (p : Bytes) : (s.record l c p).fab = s.fab := by rw [State.record_frame]
@[simp] theorem State.record_rst (s : State) (l c : Nat) (p : Bytes) : (s.record l c p).rst = s.rst := by rw [State.record_frame]
@[simp] theorem State.record_clk (s : State) (l c : Nat) (p : Bytes) : (s.record l c p).clk = s.clk := by rw [State.record_frame]
@[simp] theorem State.record_pwr (s : State) (l c : Nat) (p : Bytes) : (s.record l c p).pwr = s.pwr := by rw [State.record_frame]
@[simp] theorem State.record_bst (s : State) (l c : Nat) (p : Bytes) : (s.record l c p).bst = s.bst := by rw [State.record_frame]

@[simp] theorem State.recordLim_pending (s : State) (l c k g : Nat) (mk : Nat → Bytes) : (s.recordLim l c k g mk).pending = s.pending := by rw [State.recordLim_frame]
@[simp] theorem State.recordLim_freeDraws (s : State) (l c k g : Nat) (mk : Nat → Bytes) : (s.recordLim l c k g mk).freeDraws = s.freeDraws := by rw [State.recordLim_frame]
@[simp] theorem State.recordLim_cfg (s : State) (l c k g : Nat) (mk : Nat → Bytes) : (s.recordLim l c k g mk).cfg = s.cfg := by rw [State.recordLim_frame]
@[simp] theorem State.recordLim_tbc (s : State) (l c k g : Nat) (mk : Nat → Bytes) : (s.recordLim l c k g mk).tbc = s.tbc := by rw [State.recordLim_frame]
@[simp] theorem State.recordLim_ports (s : State) (l c k g : Nat) (mk : Nat → Bytes) : (s.recordLim l c k g mk).ports = s.ports := by rw [State.recordLim_frame]
@[simp] theorem State.recordLim_pool (s : State) (l c k g : Nat) (mk : Nat → Bytes) : (s.recordLim l c k g mk).pool = s.pool := by rw [State.recordLim_frame]
@[simp] theorem State.recordLim_cnd (s : State) (l c k g : Nat) (mk : Nat → Bytes) : (s.recordLim l c k g mk).cnd = s.cnd := by rw [State.recordLim_frame]
@[simp] theorem State.recordLim_tabLoads (s : State) (l c k g : Nat) (mk : Nat → Bytes) : (s.recordLim l c k g mk).tabLoads = s.tabLoads := by rw [State.recordLim_frame]
@[simp] theorem State.recordLim_dir (s : State) (l c k g : Nat) (mk : Nat → Bytes) : (s.recordLim l c k g mk).dir = s.dir := by rw [State.recordLim_frame]
@[simp] theorem State.recordLim_qos (s : State) (l c k g : Nat) (mk : Nat → Bytes) : (s.recordLim l c k g mk).qos = s.qos := by rw [State.recordLim_frame]
@[simp] theorem State.recordLim_drc (s : State) (l c k g : Nat) (mk : Nat → Bytes) : (s.recordLim l c k g mk).drc = s.drc := by rw [State.recordLim_frame]
@[simp] theorem State.recordLim_ecc (s : State) (l c k g : Nat) (mk : Nat → Bytes) : (s.recordLim l c k g mk).ecc = s.ecc := by rw [State.recordLim_frame]
@[simp] theorem State.recordLim_eng (s : State) (l c k g : Nat) (mk : Nat → Bytes) : (s.recordLim l c k g mk).eng = s.eng := by rw [State.recordLim_frame]
@[simp] theorem State.recordLim_fab (s : State) (l c k g : Nat) (mk : Nat → Bytes) : (s.recordLim l c k g mk).fab = s.fab := by rw [State.recordLim_frame]
@[simp] theorem State.recordLim_rst (s : State) (l c k g : Nat) (mk : Nat → Bytes) : (s.recordLim l c k g mk).rst = s.rst := by rw [State.recordLim_frame]
@[simp] theorem State.recordLim_clk (s : State) (l c k g : Nat) (mk : Nat → Bytes) : (s.recordLim l c k g mk).clk = s.clk := by rw [State.recordLim_frame]
@[simp] theorem State.recordLim_pwr (s : State) (l c k g : Nat) (mk : Nat → Bytes) : (s.recordLim l c k g mk).pwr = s.pwr := by rw [State.recordLim_frame]
@[simp] theorem State.recordLim_bst (s : State) (l c k g : Nat) (mk : Nat → Bytes) : (s.recordLim l c k g mk).bst = s.bst := by rw [State.recordLim_frame]

@[simp] theorem State.signalMbx_pending (s : State) (v : Iface) : (s.signalMbx v).pending = s.pending := by rw [State.signalMbx_frame]
@[simp] theorem State.signalMbx_freeDraws (s : State) (v : Iface) : (s.signalMbx v).freeDraws = s.freeDraws := by rw [State.signalMbx_frame]
@[simp] theorem State.signalMbx_cfg (s : State) (v : Iface) : (s.signalMbx v).cfg = s.cfg := by rw [State.signalMbx_frame]
@[simp] theorem State.signalMbx_tbc (s : State) (v : Iface) : (s.signalMbx v).tbc = s.tbc := by rw [State.signalMbx_frame]
@[simp] theorem State.signalMbx_ports (s : State) (v : Iface) : (s.signalMbx v).ports = s.ports := by rw [State.signalMbx_frame]
@[simp] theorem State.signalMbx_mbx (s : State) (v : Iface) : (s.signalMbx v).mbx = s.mbx := by rw [State.signalMbx_frame]
@[simp] theorem State.signalMbx_pool (s : State) (v : Iface) : (s.signalMbx v).pool = s.pool := by rw [State.signalMbx_frame]
@[simp] theorem State.signalMbx_cnd (s : State) (v : Iface) : (s.signalMbx v).cnd = s.cnd := by rw [State.signalMbx_frame]
@[simp] theorem State.signalMbx_tabLoads (s : State) (v : Iface) : (s.signalMbx v).tabLoads = s.tabLoads := by rw [State.signalMbx_frame]
@[simp] theorem State.signalMbx_dir (s : State) (v : Iface) : (s.signalMbx v).dir = s.dir := by rw [State.signalMbx_frame]
@[simp] theorem State.signalMbx_qos (s : State) (v : Iface) : (s.signalMbx v).qos = s.qos := by rw [State.signalMbx_frame]
@[simp] theorem State.signalMbx_drc (s : State) (v : Iface) : (s.signalMbx v).drc = s.drc := by rw [State.signalMbx_frame]
@[simp] theorem State.signalMbx_ecc (s : State) (v : Iface) : (s.signalMbx v).ecc = s.ecc := by rw [State.signalMbx_frame]
@[simp] theorem State.signalMbx_eng (s : State) (v : Iface) : (s.signalMbx v).eng = s.eng := by rw [State.signalMbx_frame]
@[simp] theorem State.signalMbx_fab (s : State) (v : Iface) : (s.signalMbx v).fab = s.fab := by rw [State.signalMbx_frame]
@[simp] theorem State.signalMbx_rst (s : State) (v : Iface) : (s.signalMbx v).rst = s.rst := by rw [State.signalMbx_frame]
@[simp] theorem State.signalMbx_clk (s : State) (v : Iface) : (s.signalMbx v).clk = s.clk := by rw [State.signalMbx_frame]
@[simp] theorem State.signalMbx_pwr (s : State) (v : Iface) : (s.signalMbx v).pwr = s.pwr := by rw [State.signalMbx_frame]
@[simp] theorem State.signalMbx_bst (s : State) (v : Iface) : (s.signalMbx v).bst = s.bst := by rw [State.signalMbx_frame]
@[simp] theorem State.signalMbx_fw (s : State) (v : Iface) : (s.signalMbx v).fw = s.fw := by rw [State.signalMbx_frame]

@[simp] theorem State.respond_pending (s : State) (v : Iface) (o : Nat) (r : Ret) (p : Bytes) : (s.respond v o r p).pending = s.pending := by rw [State.respond_frame]
@[simp] theorem State.respond_freeDraws (s : State) (v : Iface) (o : Nat) (r : Ret) (p : Bytes) : (s.respond v o r p).freeDraws = s.freeDraws := by rw [State.respond_frame]
@[simp] theorem State.respond_cfg (s : State) (v : Iface) (o : Nat) (r : Ret) (p : Bytes) : (s.respond v o r p).cfg = s.cfg := by rw [State.respond_frame]
@[simp] theorem State.respond_tbc (s : State) (v : Iface) (o : Nat) (r : Ret) (p : Bytes) : (s.respond v o r p).tbc = s.tbc := by rw [State.respond_frame]
@[simp] theorem State.respond_ports (s : State) (v : Iface) (o : Nat) (r : Ret) (p : Bytes) : (s.respond v o r p).ports = s.ports := by rw [State.respond_frame]
@[simp] theorem State.respond_pool (s : State) (v : Iface) (o : Nat) (r : Ret) (p : Bytes) : (s.respond v o r p).pool = s.pool := by rw [State.respond_frame]
@[simp] theorem State.respond_cnd (s : State) (v : Iface) (o : Nat) (r : Ret) (p : Bytes) : (s.respond v o r p).cnd = s.cnd := by rw [State.respond_frame]
@[simp] theorem State.respond_tabLoads (s : State) (v : Iface) (o : Nat) (r : Ret) (p : Bytes) : (s.respond v o r p).tabLoads = s.tabLoads := by rw [State.respond_frame]
@[simp] theorem State.respond_dir (s : State) (v : Iface) (o : Nat) (r : Ret) (p : Bytes) : (s.respond v o r p).dir = s.dir := by rw [State.respond_frame]
@[simp] theorem State.respond_qos (s : State) (v : Iface) (o : Nat) (r : Ret) (p : Bytes) : (s.respond v o r p).qos = s.qos := by rw [State.respond_frame]
@[simp] theorem State.respond_drc (s : State) (v : Iface) (o : Nat) (r : Ret) (p : Bytes) : (s.respond v o r p).drc = s.drc := by rw [State.respond_frame]
@[simp] theorem State.respond_ecc (s : State) (v : Iface) (o : Nat) (r : Ret) (p : Bytes) : (s.respond v o r p).ecc = s.ecc := by rw [State.respond_frame]
@[simp] theorem State.respond_eng (s : State) (v : Iface) (o : Nat) (r : Ret) (p : Bytes) : (s.respond v o r p).eng = s.eng := by rw [State.respond_frame]
@[simp] theorem State.respond_fab (s : State) (v : Iface) (o : Nat) (r : Ret) (p : Bytes) : (s.respond v o r p).fab = s.fab := by rw [State.respond_frame]
@[simp] theorem State.respond_rst (s : State) (v : Iface) (o : Nat) (r : Ret) (p : Bytes) : (s.respond v o r p).rst = s.rst := by rw [State.respond_frame]
@[simp] theorem State.respond_clk (s : State) (v : Iface) (o : Nat) (r : Ret) (p : Bytes) : (s.respond v o r p).clk = s.clk := by rw [State.respond_frame]
@[simp] theorem State.respond_pwr (s : State) (v : Iface) (o : Nat) (r : Ret) (p : Bytes) : (s.respond v o r p).pwr = s.pwr := by rw [State.respond_frame]
@[simp] theorem State.respond_bst (s : State) (v : Iface) (o : Nat) (r : Ret) (p : Bytes) : (s.respond v o r p).bst = s.bst := by rw [State.respond_frame]
@[simp] theorem State.respond_fw (s : State) (v : Iface) (o : Nat) (r : Ret) (p : Bytes) : (s.respond v o r p).fw = s.fw := by rw [State.respond_frame]

@[simp] theorem State.bgDone_pending (s : State) (v : Iface) (o : Nat) (r : Ret) (p : Bytes) : (s.bgDone v o r p).pending = s.pending := by rw [State.bgDone_frame]
@[simp] theorem State.bgDone_freeDraws (s : State) (v : Iface) (o : Nat) (r : Ret) (p : Bytes) : (s.bgDone v o r p).freeDraws = s.freeDraws := by rw [State.bgDone_frame]
@[simp] theorem State.bgDone_cfg (s : State) (v : Iface) (o : Nat) (r : Ret) (p : Bytes) : (s.bgDone v o r p).cfg = s.cfg := by rw [State.bgDone_frame]
@[simp] theorem State.bgDone_tbc (s : State) (v : Iface) (o : Nat) (r : Ret) (p : Bytes) : (s.bgDone v o r p).tbc = s.tbc := by rw [State.bgDone_frame]
@[simp] theorem State.bgDone_ports (s : State) (v : Iface) (o : Nat) (r : Ret) (p : Bytes) : (s.bgDone v o r p).ports = s.ports := by rw [State.bgDone_frame]
@[simp] theorem State.bgDone_pool (s : State) (v : Iface) (o : Nat) (r : Ret) (p : Bytes) : (s.bgDone v o r p).pool = s.pool := by rw [State.bgDone_frame]
@[simp] theorem State.bgDone_cnd (s : State) (v : Iface) (o : Nat) (r : Ret) (p : Bytes) : (s.bgDone v o r p).cnd = s.cnd := by rw [State.bgDone_frame]
@[simp] theorem State.bgDone_tabLoads (s : State) (v : Iface) (o : Nat) (r : Ret) (p : Bytes) : (s.bgDone v o r p).tabLoads = s.tabLoads := by rw [State.bgDone_frame]
@[simp] theorem State.bgDone_dir (s : State) (v : Iface) (o : Nat) (r : Ret) (p : Bytes) : (s.bgDone v o r p).dir = s.dir := by rw [State.bgDone_frame]
@[simp] theorem State.bgDone_qos (s : State) (v : Iface) (o : Nat) (r : Ret) (p : Bytes) : (s.bgDone v o r p).qos = s.qos := by rw [State.bgDone_frame]
@[simp] theorem State.bgDone_drc (s : State) (v : Iface) (o : Nat) (r : Ret) (p : Bytes) : (s.bgDone v o r p).drc = s.drc := by rw [State.bgDone_frame]
@[simp] theorem State.bgDone_ecc (s : State) (v : Iface) (o : Nat) (r : Ret) (p : Bytes) : (s.bgDone v o r p).ecc = s.ecc := by rw [State.bgDone_frame]
@[simp] theorem State.bgDone_eng (s : State) (v : Iface) (o : Nat) (r : Ret) (p : Bytes) : (s.bgDone v o r p).eng = s.eng := by rw [State.bgDone_frame]
@[simp] theorem State.bgDone_fab (s : State) (v : Iface) (o : Nat) (r : Ret) (p : Bytes) : (s.bgDone v o r p).fab = s.fab := by rw [State.bgDone_frame]
@[simp] theorem State.bgDone_rst (s : State) (v : Iface) (o : Nat) (r : Ret) (p : Bytes) : (s.bgDone v o r p).rst = s.rst := by rw [State.bgDone_frame]
@[simp] theorem State.bgDone_clk (s : State) (v : Iface) (o : Nat) (r : Ret) (p : Bytes) : (s.bgDone v o r p).clk = s.clk := by rw [State.bgDone_frame]
@[simp] theorem State.bgDone_pwr (s : State) (v : Iface) (o : Nat) (r : Ret) (p : Bytes) : (s.bgDone v o r p).pwr = s.pwr := by rw [State.bgDone_frame]
@[simp] theorem State.bgDone_bst (s : State) (v : Iface) (o : Nat) (r : Ret) (p : Bytes) : (s.bgDone v o r p).bst = s.bst := by rw [State.bgDone_frame]
@[simp] theorem State.bgDone_fw (s : State) (v : Iface) (o : Nat) (r : Ret) (p : Bytes) : (s.bgDone v o r p).fw = s.fw := by rw [State.bgDone_frame]

@[simp] theorem State.bgDoneOp_pending (s : State) (o : Nat) (r : Ret) (p : Bytes) : (s.bgDoneOp o r p).pending = s.pending := by rw [State.bgDoneOp_frame]
@[simp] theorem State.bgDoneOp_freeDraws (s : State) (o : Nat) (r : Ret) (p : Bytes) : (s.bgDoneOp o r p).freeDraws = s.freeDraws := by rw [State.bgDoneOp_frame]
@[simp] theorem State.bgDoneOp_cfg (s : State) (o : Nat) (r : Ret) (p : Bytes) : (s.bgDoneOp o r p).cfg = s.cfg := by rw [State.bgDoneOp_frame]
@[simp] theorem State.bgDoneOp_tbc (s : State) (o : Nat) (r : Ret) (p : Bytes) : (s.bgDoneOp o r p).tbc = s.tbc := by rw [State.bgDoneOp_frame]
@[simp] theorem State.bgDoneOp_ports (s : State) (o : Nat) (r : Ret) (p : Bytes) : (s.bgDoneOp o r p).ports = s.ports := by rw [State.bgDoneOp_frame]
@[simp] theorem State.bgDoneOp_pool (s : State) (o : Nat) (r : Ret) (p : Bytes) : (s.bgDoneOp o r p).pool = s.pool := by rw [State.bgDoneOp_frame]
@[simp] theorem State.bgDoneOp_cnd (s : State) (o : Nat) (r : Ret) (p : Bytes) : (s.bgDoneOp o r p).cnd = s.cnd := by rw [State.bgDoneOp_frame]
@[simp] theorem State.bgDoneOp_tabLoads (s : State) (o : Nat) (r : Ret) (p : Bytes) : (s.bgDoneOp o r p).tabLoads = s.tabLoads := by rw [State.bgDoneOp_frame]
@[simp] theorem State.bgDoneOp_dir (s : State) (o : Nat) (r : Ret) (p : Bytes) : (s.bgDoneOp o r p).dir = s.dir := by rw [State.bgDoneOp_frame]
@[simp] theorem State.bgDoneOp_qos (s : State) (o : Nat) (r : Ret) (p : Bytes) : (s.bgDoneOp o r p).qos = s.qos := by rw [State.bgDoneOp_frame]
@[simp] theorem State.bgDoneOp_drc (s : State) (o : Nat) (r : Ret) (p : Bytes) : (s.bgDoneOp o r p).drc = s.drc := by rw [State.bgDoneOp_frame]
@[simp] theorem State.bgDoneOp_ecc (s : State) (o : Nat) (r : Ret) (p : Bytes) : (s.bgDoneOp o r p).ecc = s.ecc := by rw [State.bgDoneOp_frame]
@[simp] theorem State.bgDoneOp_eng (s : State) (o : Nat) (r : Ret) (p : Bytes) : (s.bgDoneOp o r p).eng = s.eng := by rw [State.bgDoneOp_frame]
@[simp] theorem State.bgDoneOp_fab (s : State) (o : Nat) (r : Ret) (p : Bytes) : (s.bgDoneOp o r p).fab = s.fab := by rw [State.bgDoneOp_frame]
@[simp] theorem State.bgDoneOp_rst (s : State) (o : Nat) (r : Ret) (p : Bytes) : (s.bgDoneOp o r p).rst = s.rst := by rw [State.bgDoneOp_frame]
@[simp] theorem State.bgDoneOp_clk (s : State) (o : Nat) (r : Ret) (p : Bytes) : (s.bgDoneOp o r p).clk = s.clk := by rw [State.bgDoneOp_frame]
@[simp] theorem State.bgDoneOp_pwr (s : State) (o : Nat) (r : Ret) (p : Bytes) : (s.bgDoneOp o r p).pwr = s.pwr := by rw [State.bgDoneOp_frame]
@[simp] theorem State.bgDoneOp_bst (s : State) (o : Nat) (r : Ret) (p : Bytes) : (s.bgDoneOp o r p).bst = s.bst := by rw [State.bgDoneOp_frame]
@[simp] theorem State.bgDoneOp_fw (s : State) (o : Nat) (r : Ret) (p : Bytes) : (s.bgDoneOp o r p).fw = s.fw := by rw [State.bgDoneOp_frame]

@[simp] theorem State.presEvent_pending (s : State) (e k o : Nat) : (s.presEvent e k o).pending = s.pending := by rw [State.presEvent_frame]
@[simp] theorem State.presEvent_out (s : State) (e k o : Nat) : (s.presEvent e k o).out = s.out := by rw [State.presEvent_frame]
@[simp] theorem State.presEvent_freeDraws (s : State) (e k o : Nat) : (s.presEvent e k o).freeDraws = s.freeDraws := by rw [State.presEvent_frame]
@[simp] theorem State.presEvent_cfg (s : State) (e k o : Nat) : (s.presEvent e k o).cfg = s.cfg := by rw [State.presEvent_frame]
@[simp] theorem State.presEvent_tbc (s : State) (e k o : Nat) : (s.presEvent e k o).tbc = s.tbc := by rw [State.presEvent_frame]
@[simp] theorem State.presEvent_ports (s : State) (e k o : Nat) : (s.presEvent e k o).ports = s.ports := by rw [State.presEvent_frame]
@[simp] theorem State.presEvent_fns (s : State) (e k o : Nat) : (s.presEvent e k o).fns = s.fns := by rw [State.presEvent_frame]
@[simp] theorem State.presEvent_pool (s : State) (e k o : Nat) : (s.presEvent e k o).pool = s.pool := by rw [State.presEvent_frame]
@[simp] theorem State.presEvent_cnd (s : State) (e k o : Nat) : (s.presEvent e k o).cnd = s.cnd := by rw [State.presEvent_frame]
@[simp] theorem State.presEvent_tabLoads (s : State) (e k o : Nat) : (s.presEvent e k o).tabLoads = s.tabLoads := by rw [State.presEvent_frame]
@[simp] theorem State.presEvent_dir (s : State) (e k o : Nat) : (s.presEvent e k o).dir = s.dir := by rw [State.presEvent_frame]
@[simp] theorem State.presEvent_qos (s : State) (e k o : Nat) : (s.presEvent e k o).qos = s.qos := by rw [State.presEvent_frame]
@[simp] theorem State.presEvent_drc (s : State) (e k o : Nat) : (s.presEvent e k o).drc = s.drc := by rw [State.presEvent_frame]
@[simp] theorem State.presEvent_ecc (s : State) (e k o : Nat) : (s.presEvent e k o).ecc = s.ecc := by rw [State.presEvent_frame]
@[simp] theorem State.presEvent_eng (s : State) (e k o : Nat) : (s.presEvent e k o).eng = s.eng := by rw [State.presEvent_frame]
@[simp] theorem State.presEvent_fab (s : State) (e k o : Nat) : (s.presEvent e k o).fab = s.fab := by rw [State.presEvent_frame]
@[simp] theorem State.presEvent_rst (s : State) (e k o : Nat) : (s.presEvent e k o).rst = s.rst := by rw [State.presEvent_frame]
@[simp] theorem State.presEvent_clk (s : State) (e k o : Nat) : (s.presEvent e k o).clk = s.clk := by rw [State.presEvent_frame]
@[simp] theorem State.presEvent_pwr (s : State) (e k o : Nat) : (s.presEvent e k o).pwr = s.pwr := by rw [State.presEvent_frame]
@[simp] theorem State.presEvent_bst (s : State) (e k o : Nat) : (s.presEvent e k o).bst = s.bst := by rw [State.presEvent_frame]
@[simp] theorem State.presEvent_fw (s : State) (e k o : Nat) : (s.presEvent e k o).fw = s.fw := by rw [State.presEvent_frame]

@[simp] theorem State.authorise_pending (s : State) (o : Nat) : (s.authorise o).pending = s.pending := by rw [State.authorise_frame]
@[simp] theorem State.authorise_out (s : State) (o : Nat) : (s.authorise o).out = s.out := by rw [State.authorise_frame]
@[simp] theorem State.authorise_freeDraws (s : State) (o : Nat) : (s.authorise o).freeDraws = s.freeDraws := by rw [State.authorise_frame]
@[simp] theorem State.authorise_cfg (s : State) (o : Nat) : (s.authorise o).cfg = s.cfg := by rw [State.authorise_frame]
@[simp] theorem State.authorise_tbc (s : State) (o : Nat) : (s.authorise o).tbc = s.tbc := by rw [State.authorise_frame]
@[simp] theorem State.authorise_ports (s : State) (o : Nat) : (s.authorise o).ports = s.ports := by rw [State.authorise_frame]
@[simp] theorem State.authorise_fns (s : State) (o : Nat) : (s.authorise o).fns = s.fns := by rw [State.authorise_frame]
@[simp] theorem State.authorise_pool (s : State) (o : Nat) : (s.authorise o).pool = s.pool := by rw [State.authorise_frame]
@[simp] theorem State.authorise_cnd (s : State) (o : Nat) : (s.authorise o).cnd = s.cnd := by rw [State.authorise_frame]
@[simp] theorem State.authorise_tabLoads (s : State) (o : Nat) : (s.authorise o).tabLoads = s.tabLoads := by rw [State.authorise_frame]
@[simp] theorem State.authorise_dir (s : State) (o : Nat) : (s.authorise o).dir = s.dir := by rw [State.authorise_frame]
@[simp] theorem State.authorise_qos (s : State) (o : Nat) : (s.authorise o).qos = s.qos := by rw [State.authorise_frame]
@[simp] theorem State.authorise_drc (s : State) (o : Nat) : (s.authorise o).drc = s.drc := by rw [State.authorise_frame]
@[simp] theorem State.authorise_ecc (s : State) (o : Nat) : (s.authorise o).ecc = s.ecc := by rw [State.authorise_frame]
@[simp] theorem State.authorise_eng (s : State) (o : Nat) : (s.authorise o).eng = s.eng := by rw [State.authorise_frame]
@[simp] theorem State.authorise_fab (s : State) (o : Nat) : (s.authorise o).fab = s.fab := by rw [State.authorise_frame]
@[simp] theorem State.authorise_rst (s : State) (o : Nat) : (s.authorise o).rst = s.rst := by rw [State.authorise_frame]
@[simp] theorem State.authorise_clk (s : State) (o : Nat) : (s.authorise o).clk = s.clk := by rw [State.authorise_frame]
@[simp] theorem State.authorise_pwr (s : State) (o : Nat) : (s.authorise o).pwr = s.pwr := by rw [State.authorise_frame]
@[simp] theorem State.authorise_bst (s : State) (o : Nat) : (s.authorise o).bst = s.bst := by rw [State.authorise_frame]
@[simp] theorem State.authorise_fw (s : State) (o : Nat) : (s.authorise o).fw = s.fw := by rw [State.authorise_frame]

@[simp] theorem State.prewriteRefused_pending (s : State) : s.prewriteRefused.pending = s.pending := by rw [State.prewriteRefused_frame]
@[simp] theorem State.prewriteRefused_freeDraws (s : State) : s.prewriteRefused.freeDraws = s.freeDraws := by rw [State.prewriteRefused_frame]
@[simp] theorem State.prewriteRefused_cfg (s : State) : s.prewriteRefused.cfg = s.cfg := by rw [State.prewriteRefused_frame]
@[simp] theorem State.prewriteRefused_tbc (s : State) : s.prewriteRefused.tbc = s.tbc := by rw [State.prewriteRefused_frame]
@[simp] theorem State.prewriteRefused_ports (s : State) : s.prewriteRefused.ports = s.ports := by rw [State.prewriteRefused_frame]
@[simp] theorem State.prewriteRefused_pool (s : State) : s.prewriteRefused.pool = s.pool := by rw [State.prewriteRefused_frame]
@[simp] theorem State.prewriteRefused_cnd (s : State) : s.prewriteRefused.cnd = s.cnd := by rw [State.prewriteRefused_frame]
@[simp] theorem State.prewriteRefused_tabLoads (s : State) : s.prewriteRefused.tabLoads = s.tabLoads := by rw [State.prewriteRefused_frame]
@[simp] theorem State.prewriteRefused_dir (s : State) : s.prewriteRefused.dir = s.dir := by rw [State.prewriteRefused_frame]
@[simp] theorem State.prewriteRefused_qos (s : State) : s.prewriteRefused.qos = s.qos := by rw [State.prewriteRefused_frame]
@[simp] theorem State.prewriteRefused_drc (s : State) : s.prewriteRefused.drc = s.drc := by rw [State.prewriteRefused_frame]
@[simp] theorem State.prewriteRefused_ecc (s : State) : s.prewriteRefused.ecc = s.ecc := by rw [State.prewriteRefused_frame]
@[simp] theorem State.prewriteRefused_eng (s : State) : s.prewriteRefused.eng = s.eng := by rw [State.prewriteRefused_frame]
@[simp] theorem State.prewriteRefused_fab (s : State) : s.prewriteRefused.fab = s.fab := by rw [State.prewriteRefused_frame]
@[simp] theorem State.prewriteRefused_rst (s : State) : s.prewriteRefused.rst = s.rst := by rw [State.prewriteRefused_frame]
@[simp] theorem State.prewriteRefused_clk (s : State) : s.prewriteRefused.clk = s.clk := by rw [State.prewriteRefused_frame]
@[simp] theorem State.prewriteRefused_bst (s : State) : s.prewriteRefused.bst = s.bst := by rw [State.prewriteRefused_frame]

/-! ### Outcomes -/

/-- A vector that nothing holds sends one message. -/
theorem State.signal_open (s : State) (f : Func) (v : Nat) (h : s.fnThere f = true) (g : s.vecHeld f v = false) :
    s.signal f v = s.emit (.msix f v) := by simp [State.signal, h, g]

/-- A vector that is held sets its pending bit. -/
theorem State.signal_held (s : State) (f : Func) (v : Nat) (h : s.fnThere f = true) (g : s.vecHeld f v = true) :
    s.signal f v = s.modFn f fun x => { x with vecs := tabMod ({} : Vec) x.vecs v fun e => { e with pending := true } } := by
  simp [State.signal, h, g]

/-- A function that is not there signals nothing. -/
theorem State.signal_absent (s : State) (f : Func) (v : Nat) (h : s.fnThere f = false) : s.signal f v = s := by
  simp [State.signal, h]

theorem State.send_open (s : State) (l : Nat) (o : Out) (h : s.linkOpen l = true) : s.send l o = s.emit o := by
  simp [State.send, h]

theorem State.send_closed (s : State) (l : Nat) (o : Out) (h : s.linkOpen l = false) : s.send l o = s := by
  simp [State.send, h]

/-- The time base never moves back. -/
theorem State.until_tbc_le (s : State) (t : Nat) : s.tbc ≤ (s.until t).tbc := Nat.le_max_left _ _

theorem State.until_past (s : State) (t : Nat) (h : t ≤ s.tbc) : s.until t = s := by
  simp only [State.until, Nat.max_eq_left h]

/-- A command that is discarded, held, refused or carried out: every outcome of a call. -/
theorem mbxCall_down (c : Row) (i : Instr) (v : Iface) (len : Nat) (s : State) (h : State → Reply) (d : s.ifaceUp v = false) :
    mbxCall c i v len s h = (match ifaceFunc v with | some f => s.dropIo (funcLink s.cfg f) | none => s) := by
  cases v <;> simp [mbxCall, d, ifaceFunc]

theorem mbxCall_paused (c : Row) (i : Instr) (v : Iface) (len : Nat) (s : State) (h : State → Reply) (u : s.ifaceUp v = true)
    (p : s.mbxPaused = true) : mbxCall c i v len s h = s.setMbx { s.mbx with held := s.mbx.held ++ [i] } := by
  simp [mbxCall, u, p]

theorem mbxCall_refused (c : Row) (i : Instr) (v : Iface) (len : Nat) (s : State) (h : State → Reply) (r : Ret) (u : s.ifaceUp v = true)
    (p : s.mbxPaused = false) (n : r ≠ .holdupLow) (e : s.refusal c v len = some r) :
    mbxCall c i v len s h = s.respond v c.op r [] := by
  cases r <;> simp_all [mbxCall]

theorem mbxCall_foreground (c : Row) (i : Instr) (v : Iface) (len : Nat) (s : State) (h : State → Reply) (u : s.ifaceUp v = true)
    (p : s.mbxPaused = false) (e : s.refusal c v len = none) (l : (h s).later = false) (b : (h s).ret ≠ .backgroundStarted)
    (a : c.pres = false) : mbxCall c i v len s h = (h s).after ((h s).st.respond v c.op (h s).ret (h s).out) := by
  simp [mbxCall, u, p, e, l, b, a]

theorem mbxCall_background (c : Row) (i : Instr) (v : Iface) (len : Nat) (s : State) (h : State → Reply) (u : s.ifaceUp v = true)
    (p : s.mbxPaused = false) (e : s.refusal c v len = none) (l : (h s).later = false) (b : (h s).ret = .backgroundStarted)
    (f : s.bgBusy v c.op (h s).bg = false) (a : c.pres = false) :
    mbxCall c i v len s h =
      (h s).after (((h s).st.modIface v fun x => { x with bg := some { opcode := c.op, args := (h s).bg } }).respond v c.op (h s).ret (h s).out) := by
  simp [mbxCall, u, p, e, l, b, f, a]

end Sys2Proof.Machine
end

