-- ==== Sys2Proof/WellFormed.lean ====
section
/-! DEFINITION. Well-formed commands: operands that name a unit of the largest part and byte strings of the length the
command carries. A command that is not well-formed is not one that the module can receive; the meanings are total all the
same and rest on none of these checks. -/
namespace Sys2Proof

/-- A link number `2p + h` of a host port and its half (12 R384). -/
def okLink (l : Nat) : Bool := decide (l < 8)

/-- A host port HP0-HP3 (00 R7). -/
def okHostPort (p : Nat) : Bool := decide (p < 4)

/-- A peer port PP0-PP5 (00 R7). -/
def okPeerPort (p : Nat) : Bool := decide (p < 6)

/-- A slice SL0-SL7 (00 R7). -/
def okSlice (s : Nat) : Bool := decide (s < 8)

/-- The device address of a 64 B line. -/
def okLine (d : Nat) : Bool := d % 64 == 0

/-- A controller of a slice: 96 of T1 or 24 of T2 (10 R307). -/
def okCtl (c : Ctl) : Bool := decide (c.slice < 8) && ((c.tier == 1 && decide (c.unit < 96)) || (c.tier == 2 && decide (c.unit < 24)))

/-- A command interface (13 R419). -/
def okIface (v : Iface) : Bool :=
  match v with
  | .pf0 l => okLink l
  | .pf1 p => okHostPort p
  | .mctp => true

/-- A function of a link (12 R393). -/
def okFunc (f : Func) : Bool :=
  match f with
  | .pf0 l => okLink l
  | .pf1 p => okHostPort p
  | .vf t => decide (t < 1024)

/-- Symbols in error of a T1 line: 35 symbols of 16 bits (11 R346). -/
def okFlips (x : List Flip) : Bool := x.all fun f => decide (f.sym < 35) && decide (f.pat < 2 ^ 16)

/-- The fields of a Periscope header at their widths (08 R251). -/
def okMsg (m : Msg) : Bool := decide (m.src < 256) && decide (m.dst < 256) && decide (m.tag < 2 ^ 12) && decide (m.hops < 16) && decide (m.gen < 2 ^ 16) &&
  decide (m.ca < 2 ^ 52) && decide (m.cls < 16) && decide (m.status < 16)

/-- Controllers named by a start-up are controllers of the part (15 R505). -/
def okBoot (e : BootEnv) : Bool := e.train.all fun t => okCtl t.1

/-- The checks of a command's operands. -/
def wellFormed (i : Instr) : Bool :=
  match i with
  | .hostRead l _ d x => okLink l && okLine d && okFlips x
  | .hostWrite l _ d b w _ => okLink l && okLine d && b.length == 64 && decide (w < 2 ^ 64)
  | .loupeFill _ _ => true
  | .condenserCodeBlock _ => true
  | .blockDecode _ _ _ _ => true
  | .heldWriteReexamine s => okSlice s
  | .holdLimitExpiry s => okSlice s
  | .overrunReliefPromotion _ => true
  | .epochAdvance s => okSlice s
  | .migrationScan _ => true
  | .moveSwitch _ => true
  | .moveCancel _ => true
  | .retireListSave => true
  | .rdS l _ d => okLink l && okLine d
  | .rdE l _ d => okLink l && okLine d
  | .rdI l _ d => okLink l && okLine d
  | .wb l _ d b _ => okLink l && okLine d && b.length == 64
  | .evict l _ d => okLink l && okLine d
  | .birsp _ d _ => okLine d
  | .recallTimeout d => okLine d
  | .dirPubDb l _ _ => okLink l
  | .dirPubQuery l _ _ => okLink l
  | .publishFenceDone _ _ => true
  | .publish v b => okIface v && decide (b.length ≤ 65536)
  | .publishQuery v b => okIface v && decide (b.length ≤ 65536)
  | .hostLostLost v b => okIface v && decide (b.length ≤ 65536)
  | .hostLostDone => true
  | .hostLostReinstate v b => okIface v && decide (b.length ≤ 65536)
  | .cursorWrite c _ => decide (c < 256)
  | .layerAdvanceReceived s c => okSlice s && decide (c < 256)
  | .doorbell c _ => decide (c < 256)
  | .stepConsume c _ => decide (c < 256)
  | .stepStart _ => true
  | .readinessCheck _ => true
  | .demandFetchDone _ => true
  | .lateAbort _ => true
  | .matmul _ => true
  | .attend _ => true
  | .norm _ => true
  | .act _ => true
  | .rotate _ => true
  | .route _ => true
  | .gatherConcat _ => true
  | .gatherSum _ => true
  | .gatherInput _ => true
  | .scatterBroadcast _ => true
  | .scatterSplit _ => true
  | .add _ => true
  | .quant _ => true
  | .copyOut _ => true
  | .stepEnd _ => true
  | .stepComplete c _ => decide (c < 256)
  | .completionRingRoom c _ => decide (c < 256)
  | .stagingFetchIssue s => okSlice s
  | .stagingFetchDone _ => true
  | .deadlineMiss c _ => decide (c < 256)
  | .enginePark s => okSlice s
  | .engineWake s => okSlice s
  | .cursorBind v b => okIface v && decide (b.length ≤ 65536)
  | .cursorUnbind v b => okIface v && decide (b.length ≤ 65536)
  | .cursorUnbindDone c => decide (c < 256)
  | .modelLoad v b => okIface v && decide (b.length ≤ 65536)
  | .modelLoadDone t => decide (t < 1024)
  | .modelUnload v b => okIface v && decide (b.length ≤ 65536)
  | .tileWrite v b => okIface v && decide (b.length ≤ 65536)
  | .modelQuery v b => okIface v && decide (b.length ≤ 65536)
  | .tableLoad v b => okIface v && decide (b.length ≤ 65536)
  | .tableBuilt s _ => okSlice s
  | .tableRetire v b => okIface v && decide (b.length ≤ 65536)
  | .slotRelease s _ => okSlice s
  | .recodeBlock _ => true
  | .dcAdd v _ _ _ _ => okIface v
  | .addDynamicCapacityResponse l _ _ => okLink l
  | .dcRelease v _ => okIface v
  | .extentPolicySetExtent v b => okIface v && decide (b.length ≤ 65536)
  | .sharingChangeDone _ => true
  | .extentPolicySetTenant v b => okIface v && decide (b.length ≤ 65536)
  | .qosSetClassHost v b => okIface v && decide (b.length ≤ 65536)
  | .qosSetClassTenant v b => okIface v && decide (b.length ≤ 65536)
  | .qosSetClassClass v b => okIface v && decide (b.length ≤ 65536)
  | .qosAdmit v b => okIface v && decide (b.length ≤ 65536)
  | .qosQuery v b => okIface v && decide (b.length ≤ 65536)
  | .bankIdlePrecharge c _ => okCtl c
  | .requestUrgent c _ => okCtl c
  | .refresh c _ => okCtl c
  | .rfmMark c _ _ => okCtl c
  | .rfmDue c _ => okCtl c
  | .tempPoll s _ _ => okSlice s
  | .driftTracking c _ => okCtl c
  | .controllerTrained c _ => okCtl c
  | .controllerFreeze c k _ => okCtl c && decide (1 ≤ k) && decide (k ≤ 5)
  | .freezePoisonTimeout c => okCtl c
  | .autoRetire c => okCtl c
  | .drcFreezeDump v b => okIface v && decide (b.length ≤ 65536)
  | .drcThaw v b => okIface v && decide (b.length ≤ 65536)
  | .drcRetireChannel v b => okIface v && decide (b.length ≤ 65536)
  | .applyMask f s _ => okFunc f && okSlice s
  | .applyEvac f s _ => okFunc f && okSlice s
  | .selfRefreshEntry c => okCtl c
  | .stackFailure s k => okSlice s && decide (k < 3)
  | .rebuildDone s => okSlice s
  | .scrubRange v b => okIface v && decide (b.length ≤ 65536)
  | .scrubCancel v b => okIface v && decide (b.length ≤ 65536)
  | .scrubHomeRead _ _ _ => true
  | .scrubStatus v b => okIface v && decide (b.length ≤ 65536)
  | .retireListGet v b => okIface v && decide (b.length ≤ 65536)
  | .peerLinkTrain p _ => okPeerPort p
  | .flitReceive p f => okPeerPort p && f.length == 272
  | .retryReq p _ => okPeerPort p
  | .retryReqRepeat p => okPeerPort p
  | .ackTimer p => okPeerPort p
  | .peerLinkDown p => okPeerPort p
  | .peerLinkRetrained p _ => okPeerPort p
  | .portDown p => okPeerPort p
  | .rd m => okMsg m
  | .wr m => okMsg m
  | .rdData m => okMsg m
  | .wrAck m => okMsg m
  | .nack m => okMsg m
  | .reqTimeoutExpiry _ => true
  | .hello p _ n _ _ => okPeerPort p && decide (n < 256)
  | .heartbeat m => decide (m < 256)
  | .heartbeatTimer => true
  | .memberLost n => decide (n < 256)
  | .masterLost => true
  | .joinReq p _ _ _ => okPeerPort p
  | .joinAck m n _ _ => decide (m < 256) && decide (n < 256)
  | .joinTimeout => true
  | .membership m _ _ _ => decide (m < 256)
  | .membershipAck m _ => decide (m < 256)
  | .poll m => decide (m < 256)
  | .pollAnswer m _ _ _ => decide (m < 256)
  | .windowNotice m _ _ _ _ => decide (m < 256)
  | .windowInfo m _ => decide (m < 256)
  | .occupancy m _ => decide (m < 256)
  | .occupancyAnswer m _ _ => decide (m < 256)
  | .periscopeWindowStage v b => okIface v && decide (b.length ≤ 65536)
  | .periscopeCommit v b => okIface v && decide (b.length ≤ 65536)
  | .constellationJoinAdmit v b => okIface v && decide (b.length ≤ 65536)
  | .constellationJoinJoin v b => okIface v && decide (b.length ≤ 65536)
  | .constellationJoinLeave v b => okIface v && decide (b.length ≤ 65536)
  | .constellationStatus v b => okIface v && decide (b.length ≤ 65536)
  | .constellationMasterSet v b => okIface v && decide (b.length ≤ 65536)
  | .trayCompletion _ _ => true
  | .trayReadTimeout _ => true
  | .tagReuse _ => true
  | .tp0LinkError _ => true
  | .trayDrain f _ _ => okFunc f
  | .linkUp l _ => okLink l
  | .linkDown l => okLink l
  | .perst p => okHostPort p
  | .flrVf t => decide (t < 1024)
  | .flrPf1 p => okHostPort p
  | .flrPf0 l => okLink l
  | .vfEnable p _ _ => okHostPort p
  | .biEnableWrite l _ => okLink l
  | .powerStateWrite f _ => okFunc f
  | .msixRelease f _ => okFunc f
  | .portFreeze l _ => okLink l
  | .poisonCountRestart l => okLink l
  | .portRelease v b => okIface v && decide (b.length ≤ 65536)
  | .portReleaseLinkReset v b => okIface v && decide (b.length ≤ 65536)
  | .unexpectedCompletion l => okLink l
  | .globalPersistentFlush l _ => okLink l
  | .identify v => okIface v
  | .backgroundOperationStatus v => okIface v
  | .requestAbortBackgroundOperation v => okIface v
  | .identifyMemoryDevice v => okIface v
  | .getHealthInfo v => okIface v
  | .getEventRecords v _ => okIface v
  | .clearEventRecords v _ _ _ => okIface v
  | .getEventInterruptPolicy v => okIface v
  | .setEventInterruptPolicy v _ => okIface v
  | .getSupportedLogs v => okIface v
  | .getLog v => okIface v
  | .getTimestamp v => okIface v
  | .setTimestamp v _ => okIface v
  | .getFwInfo v => okIface v
  | .getPoisonList v _ _ => okIface v
  | .injectPoison v _ => okIface v
  | .clearPoison v _ b => okIface v && b.length == 64
  | .getDynamicCapacityConfiguration v _ => okIface v
  | .getDynamicCapacityExtentList v _ _ => okIface v
  | .releaseDynamicCapacity l _ _ => okLink l
  | .unsupportedCommand v _ => okIface v
  | .getDeviceProfile v b => okIface v && decide (b.length ≤ 65536)
  | .getSliceStatus v b => okIface v && decide (b.length ≤ 65536)
  | .fwChainOfferBegin v b => okIface v && decide (b.length ≤ 65536)
  | .fwChainOfferSegment v b => okIface v && decide (b.length ≤ 65536)
  | .fwChainOfferOffer v b => okIface v && decide (b.length ≤ 65536)
  | .fwChainOfferAbort v b => okIface v && decide (b.length ≤ 65536)
  | .offerVerified => true
  | .flashWriteStep => true
  | .flashWriteRetry => true
  | .imageWriteDone _ _ => true
  | .announce m _ _ _ _ _ _ => decide (m < 256)
  | .ready m _ => decide (m < 256)
  | .segment m _ _ => decide (m < 256)
  | .resend m _ => decide (m < 256)
  | .done m => decide (m < 256)
  | .received m _ => decide (m < 256)
  | .result n _ _ => decide (n < 256)
  | .chainHopTimeout => true
  | .activate m => decide (m < 256)
  | .activated n _ _ => decide (n < 256)
  | .activateTimeout => true
  | .fwActivate v b => okIface v && decide (b.length ≤ 65536)
  | .fwActivateConstellation v b => okIface v && decide (b.length ≤ 65536)
  | .handoverPause => true
  | .handoverBarrier => true
  | .handoverImportDone _ => true
  | .handoverTimeout => true
  | .barrierAbort => true
  | .handoverNextUnit => true
  | .handoverComplete => true
  | .fwConfirm v b => okIface v && decide (b.length ≤ 65536)
  | .confirmExpired => true
  | .fwStatus v b => okIface v && decide (b.length ≤ 65536)
  | .fwRecoveryEnter v b => okIface v && decide (b.length ≤ 65536)
  | .presenceStatus v b => okIface v && decide (b.length ≤ 65536)
  | .attestDual v b => okIface v && decide (b.length ≤ 65536)
  | .identityRotate v b => okIface v && decide (b.length ≤ 65536)
  | .sanitizeAll v b => okIface v && decide (b.length ≤ 65536)
  | .debugUnlock v b => okIface v && decide (b.length ≤ 65536)
  | .freqSet v b => okIface v && decide (b.length ≤ 65536)
  | .holdupStatus v b => okIface v && decide (b.length ≤ 65536)
  | .bistRun v b => okIface v && decide (b.length ≤ 65536)
  | .bistSuiteDone s _ => okSlice s
  | .bistSuiteTimeout s _ => okSlice s
  | .bistResult v b => okIface v && decide (b.length ≤ 65536)
  | .presenceButton => true
  | .buttonWindowExpiry => true
  | .sealOpen => true
  | .sealRecordRetry => true
  | .moduleReset _ e => okBoot e
  | .watchdogExpiry s e => okSlice s && okBoot e
  | .sliceReset s _ => okSlice s
  | .drainCut s => okSlice s
  | .sliceReturn s _ _ => okSlice s
  | .sliceReturnTimeout s => okSlice s
  | .sliceLost s _ => okSlice s
  | .tenantReset t => decide (t < 1024)
  | .refLost => true
  | .refSwitch => true
  | .clockFault s _ _ => okSlice s
  | .crossingFlush s g => okSlice s && decide (g < 16)
  | .crossingEscalation s g _ => okSlice s && decide (g < 16)
  | .engFreqChange s => okSlice s
  | .engFreqChangeDone s => okSlice s
  | .freqChangeDeferEnd s => okSlice s
  | .junctionPoll s _ => okSlice s
  | .inputSample _ => true
  | .brownoutGuardEnter => true
  | .brownoutGuardExit => true
  | .inputLoss => true
  | .bankExhausted => true
  | .powerEnable _ => true
  | .holdupTest _ _ => true
  | .sbShort => true
  | .smbusTimeout => true
  | .curSel f c => okFunc f && decide (c < 256)
  | .loupeFlush f s _ => okFunc f && okSlice s
  | .loupeDisable f s _ => okFunc f && okSlice s
  | .lock f s _ => okFunc f && okSlice s
  | .minClr f _ => okFunc f
  | .registerLowHalfRead f _ => okFunc f
  | .registerWrite f _ _ z _ => okFunc f && (z == 4 || z == 8)
  | .bankCommandIssue c => okCtl c
  | .hostBucketRefill _ => true
  | .requestTagReuse _ => true
  | .ucieEdgeDown s e => okSlice s && decide (e < 4)
  | .ucieLaneRepair s => okSlice s
  | .stripeRebuilt s => okSlice s
  | .sanitizeAllDone _ => true
  | .serviceJumperRemoved => true
  | .sealLoopClosed => true
  | .buttonPressed => true
  | .buttonReleased => true
  | .perstDeassert p => okHostPort p
  | .spdmRequest l _ => okLink l
  | .mctpSetEndpointId _ => true

end Sys2Proof
end

