-- ==== Sys2Proof/Tests/Slice0.lean ====
section
/-! SUPPORT. The model's own tests: one small state or two for each family, and for every statement with hypotheses a state
and operands that meet them. -/
namespace Sys2Proof.Tests
set_option Elab.async false
open Sys2Proof Sys2Proof.Machine Sys2Proof.Claims

/-! ## States -/

/-- A PM8 in service: eight slices, port 0 up on CXL 3.1, the mailboxes and memory ready. -/
def up : State :=
  { rst := { configReady := true, mbxReady := true, mediaReady := true, memoryActive := true, engineReady := true, phase := 9,
             inService := List.range 8, slices := (List.range 8).map fun n => (n, { state := 1 }) },
    ports := [(0, { link := 2, cxlGen := 3, speed := 6, width := 3, biEnabled := true })],
    pwr := { state := 2, energyMj := 1500, bankMv := 48000, testAt := some 0, inputMv := 48000 },
    drc := { regs := (List.range 8).map fun n => (n, { lock := true }) } }

/-- Host 5 on link 0, of tenant 3, with an extent of 64 MiB at DPA 0. -/
def ext0 : Extent := { len := 2 ^ 26, hosts := [5], tag := 1, owner := 3, accepted := [5] }
def host5 : HostRec := { port := 0, tenant := 3, cls := 2 }
def pool (s : State := up) : State :=
  { s with pool := { s.pool with extents := [(0, ext0)], quotas := [(3, { t1 := 64, t2 := 64 })] }, qos := { s.qos with hosts := [(5, host5)] } }

/-- The page at DPA 4,096 with a home. -/
def homed (h : Home) (s : State := pool) : State := s.modPage 1 fun p => { p with ent := { p.ent with home := some h } }
def t1Home : Home := { tier := 1, ma := 4096 }
def zeroBlk : Block := { coder := 0, strength := 2, kind := 0, sectors := sectorsFor 2 0, logical := 4096, payload := [], check := 0x98F94189 }
def t2Home : Home := { tier := 2, ma := 8192, blk := some zeroBlk }

set_option maxRecDepth 100000 in
theorem zeroBlk_decodes : decodeBlock [] zeroBlk = .ok (List.replicate 4096 0) := by decide +kernel

/-! ## Pool memory -/

theorem met_ReadOfUnwrittenPageIsZero : Reaches 0 (some 5) 4096 5 host5 0 ext0 pool ∧ ext0.policy.sharing = 0 ∧
    pool.lineBusy 64 = false ∧ pool.linePoison 64 = false ∧ pool.homeOf (.page 1) = none := by decide +kernel

def inT1 : State := homed t1Home
theorem met_ReadOfT1LineAnswersMemory : Reaches 0 (some 5) 4096 5 host5 0 ext0 inT1 ∧ ext0.policy.sharing = 0 ∧
    inT1.lineBusy 64 = false ∧ inT1.linePoison 64 = false ∧ inT1.homeOf (.page 1) = some t1Home ∧ t1Home.tier = 1 ∧
    inT1.homeFrozen (inT1.sliceOf 4096) t1Home 0 64 = none ∧
    (inT1.entriesFor (inT1.sliceOf 4096) t1Home 0 64 false host5.cls).map (fun e => inT1.chanState e.1) = [2] := by decide +kernel
def readEnt : QEnt := { write := false, bank := 3, row := 9, laddr := 0, cls := 2, link := some 0, arrival := 0, job := some 7 }
def readJobS : State :=
  let c : Ctl := { slice := 0, tier := 1, unit := 0 }
  (inT1.modChan c fun x => { x with queue := [readEnt], openRows := [(3, 9)] }).setDrc { (inT1.modChan c fun x =>
    { x with queue := [readEnt], openRows := [(3, 9)] }).drc with jobs := [(7, { left := 1, tier := 1, read := some { link := 0, pbr := some 5, host := 5, dpa := 4096, arrival := 0 }, data := some [] })] }
theorem met_ReadOfT1Line_issue : readJobS.chanState { slice := 0, tier := 1, unit := 0 } = 2 ∧
    (readJobS.chan { slice := 0, tier := 1, unit := 0 }).queue = [readEnt] ∧ readEnt.bank < banksOf 1 ∧
    tabFind (readJobS.chan { slice := 0, tier := 1, unit := 0 }).openRows 3 = some readEnt.row ∧
    (tabFind readJobS.drc.jobs 7).map (·.left) = some 1 ∧ readJobS.linkOpen 0 = true ∧ readJobS.drc.ingress = [] := by decide +kernel

theorem met_WriteToT1LineStoresEnabledBytes : Reaches 0 (some 5) 4096 5 host5 0 ext0 inT1 ∧ memWf inT1.pool.mem = true ∧
    (inT1.pool.held.any fun w => w.line == 64) = false ∧ inT1.moveOf (.page 1) = none ∧ inT1.linePoison 64 = false ∧
    inT1.homeOf (.page 1) = some t1Home ∧ inT1.homeFrozen (inT1.sliceOf 4096) t1Home 0 64 = none ∧
    inT1.stripeWaits (inT1.sliceOf 4096) t1Home 0 = false := by decide +kernel

def inT2 : State := homed t2Home
theorem met_WriteBelowT1EntersCondenser : Reaches 0 (some 5) 4096 5 host5 0 ext0 inT2 ∧
    (inT2.pool.held.any fun w => w.line == 64) = false ∧ inT2.moveOf (.page 1) = none ∧ inT2.linePoison 64 = false ∧
    (inT2.homeOf (.page 1)).map (·.tier) = some 2 := by decide +kernel

theorem met_RefusedRequestsChangeNoMemory_unassigned : linkFitted pool.cfg 0 = true ∧ (pool.port 0).link = 2 ∧ (pool.port 0).cxlGen ≠ 0 ∧
    (pool.port 0).frozen = false ∧ pool.hostId 0 (some 6) = none := by decide +kernel
theorem met_RefusedRequestsChangeNoMemory_outside : pool.hostId 0 (some 5) = some 5 ∧ pool.hostRec 5 = some host5 ∧ host5.limit = 0 ∧
    pool.reach 0 5 (2 ^ 26) = none := by decide +kernel

def filling : State := inT2.setPool { inT2.pool with fills := [(1, 2)] }
theorem met_LoupeFillAndEpochAdvance : (filling.homeOf (.page 1)).map (·.tier) = some 2 ∧ filling.pool.fills.contains (1, 2) = true ∧
    (filling.pool.loupe.any fun c => c.page == 1) = false ∧
    filling.loupeVictim (filling.sliceOf 4096) (Config.loupeSet 1 % 512) 2 = some none := by decide +kernel

def fullWrite : WReq :=
  { link := some 0, pbr := some 5, host := 5, line := 64, data := List.replicate 64 0, be := fullBe, poison := false, arrival := 0, cls := 2 }
def atCondenser : State := inT2.setPool { inT2.pool with coding := [fullWrite] }
set_option maxRecDepth 100000 in
theorem met_CondenserStoresCodedWrite : memWf atCondenser.pool.mem = true ∧ atCondenser.pool.waiting = [] ∧
    (atCondenser.pool.coding.find? fun w => w.line / 64 == 1) = some fullWrite ∧
    (atCondenser.pool.held.any fun x => x.line == 64) = false ∧ atCondenser.moveOf (.page 1) = none ∧
    atCondenser.extentOf 4096 = some (0, ext0) ∧ (atCondenser.homeOf (.page 1)).map (·.tier) = some 2 ∧
    (atCondenser.homeOf (.page 1)).all (fun h => (atCondenser.homeFrozen (atCondenser.sliceOf 4096) h 0 (homeLen h)).isNone) = true ∧
    ((atCondenser.setPool { atCondenser.pool with coding := [] }).storeCoded fullWrite 0 ext0
      (atCondenser.tenantHeld (atCondenser.itemTenant (.page 1)))).isSome = true := by decide +kernel

def heldFull : State := inT2.setPool { inT2.pool with held := [fullWrite] }
def frozenT1 : Home := { tier := 1, ma := 2 ^ 20 }
theorem met_HeldWrites_expire : heldFull.pool.waiting = [] ∧ heldFull.firstExpiring 0 = some (fullWrite, 50000000) := by decide +kernel
def discardWrite : WReq := { fullWrite with line := 2 ^ 26 }
def heldOut : State := pool.setPool { pool.pool with held := [discardWrite] }
theorem met_HeldWrites_reexamine : heldOut.pool.held = [discardWrite] ∧ heldOut.sliceOf (discardWrite.line * 64) = 4 ∧
    heldOut.moveOf (.page (discardWrite.line / 64)) = none ∧
    ((heldOut.setPool { heldOut.pool with held := [] }).tryStore discardWrite false).isSome = true := by decide +kernel
theorem met_HeldWrites_relief : tabFind heldFull.pool.extents 0 = some ext0 ∧ ext0.policy.placement ≠ 3 ∧
    (heldFull.pagesIn 0 ext0.len).map (·.1) = [1] ∧ (heldFull.homeOf (.page 1)).map (·.tier) = some 2 ∧ heldFull.moveOf (.page 1) = none ∧
    (heldFull.pool.held.any fun w => heldFull.sliceOf (w.line * 64) == heldFull.sliceOf 4096 && 0 ≤ w.line * 64 && w.line * 64 < 0 + ext0.len) = true ∧
    heldFull.up (heldFull.sliceOf 4096) = true ∧ heldFull.roomT1 3 (heldFull.sliceOf 4096) 4096 = true ∧ ((heldFull.homeOf (.page 1)).bind (heldFull.promoteTo (.page 1))).map (·.tier) = some 1 := by
  decide +kernel

def hot : State := inT2.modPage 1 fun p => { p with ent := { p.ent with heat := 8 } }
def hot1 : State := (hot.modEnt (.page 1) (decayed (hot.mig 0))).drainMark 3 0
theorem met_Moves_scan : (hot.homeOf (.page 1)).map (·.tier) = some 2 ∧
    (hot.entOf (.page 1)).all (fun x => x.movedAt.isNone && x.heavy < (hot.eccReg 0).heavyLimit && x.any < (hot.eccReg 0).anyLimit &&
      (hot.mig 0).promoteHeat ≤ (decayed (hot.mig 0) x).heat) = true ∧ hot.sliceOf 4096 = 0 ∧ hot.itemTenant (.page 1) = 3 ∧
    hot.moveOf (.page 1) = none ∧ (hot.homeOf (.page 1)).all (fun h => !hot.leaves 0 h) = true ∧ (hot.mig 0).migEnable = true ∧
    (hot.itemPlace (.page 1)).1 = 2 ∧ hot1.roomT1 3 0 4096 = true ∧ hot1.promotesFirst (.page 1) = true ∧
    ((hot.homeOf (.page 1)).bind (hot1.promoteTo (.page 1))).map (·.tier) = some 1 := by decide +kernel

def promote : Move := { item := .page 1, dest := t1Home, kind := 0, began := 0 }
def moving : State := inT2.setPool { inT2.pool with moves := [promote] }
theorem met_Moves_switch : moving.pool.waiting = [] ∧ moving.moveOf (.page 1) = some promote ∧ promote.held = [] ∧
    moving.homeOf (.page 1) = some t2Home ∧ moving.farBusy (.page 1) = false ∧
    moving.moveClear (.page 1) t2Home t1Home = true ∧
    (moving.cn (moving.sliceOf 4096)).slots = [] := by decide +kernel
theorem met_Moves_cancel : (moving.setPool { moving.pool with moves := [{ promote with firstHeld := some 7 }] }).moveOf (.page 1) =
    some { promote with firstHeld := some 7 } := by decide +kernel

theorem met_GoodBlockDecodes : moving.homeOf (.page 1) = some t2Home ∧
    moving.homeFrozen (moving.itemSlice (.page 1)) t2Home 0 (homeLen t2Home) = none := by decide +kernel
theorem met_GoodBlockDecodes_map : up.up 3 = true ∧ ∀ k < 2, up.copyServes 3 k = false ∨
    lineDecode (lineErrors ((((List.range 5).flatMap fun k => [100 * k, 576 + 100 * k]).filter fun b => decide (576 * k ≤ b)).map fun b =>
      b - 576 * k)) = none := by decide +kernel
theorem met_RefusedRequests_bucket : token ≤ bucketNow { host5 with limit := 100, burst := 1, tokens := token, tokensAt := 0 } 0 := by decide +kernel
/-! ## Directory, publishes, lost hosts -/

def extS : Extent := { ext0 with hosts := [5, 6], policy := { sharing := 1 } }
def host6 : HostRec := { port := 0, tenant := 3, cls := 2 }
def shared (es : Tab DEnt := []) : State :=
  { pool with pool := { pool.pool with extents := [(0, extS)] }, qos := { pool.qos with hosts := [(5, host5), (6, host6)] },
              dir := { pool.dir with ents := es } }
theorem met_ReadsOfUntrackedLineTakeEntries : ReachesShared 0 (some 5) 4096 5 host5 0 extS shared ∧ ReadsZero 4096 shared ∧
    shared.dent 64 = none ∧ (shared.setEnts 64).length < shared.dirWays (shared.sliceOf 4096) (Config.dirSet 64 % 2 ^ 21) := by decide +kernel

def owned : State := shared [(64, { state := 2, owner := 6 })]
theorem met_ReadsOfOwnedLineRecallIt : ReachesShared 0 (some 5) 4096 5 host5 0 extS owned ∧
    owned.dent 64 = some { state := 2, owner := 6 } ∧ owned.linkOpen (owned.hostLink 6) = true := by decide +kernel

theorem met_WriteBackAndEvictEndOwnership : ReachesShared 0 (some 6) 4096 6 host6 0 extS owned ∧
    owned.dent 64 = some { state := 2, owner := 6 } := by decide +kernel

def recalled (q : Option DReq) : DEnt := { state := 3, owner := 6, prior := 2, targets := [6], snoop := 1, req := q }
def readS : DReq := { cls := 0, link := some 0, pbr := some 5, host := 5, line := 64, arrival := 0 }
theorem met_Recalls_answer : (shared [(64, recalled (some readS))]).dent (4096 / 64) = some (recalled (some readS)) ∧
    (recalled (some readS)).gotI = false ∧ (shared [(64, recalled (some readS))]).dir.fenced.contains readS.host = false ∧ readS.host ≠ 6 ∧ readS.line = 4096 / 64 ∧ (shared [(64, recalled (some readS))]).dir.waiting = [] := by decide +kernel
theorem met_Recalls_timeout : (shared [(64, recalled none)]).dent (4096 / 64) = some (recalled none) ∧
    (shared [(64, recalled none)]).dir.waiting = [] := by decide +kernel

def region1 : Region := { tag := 1 }
def published : State :=
  { pool with pool := { pool.pool with extents := [(0, { ext0 with policy := { sharing := 2 }, region := some 7 })] },
              dir := { pool.dir with regions := [(7, region1)] } }
theorem met_Publishes_doorbell : published.linkOpen 0 = true ∧ (published.fn (.pf0 0)).d3hot = false ∧ published.hostRec 5 = some host5 ∧
    host5.port = 0 ∧ (published.pubSlot 5).busy = false ∧ published.pubCheck 5 7 = 0 := by decide +kernel
theorem met_Publishes_mailbox : Accepted rowPublish (.pf0 0) [5, 0, 7, 0, 0].length published ∧ fld [5, 0, 7, 0, 0] 0 2 = 5 ∧
    fld [5, 0, 7, 0, 0] 2 2 = 7 ∧ bit (fld [5, 0, 7, 0, 0] 4 1) 0 = false ∧ bit (fld [5, 0, 7, 0, 1] 4 1) 0 = true := by decide +kernel
def pub5 : Pub := { host := 5, region := 7, via := none, arrival := 0 }
def fencing : State := published.setDir { published.dir with publishes := [pub5], slots := [(5, { busy := true })] }
theorem met_Publishes_done : (fencing.dir.publishes.find? fun p => p.region == 7 && p.host == 5) = some pub5 ∧
    fencing.region 7 = some region1 ∧ fencing.pubWaits pub5 = false := by decide +kernel

theorem met_LostHosts_lost : Accepted rowHostLost (.pf0 0) [6, 0, 0].length owned ∧ fld [6, 0, 0] 0 2 = 6 ∧ fld [6, 0, 0] 2 1 = 0 ∧
    owned.dir.sweep = none ∧ owned.bgBusy (.pf0 0) 0xC032 [6] = false ∧
    (owned.dir.ents.filter fun e => e.2.state == 3 && e.2.targets.contains 6) = [] ∧ (owned.dir.publishes.filter fun p => p.host == 6) = [] ∧
    (owned.dir.waiting.filter fun q => q.host == 6) = [] := by
  decide +kernel
def swept : State := owned.setDir { owned.dir with sweep := some { host := 6, started := 0, recallsEnded := 0 }, fenced := [6] }
theorem met_LostHosts_done : swept.dir.sweep = some { host := 6, started := 0, recallsEnded := 0 } ∧
    swept.dir.ents = [(64, { state := 2, owner := 6 })] := by decide +kernel
theorem met_LostHosts_reinstate : Accepted rowHostLost (.pf0 0) [6, 0, 1].length owned ∧ fld [6, 0, 1] 0 2 = 6 ∧ fld [6, 0, 1] 2 1 = 1 ∧
    (owned.dir.sweep.any fun w => w.host == 6) = false := by decide +kernel

def bucketed : HostRec := { host5 with limit := 100, held := [(.hostRead 0 (some 5) 4096 [], 2, 100)], recv := [.hostRead 0 (some 5) 4160 []], emptySince := some 0 }
theorem met_BucketRefillLetsFirstRequestGo :
    (pool.setQos { pool.qos with hosts := [(5, bucketed)] }).hostRec 5 = some bucketed ∧ 0 < bucketed.limit ∧ (bucketed.held.map fun x => x.2.2) = [100] ∧ 0 < bucketed.burst ∧
    bucketed.tokensAt ≤ pool.tbc := by decide +kernel


def orphaned : State := shared [(64, { state := 4, owner := 6 })]
theorem met_Recalls_orphan : ReachesShared 0 (some 6) 4096 6 host6 0 extS orphaned ∧
    orphaned.dent 64 = some { state := 4, owner := 6 } := by decide +kernel
theorem met_Recalls_late : ∀ e, orphaned.dent 64 = some e → e.state ≠ 3 ∨ e.targets.contains 6 = false := by
  have d : orphaned.dent 64 = some { state := 4, owner := 6 } := by decide +kernel
  intro e h; rw [d] at h; cases h; exact .inl (by decide)
theorem met_LostHosts_refused : Accepted rowHostLost (.pf0 0) [6, 0, 1].length swept ∧ fld [6, 0, 1] 0 2 = 6 ∧ fld [6, 0, 1] 2 1 = 1 ∧
    (swept.dir.sweep.map (·.host)) = some 6 ∧ Accepted rowHostLost (.pf0 0) [5, 0, 1].length swept ∧
    (swept.dir.sweep.any fun w => w.host == fld [5, 0, 1] 0 2) = false ∧ swept.dir.fenced.contains (fld [5, 0, 1] 0 2) = false ∧
    Accepted rowHostLost (.pf0 0) [6, 0, 0].length swept ∧ swept.dir.sweep.isSome = true := by decide +kernel

/-! ## Cursors and steps -/

def opd (code sub src0 src1 dst : Nat) (fmt : Nat := 0) : OpDesc :=
  { opcode := code, stochastic := false, routed := false, combine := false, fmt0 := fmt, fmt1 := fmt, dfmt := fmt, scale0 := 0, scale1 := 0,
    dscale := 0, sub := sub, src0 := src0, src1 := src1, dst := dst, length := 2, param0 := 0, param1 := 0 }
/-- The reference to scratch buffer `k`. -/
def sb (k : Nat) : Nat := 2 ^ 28 + k
def lay (ops : List OpDesc) : Layer :=
  { ops := ops, attn := 0xFFFF, ffn := 0xFFFF, post := 0xFFFF, inRec := 64, outRec := 64, vecs := [], t0Work := [], t0Pre := [8192] }
def tile0 (h : Home) : Tile := { layer := 0, tensor := 0, expert := 0xFFFF, n := 0, k := 0, slice := 0, place := 3, remoteOk := false,
                                 strength := 2, ent := { home := some h } }
def mdl (ops : List OpDesc) (tiles : List Tile := []) : Model :=
  { tenant := 3, maxSeq := 4, maxCtx := 64, kvHeads := 1, headDim := 2, kvFmt := 1, kvSplit := 1, kvStrength := 2, qPerKv := 1, hidden := 2,
    tensors := [{ layer := 0, tensor := 0, fmt := 4, scale := 0, shard := 0, nBlocks := 1, kBlocks := 1, experts := 0, mask := 1 }],
    tiles := tiles, layers := [lay ops, lay ops], bound := [], lead := 4, programBytes := 4096, kvT1 := 2 ^ 20, kvT2 := 2 ^ 20 }
def queue0 : Queue := { sq := 4096, cq := 8192, ctrl := 12288, depth := 16 }
def cur0 : Cursor :=
  { tenant := 3, extent := 0, lineOff := 64, model := 0, cls := 2, lead := 1, lateLimit := 20, budgetMs := 100, guardUs := 100, shift := 3,
    horizon := 0, lateIrq := false, queues := [(0, queue0)], entry := 1000, est := 500, estOk := true, state := 2 }
def desc0 : Desc := { type := 1, flags := 0, cmdId := 9, model := 0, first := 0, last := 1, res0 := 0, tag := 0, seqs := 1, seed := 0,
                      inOff := 2 ^ 20, outOff := 2 ^ 21, outBytes := 64, res1 := 0 }
def step0 : StepSt := { cursor := 7, queue := 0, tenant := 3, desc := desc0, sqHead := 1 }
def act0 : OpDesc := opd 4 4 (sb 0) 0 (sb 1)
/-- A bound cursor with its queue, a model of two layers and an open sequence. -/
def engine (m : Model := mdl [act0]) (steps : Tab StepSt := []) (z : Seq := { tenant := 3, handle := 0 }) (c : Cursor := cur0) : State :=
  pool.setEng { pool.eng with models := [(0, m)], cursors := [(7, c)], seqs := [(0, z)], steps := steps, nextStep := 1 }
def withLine (b : Bytes) (s : State) : State := s.setPool { s.pool with mem := memWriteN s.pool.mem 64 b }

def lineAdvance : State := withLine [0, 0, 0, 0, 0, 0, 0, 0, 1, 0, 2] engine
def lineRestart : State := withLine [9, 0, 0, 0, 0, 0, 0, 0, 1, 0, 2, 2, 5] engine
def lineBelow : State := withLine [0, 0, 0, 0, 0, 0, 0, 0, 7] engine
theorem met_CursorWrites_ignored : CursorRuns 7 cur0 lineBelow ∧ cur0.rung = [] ∧ ignoredLine (lineBelow.curLayers cur0) cur0
    (readLine (lineBelow.lineData ((cur0.extent + cur0.lineOff) / 64))) = true := by decide +kernel
theorem met_CursorWrites_advance : CursorRuns 7 cur0 lineAdvance ∧ cur0.rung = [] ∧
    (let v := readLine (lineAdvance.lineData ((cur0.extent + cur0.lineOff) / 64))
     v.phase ≤ 3 ∧ v.layer < lineAdvance.curLayers cur0 ∧ v.fresh = false ∧ v.paused = false ∧ v.step = cur0.step ∧ cur0.layer < v.layer ∧
     cur0.skip = false) := by decide +kernel
theorem met_CursorWrites_restart : CursorRuns 7 cur0 lineRestart ∧ cur0.rung = [] ∧
    (let v := readLine (lineRestart.lineData ((cur0.extent + cur0.lineOff) / 64))
     v.phase ≤ 3 ∧ v.layer < lineRestart.curLayers cur0 ∧ v.fresh = true) := by decide +kernel

/-- A doorbell of the request that wrote the line, its tail 15. -/
def curRung : Cursor := { cur0 with due := true, rung := [0] }
def lineRung : State := withLine [0, 0, 0, 0, 0, 0, 0, 0, 7] (engine (c := curRung)) |> fun s => s.setPool { s.pool with mem := s.pool.mem ++ [(96, 15)] }
theorem met_CursorWrites_rung : CursorRuns 7 curRung lineRung ∧ curRung.rung = [0] ∧ lineRung.queue 7 0 = some queue0 ∧ 15 < queue0.depth ∧
    ofLe (lineRung.extRead (curRung.extent + curRung.lineOff + 32 + 4 * 0) 2) = 15 ∧
    ignoredLine (lineRung.curLayers curRung) curRung (readLine (lineRung.lineData ((curRung.extent + curRung.lineOff) / 64))) = true := by
  decide +kernel

def rung15 : State := (engine).setPool { engine.pool with mem := [(96, 15)] }
def rung16 : State := (engine).setPool { engine.pool with mem := [(96, 16)] }
theorem met_Doorbells_tail : CursorRuns 7 cur0 rung15 ∧ rung15.queue 7 0 = some queue0 ∧
    ofLe (rung15.extRead (cur0.extent + cur0.lineOff + 32 + 4 * 0) 2) = 15 ∧ cur0.due = false ∧ 15 < queue0.depth := by decide +kernel
theorem met_Doorbells_bad : CursorRuns 7 cur0 rung16 ∧ rung16.queue 7 0 = some queue0 ∧
    ofLe (rung16.extRead (cur0.extent + cur0.lineOff + 32 + 4 * 0) 2) = 16 ∧ cur0.due = false ∧ queue0.depth ≤ 16 := by decide +kernel
theorem met_Doorbells_due : CursorRuns 7 curRung lineRung ∧ lineRung.queue 7 0 = some queue0 ∧ curRung.due = true := by decide +kernel
def advanced : State := engine.setEng { engine.eng with advances := [(2, 7)] }
theorem met_Doorbells_advance : advanced.cur 7 = some cur0 ∧ (advanced.sl 2).state = 1 ∧ advanced.eng.advances.contains (2, 7) = true := by
  decide +kernel
def fetch0 : Fetch := { item := .page 1, slice := 0, plans := [(7, 1, 5000)], kind := 0 }
def late : State := engine.setEng { engine.eng with fetches := [(4, fetch0)] }
theorem met_Doorbells_deadline : late.cur 7 = some cur0 ∧ late.eng.fetches = [(4, fetch0)] ∧ fetch0.kind ≠ 2 ∧ fetch0.plans = [(7, 1, 5000)] ∧
    cur0.missed.contains 1 = false := by decide +kernel
theorem met_Doorbells_select : engine.fnOpen (.pf1 0) = true := by decide +kernel

def curQ : Cursor := { cur0 with queues := [(0, { queue0 with tail := 1 })] }
def queued (d : Bytes) : State :=
  let s := engine (c := curQ)
  s.setPool { s.pool with mem := memWriteN s.pool.mem 4096 d }
def descBytes : Bytes := [1, 0, 9, 0, 0, 0, 0, 0, 1, 0, 0, 0, 0, 0, 0, 0, 1] ++ List.replicate 25 0 ++ [16, 0] ++ List.replicate 6 0 ++ [32] ++
  List.replicate 5 0 ++ [64]
theorem met_Steps_consume_refused :
    ((queued [2]).readHead 7 0).descRefusal curQ
      (readDesc ((queued [2]).extRead (0 + 4096 + 64 * 0) 64)) = some 1 ∧
    ((queued [2]).readHead 7 0).cur 7 = some curQ ∧ curQ.unbound = false ∧ curQ.lowerFirst 0 0 = false ∧
    ((queued [2]).readHead 7 0).queue 7 0 = some { queue0 with tail := 1 } ∧ queue0.rungAt = 0 ∧ queue0.head = 0 ∧ queue0.unread < queue0.depth := by decide +kernel
theorem met_Steps_consume :
    ((queued descBytes).readHead 7 0).descRefusal curQ
      (readDesc ((queued descBytes).extRead (0 + 4096 + 64 * 0) 64)) = none ∧
    (readDesc ((queued descBytes).extRead (0 + 4096 + 64 * 0) 64)).opens = false ∧
    ((seqList (readDesc ((queued descBytes).extRead (0 + 4096 + 64 * 0) 64)).seqs).all fun n => (queued descBytes).waitingFor n < 4) = true := by
  decide +kernel
def waiting0 : State := engine (steps := [(0, step0)])
theorem met_Steps_start : waiting0.step' 0 = some step0 ∧ step0.phase = 0 ∧ waiting0.mayStart 0 step0 = true ∧
    waiting0.model step0.desc.model = some (mdl [act0]) ∧ (mdl [act0]).lost = 0 ∧
    ((seqList step0.desc.seqs).all fun n => waiting0.slotOpen step0.tenant step0.desc.model n) = true ∧
    State.degradedFor (mdl [act0]) step0.desc = false ∧ step0.desc.opens = false ∧
    ((seqList step0.desc.seqs).all fun n => (waiting0.seq n).all fun z => z.acts.isEmpty) = true := by decide +kernel
theorem met_Steps_park : (up.sl 1).parked = false ∧ (up.sl 1).parkIdleUs ≠ 0 ∧ up.up 1 = true ∧ (up.sl 1).state = 1 ∧
    (up.eng.steps.any fun e => (e.2.phase = 1 || e.2.phase = 2) && up.hasWork e.2 1) = false := by decide +kernel
def parked0 : State := waiting0.modSl 0 fun r => { r with parked := true }
theorem met_Steps_wake : (parked0.sl 0).parked = true ∧ (parked0.eng.steps.any fun e => e.2.phase != 3 && parked0.hasWork e.2 0) = true := by
  decide +kernel

def mat0 : OpDesc := opd 1 0 (sb 0) (6 * 2 ^ 28) (sb 1)
def running (m : Model := mdl [act0]) (x : StepSt := { step0 with phase := 1, everRan := true }) (z : Seq := { tenant := 3, handle := 0 }) : State :=
  engine m [(0, x)] z
def run0 : StepSt := { step0 with phase := 1, everRan := true }
theorem met_Stalled_ready : running.step' 0 = some run0 ∧ (mdl [act0]).layers[run0.layer]? = some (lay [act0]) ∧ run0.phase = 1 ∧
    run0.ready = false ∧ run0.layer ≤ run0.desc.last ∧ needsCheck (lay [act0]) run0.op = true ∧ running.stepRuns run0 = true ∧
    running.missing run0 (mdl [act0]) (lay [act0]) = [] := by decide +kernel
def mdlT2 : Model := mdl [mat0] [tile0 t2Home]
theorem met_Stalled_missing : (running mdlT2).step' 0 = some run0 ∧ needsCheck (lay [mat0]) run0.op = true ∧ (running mdlT2).stepRuns run0 = true ∧
    (running mdlT2).missing run0 mdlT2 (lay [mat0]) = [(.tile 0 0, 0)] ∧ (running mdlT2).pool.moves = [] := by decide +kernel
def stall0 : StepSt := { run0 with phase := 2, stallAt := some 0, missing := [(.tile 0 0, 0)] }
theorem met_Stalled_done : (running mdlT2 stall0).step' 0 = some stall0 ∧ (running mdlT2 stall0).olderStall 0 stall0 = false ∧
    stall0.missing = [(.tile 0 0, 0)] ∧ (running mdlT2 stall0).farBusy (.tile 0 0) = false ∧
    (running mdlT2 stall0).unreadable (.tile 0 0) = false ∧ (running mdlT2 stall0).itemPoisoned (.tile 0 0) = false := by decide +kernel
theorem met_Stalled_abort : StepOf 0 stall0 mdlT2 cur0 (running mdlT2 stall0) ∧ stall0.phase = 2 ∧
    (running mdlT2 stall0).eng.steps = [(0, stall0)] ∧ (stall0.missing.all fun e => (running mdlT2 stall0).itemPoisoned e.1) = false := by decide +kernel

def fetchT : Fetch := { item := .tile 0 0, slice := 0, plans := [(7, 1, 5000)], kind := 0 }
def staging (f : Fetch := fetchT) (mib : Nat := 64) : State :=
  let s := engine mdlT2
  (s.setEng { s.eng with fetches := [(4, f)] }).setQos { s.qos with tenants := [(3, { t0Mib := mib })] }
theorem met_Staging_issue : (staging.sl 0).state = 1 ∧ (staging.fetchDue fetchT).isSome = true ∧ staging.homeOf fetchT.item = some t2Home ∧
    t2Home.tier ≤ 2 ∧ fetchT.kind = 0 ∧ staging.itemPoisoned fetchT.item = false ∧ (staging.eng.t0.any fun c => c.left) = false ∧
    staging.t0Room (staging.itemTenant fetchT.item) 0 (homeLen t2Home) = true := by decide +kernel
theorem met_Staging_done : tabFind (staging { fetchT with issued := true }).eng.fetches 4 = some { fetchT with issued := true } ∧
    (staging { fetchT with issued := true }).homeOf fetchT.item = some t2Home ∧
    (staging { fetchT with issued := true }).farBusy fetchT.item = false ∧ (staging { fetchT with issued := true }).unreadable fetchT.item = false ∧
    (staging { fetchT with issued := true }).itemPoisoned fetchT.item = false ∧
    (staging { fetchT with issued := true }).t0Used 3 0 + homeLen t2Home ≤ (staging { fetchT with issued := true }).t0Limit 3 0 ∧
    (staging { fetchT with issued := true }).itemTenant fetchT.item = 3 := by decide +kernel
/-- No T0 share is left as the copy comes in. -/
def unshared : State := staging { fetchT with issued := true } 0
theorem met_Staging_full : tabFind unshared.eng.fetches 4 = some { fetchT with issued := true } ∧ unshared.homeOf fetchT.item = some t2Home ∧
    unshared.farBusy fetchT.item = false ∧ unshared.unreadable fetchT.item = false ∧ unshared.itemPoisoned fetchT.item = false ∧
    unshared.t0Limit 3 0 < unshared.t0Used 3 0 + homeLen t2Home := by decide +kernel

def last0 : StepSt := { run0 with layer := 2 }
theorem met_FinishedStepsEnd : StepOf 0 last0 (mdl [act0]) cur0 (running (x := last0)) ∧ last0.phase = 1 ∧ last0.desc.last < last0.layer ∧
    last0.outBuf = [] ∧ (running (x := last0)).eng.seqs = [(0, { tenant := 3, handle := 0 })] ∧
    ({ tenant := 3, handle := 0 } : Seq).scratch = [] := by decide +kernel
def over0 : StepSt := { run0 with phase := 3 }
theorem met_Completions_room : (running (x := over0)).oldest 7 0 = some (0, over0) ∧ (running (x := over0)).queue 7 0 = some queue0 ∧
    (running (x := over0)).cur 7 = some cur0 ∧ over0.phase = 3 ∧ queue0.unread + 1 < queue0.depth := by decide +kernel
def full0 : State :=
  let s := engine (steps := [(0, over0)]) (c := { cur0 with queues := [(0, { queue0 with unread := 16 })] })
  s.setPool { s.pool with mem := [(12288, 3)] }
theorem met_Completions_full : full0.oldest 7 0 = some (0, over0) ∧ full0.queue 7 0 = some { queue0 with unread := 16 } ∧
    (full0.readHead 7 0).queue 7 0 = some { queue0 with unread := 13, hostHead := 3 } ∧ 13 + 1 < queue0.depth := by decide +kernel

/-! ## Ops of layer programs -/

/-- Sequence 0 with the row (1, 2) in scratch buffer 0 and (3, -1) in buffer 2 on slice 0. -/
def one2 : Bytes := [0, 0, 0x80, 0x3F, 0, 0, 0, 0x40]
def three : Bytes := [0, 0, 0x40, 0x40, 0, 0, 0x80, 0xBF]
def seq0 : Seq := { tenant := 3, handle := 0, scratch := [(0, one2), (2, three), (3, one2)] }
def readyStep : StepSt := { run0 with ready := true }
def atOp (p : OpDesc) : State := running (mdl [p, act0]) readyStep seq0
def ctx (p : OpDesc) : OpCtx := { id := 0, st := readyStep, m := mdl [p, act0], l := lay [p, act0], p := p, cur := cur0 }
def row0 : List FNum := (operandRows (lay []) seq0 0 0 (sb 0) 0 0 2).1.headD []
def row2 : List FNum := (operandRows (lay []) seq0 0 0 (sb 2) 0 0 2).1.headD []
/-- What every statement on an op asks of its state, for op `p`. -/
def opMet (p : OpDesc) (refs : List Nat) : Bool :=
  let s := atOp p
  (s.opAt 0 p.opcode [p.sub]).isSome && ((s.opAt 0 p.opcode [p.sub]).any fun c => c.p == p && c.st == readyStep && (s.opSeqs c) == [(0, seq0)]) &&
  runSlices seq0 0 refs == [0]
theorem row0_is : row0 = [.fin false (2 ^ 23) (-23), .fin false (2 ^ 23) (-22)] := by decide +kernel
theorem met_VectorOps_norm : opMet (opd 3 0 (sb 0) (sb 2) (sb 1)) [sb 0, sb 2] = true ∧
    Src0 (ctx (opd 3 0 (sb 0) (sb 2) (sb 1))) 0 0 seq0 row0 ∧ Src1 (ctx (opd 3 0 (sb 0) (sb 2) (sb 1))) 0 0 seq0 row2 := by decide +kernel
theorem met_VectorOps_act : opMet act0 [sb 0] = true ∧ act0.sub < 5 ∧ Src0 (ctx act0) 0 0 seq0 row0 ∧
    opMet (opd 4 5 (sb 0) (sb 2) (sb 1)) [sb 0, sb 2] = true := by decide +kernel
theorem met_VectorOps_rotate : opMet (opd 5 0 (sb 0) 0 (sb 1)) [sb 0] = true := by decide +kernel
def add0 : OpDesc := { opd 9 0 (sb 0) (sb 2) (sb 1) with param0 := 0x40000000 }
theorem met_VectorOps_add : opMet add0 [sb 0, sb 2] = true ∧ Src1 (ctx add0) 0 0 seq0 row2 ∧ add0.param0 ≠ 0 ∧
    opMet { add0 with param0 := 0 } [sb 0, sb 2] = true := by decide +kernel
theorem met_VectorOps_quant : opMet { opd 10 0 (sb 0) 0 (sb 1) with dfmt := 4, dscale := 1 } [sb 0] = true ∧
    opMet { opd 10 0 (sb 0) 0 (sb 1) with dfmt := 4, dscale := 1, stochastic := true } [sb 0] = true := by decide +kernel
def route0 : OpDesc := { opd 6 1 (sb 0) 0 (4 * 2 ^ 28) with param0 := 1, param1 := 2 }
theorem met_Route : opMet route0 [sb 0] = true ∧ refSpace route0.dst = 4 ∧ route0.param1 = row0.length := by decide +kernel
theorem met_Gather : opMet (opd 7 0 (sb 0) 0 (sb 1)) [] = true ∧ opMet (opd 7 1 (sb 0) 0 (sb 1)) [] = true ∧
    (List.range 8).filter (bit (heldOn' seq0 0 0)) = [0] ∧ (rowsOf seq0 0).1 = 1 ∧
    (∀ ch, ch < 2 → ownerOf 8 (mdl []) (lay []) 0 0 0 0 ch ∈ [0]) := by decide +kernel
theorem met_GatherInput : opMet (opd 7 2 (5 * 2 ^ 28) 0 (sb 1)) [] = true ∧
    (atOp (opd 7 2 (5 * 2 ^ 28) 0 (sb 1))).rangePoison (0 + 2 ^ 20 + 64 * 0) (elemBytes 0 2) = false := by decide +kernel
theorem met_Broadcast : opMet (opd 8 0 (sb 0) 0 (sb 0)) [] = true := by decide +kernel
/-- A layer whose product over a tile of slice 1 is split afterwards. -/
def splitModel : Model := { mdl [] with tiles := [{ tile0 t1Home with slice := 1 }], layers := [lay [mat0, opd 8 1 (sb 1) 0 (sb 1)]] }
def splitStep : StepSt := { readyStep with op := 1 }
def splitSeq : Seq := { seq0 with scratch := [(1, one2)] }
def splitState : State := running splitModel splitStep splitSeq
theorem met_Split : ((splitState.opAt 0 8 [1]).any fun c => splitState.opSeqs c == [(0, splitSeq)]) = true ∧
    ownerOf 8 splitModel (lay [mat0, opd 8 1 (sb 1) 0 (sb 1)]) 0 0 1 1 0 = 1 ∧
    (tabGet [] splitSeq.scratch (bufKey 0 1)).length = 4 * 2 ∧ (rowsOf splitSeq 1).2 = 0 := by decide +kernel
theorem met_CopyOut : opMet (opd 11 0 (sb 0) 0 (6 * 2 ^ 28)) [] = true := by decide +kernel

/-- A product over a tensor none of whose tiles lies on the slice. -/
def matOp : OpDesc := { mat0 with fmt0 := 4, src1 := 6 * 2 ^ 28 }
def tensor0 : Tensor := { layer := 0, tensor := 0, fmt := 4, scale := 0, shard := 0, nBlocks := 1, kBlocks := 1, experts := 0, mask := 1 }
def noTiles : State := running (mdl [matOp, act0]) readyStep seq0
theorem met_Matmul : ((noTiles.opAt 0 1 []).any fun c => c.p == matOp && noTiles.opSeqs c == [(0, seq0)]) = true ∧ matOp.routed = false ∧
    findTensor (mdl []).tensors 0 (refIdx matOp.src1) = some tensor0 ∧ (List.range 8).filter (bit tensor0.mask) = [0] ∧ (rowsOf seq0 0).1 = 1 ∧
    ((noTiles.opAt 0 1 []).any fun c =>
      let r := noTiles.draw.2.loadTiles c [] noTiles.draw.1 0 tensor0 0xFFFF
      !r.2.1 && !(r.1.any fun x => x.2.2.bad) && r.2.2.step' 0 == some c.st) = true := by
  decide +kernel
/-- A routed product over the one all-zero tile of the expert that the table selects, with weight 1. -/
def routedOp : OpDesc := { matOp with fmt0 := 4, fmt1 := 10, routed := true, combine := true }
def expertT : Tensor := { layer := 0, tensor := 0, fmt := 10, scale := 0, shard := 1, nBlocks := 1, kBlocks := 1, experts := 1, mask := 1 }
def expertBlk : Block := { coder := 0, strength := 0, kind := 3, sectors := 1, logical := 3328, payload := [], check := 4118669809 }
def expert0 : Tile := { tile0 { tier := 1, ma := 4096, blk := some expertBlk } with strength := 0, expert := 0 }
def expertMdl : Model := { mdl [routedOp, act0] [expert0] with tensors := [expertT] }
def routedSeq : Seq := { seq0 with routing := [(0, [(0, 0x3F800000)])] }
def routedState : State := running expertMdl readyStep routedSeq
theorem met_Matmul_routed : ((routedState.opAt 0 1 []).any fun c => c.p == routedOp && routedState.opSeqs c == [(0, routedSeq)]) = true ∧
    routedOp.routed = true ∧ routedOp.combine = true ∧ findTensor expertMdl.tensors 0 (refIdx routedOp.src1) = some expertT ∧ (rowsOf routedSeq 0).1 = 1 ∧
    tabGet [] routedSeq.routing (0 * 4 + routedOp.param0) = [(0, 0x3F800000)] ∧ 0 < expertT.experts ∧
    (tensorTiles expertMdl 0 0 0).filter (fun x => (expertMdl.tiles[x]?).any fun u => u.expert == 0) = [0] := by decide +kernel
/-- The heat of a read tile is sampled or not, as the free draw says; all else of the read is the same. -/
theorem sampleHeat_or (s : State) (i : Item) (a : Nat) : s.sampleHeat i a = s.draw.2 ∨ s.sampleHeat i a =
    s.draw.2.modEnt i fun e => { decayed (s.draw.2.mig (s.draw.2.itemSlice i)) e with heat := min 255 ((decayed (s.draw.2.mig (s.draw.2.itemSlice i)) e).heat + a) } := by
  unfold State.sampleHeat; simp only; split <;> simp
def routedCtx : OpCtx := { id := 0, st := readyStep, m := expertMdl, l := lay [routedOp, act0], p := routedOp, cur := cur0 }
theorem decodeItem_ok (s : State) (i : Item) (b : Block) (out : Bytes) (source unit w : Nat)
    (d : decodeBlock (s.cn (s.itemSlice i)).slots b = .ok out) : s.decodeItem i b source unit w = (some out, s) := by
  simp only [State.decodeItem, d]
set_option maxRecDepth 100000 in
theorem expertBlk_decodes : decodeBlock [] expertBlk = .ok (List.replicate 3328 0) := by decide +kernel
set_option maxRecDepth 100000 in
theorem zeroTile_good : (tileVals 10 0 (List.replicate 3328 0)).bad = false := by decide +kernel
/-- The state as the tile's access is queued. -/
def routedDrawn : State := routedState.draw.2.access 0 { tier := 1, ma := 4096, blk := some expertBlk } 0
  (homeLen { tier := 1, ma := 4096, blk := some expertBlk }) false cur0.cls
theorem routed_heat : (((routedDrawn.sampleHeat (.tile 0 0) 1).cn 0).slots = []) ∧ (routedDrawn.sampleHeat (.tile 0 0) 1).step' 0 = some readyStep := by
  rcases sampleHeat_or routedDrawn (.tile 0 0) 1 with h | h <;> rw [h] <;> decide +kernel
theorem readTile_ok (s : State) (c : OpCtx) (d n x : Nat) (t : Tensor) (tl : Tile) (hm : Home) (b : Block) (out : Bytes)
    (f : s.tileFor c.st.admitted c.st.desc.model x = some tl) (g : tl.ent.home = some hm) (p : tl.ent.poisoned = false) (bl : hm.blk = some b)
    (i : s.inT0 n (.tile c.st.desc.model x) tl.version = false) (z : s.homeFrozen n hm 0 (homeLen hm) = none)
    (k : ∀ w, ((s.access n hm 0 (homeLen hm) false c.cur.cls).sampleHeat (.tile c.st.desc.model x) 1).decodeItem (.tile c.st.desc.model x) b 0 w 0 =
      (some out, (s.access n hm 0 (homeLen hm) false c.cur.cls).sampleHeat (.tile c.st.desc.model x) 1)) :
    s.readTile c [] d n x t = (out, false, (s.access n hm 0 (homeLen hm) false c.cur.cls).sampleHeat (.tile c.st.desc.model x) 1) := by
  simp [State.readTile, f, g, p, bl, i, z, errsOf, State.readItem, State.blockRead, k]
theorem loadTiles_one (s : State) (c : OpCtx) (d n : Nat) (t : Tensor) (ex x : Nat) (u : Tile) (b : Bytes) (r : State)
    (e : ((tensorTiles c.m c.st.layer t.tensor n).filter fun x => (c.m.tiles[x]?).any fun u => u.expert == ex) = [x])
    (a : c.m.tiles[x]? = some u) (v : s.readTile c [] d n x t = (b, false, r)) :
    s.loadTiles c [] d n t ex = ([(u.n, u.k, tileVals t.fmt t.scale b)], false, r) := by
  simp [State.loadTiles, e, a, v]
theorem met_Matmul_routed_tiles : ∃ ts s', routedState.draw.2.loadTiles routedCtx [] routedState.draw.1 0 expertT 0 = (ts, false, s') ∧ ts ≠ [] ∧
    (ts.any fun x => x.2.2.bad) = false ∧ s'.step' 0 = some routedCtx.st := by
  have l : (routedDrawn.sampleHeat (.tile 0 0) 1).itemSlice (.tile 0 0) = 0 := by
    rcases sampleHeat_or routedDrawn (.tile 0 0) 1 with h | h <;> rw [h] <;> decide +kernel
  have e : decodeBlock ((routedDrawn.sampleHeat (.tile 0 0) 1).cn ((routedDrawn.sampleHeat (.tile 0 0) 1).itemSlice (.tile 0 0))).slots expertBlk =
      .ok (List.replicate 3328 0) := by rw [l, routed_heat.1]; exact expertBlk_decodes
  refine ⟨_, _, loadTiles_one _ routedCtx _ 0 expertT 0 0 expert0 _ _ (by decide +kernel) rfl (readTile_ok _ routedCtx _ 0 0 expertT expert0
    { tier := 1, ma := 4096, blk := some expertBlk } expertBlk _ (by decide +kernel) rfl rfl rfl (by decide +kernel) (by decide +kernel)
    fun w => decodeItem_ok _ (.tile 0 0) _ _ _ _ _ e),
    List.cons_ne_nil _ _, ?_, routed_heat.2⟩
  rw [List.any_cons, List.any_nil, Bool.or_false]
  exact zeroTile_good
def attend0 : OpDesc := { opd 2 0 (sb 0) (sb 2) (sb 1) with param0 := 0x3F800000 }
theorem met_Attend : opMet attend0 [] = true ∧ (mdl []).kvSplit = 1 ∧ seq0.tokens = 0 ∧ attend0.param0 ≠ 0 ∧
    opMet { attend0 with param0 := 0 } [] = true ∧ (atOp attend0).moveOf (.kv 0 0 0 0 0) = none ∧
    (operandRows (lay []) seq0 0 0 attend0.src1 0 0 2).1 = [row2] ∧ (operandRows (lay []) seq0 0 0 (attend0.src1 + 1) 0 0 2).1 = [row0] := by
  decide +kernel

/-! ## Models, bound cursors, table slots -/

/-- An image of one layer with one op and one all-zero ternary tile, written out from R75 to R82. -/
def imgHead : Bytes := le 4 0x4D494D50 ++ le 2 1 ++ le 2 8 ++ le 8 768 ++ le 4 1 ++ le 4 1 ++ le 2 0 ++ le 2 1 ++ le 4 16 ++ le 2 1 ++ le 2 64 ++
  [1, 1, 0, 1] ++ le 4 1 ++ le 4 0 ++ le 8 320 ++ le 8 256 ++ le 8 288 ++ le 8 0 ++ le 8 512 ++ le 4 128
def imgDir : Bytes := le 2 0 ++ le 2 0 ++ le 2 0xFFFF ++ le 2 0 ++ le 2 0 ++ [0, 3] ++ le 2 1 ++ le 2 0 ++ le 8 512
def imgMap : Bytes := le 2 0 ++ le 2 0 ++ [10, 1] ++ le 2 1 ++ le 2 1 ++ le 2 1 ++ [1, 0, 0, 0]
def imgLayer : Bytes := slice (le 2 0 ++ le 2 1 ++ le 4 128 ++ le 2 0xFFFF ++ le 2 0xFFFF ++ le 2 0xFFFF ++ le 2 0 ++ le 4 64 ++ le 4 64 ++
  le 4 160 ++ le 4 0) 0 128
def imgOp : Bytes := [4, 0, 0, 0, 0, 0, 0, 0] ++ le 4 (sb 0) ++ le 4 0 ++ le 4 (sb 1) ++ le 4 64
def imgTile : Bytes := [16, 0, 0x60, 0, 0, 0] ++ le 2 1 ++ le 4 3328 ++ le 4 0 ++ le 4 4118669809
def imgBytes : Bytes := slice (slice imgHead 0 252 ++ le 4 3998519042 ++ slice imgDir 0 32 ++ slice imgMap 0 32 ++ imgLayer ++ slice imgOp 0 64 ++
  imgTile) 0 768
def vfOn (s : State) : State := { s with fns := [(8, { numVfs := 256, vfEnable := true })] }
/-- The image stands in the extent of the tenant, whose function is enabled. -/
def withImg (b : Bytes) : State := vfOn { pool with pool := { pool.pool with mem := memWriteN [] 0 b } }
def loadIn : Bytes := le 2 3 ++ le 2 77 ++ le 4 0 ++ le 8 0 ++ le 8 768
def img0 : Image := { hdr := readImgHdr imgBytes, tensors := [readTensor imgBytes (readImgHdr imgBytes) 0],
                      dir := [readTileDir imgBytes (readImgHdr imgBytes) 0], layers := [readLayer imgBytes (readImgHdr imgBytes) 0], tables := [],
                      blocks := [{ coder := 0, strength := 0, kind := 3, sectors := 1, logical := 3328, payload := [], check := 4118669809 }] }
set_option maxRecDepth 100000 in
theorem imgBytes_parse : parseImage 8 imgBytes = some img0 := by decide +kernel
theorem withImg_read (b : Bytes) (n : Nat) (h : b.length = n) : memReadN (withImg b).pool.mem 0 n = b := by
  subst n; exact memReadN_memWriteN 0 b rfl
theorem srcBytes_read (s : State) (t n : Nat) (b : Bytes) (z : n ≠ 0) (o : s.ownRange t n (s.pool.extents.length + 1) 0 = true)
    (p : s.rangePoison 0 n = false) (r : memReadN s.pool.mem 0 n = b) : s.srcBytes t 0 n = some b := by
  simp [State.srcBytes, z, o, p, r]
theorem bind_some_of {α β : Type} (o : Option α) (f : α → Option β) (a : α) (r : Option β) (p : o = some a) (q : f a = r) : o.bind f = r := by
  rw [p]; exact q
theorem met_ModelsAreLoaded_parse : ((withImg imgBytes).srcBytes 3 0 768).bind (parseImage 8) = some img0 := by
  have r : memReadN (withImg imgBytes).pool.mem 0 768 = imgBytes := withImg_read imgBytes 768 (by decide +kernel)
  have p := srcBytes_read (withImg imgBytes) 3 768 imgBytes (by decide +kernel) (by decide +kernel) (by decide +kernel) r
  exact bind_some_of _ _ _ _ p imgBytes_parse
set_option maxRecDepth 100000 in
theorem met_ModelsAreLoaded_tiles : tilesDecode img0 = true := by decide +kernel
theorem met_ModelsAreLoaded_load :
    let s := withImg imgBytes
    Accepted rowModelLoad (.pf1 0) loadIn.length s ∧ fld loadIn 0 2 = 3 ∧ fld loadIn 8 8 = 0 ∧ fld loadIn 16 8 = 768 ∧ fld loadIn 4 1 = 0 ∧
    s.tenantOk (.pf1 0) 3 = true ∧ s.rst.engineReady = true ∧ s.loadOf 3 = none ∧ s.vfEnabled 3 = true ∧ programArea img0.hdr ≤ 16 * 2 ^ 20 ∧
    (img0.dir.all fun d => s.up d.slice && !s.restarting d.slice && !s.bistOn d.slice [0, 1]) = true ∧ s.bistFull = false ∧
    fits (s.fit 3 4 img0) = true ∧ s.bgBusy (.pf1 0) 0xC010 [3] = false ∧
    (((s.setEng { s.eng with loads := [{ via := .pf1 0, tenant := 3, tag := 77, model := modelOf 3 4 img0, fit := fitBytes (s.fit 3 4 img0),
                                         src := (0, 768) }] }).bindTables 3 img0).storeModel 3 img0).isSome = true := by decide +kernel
theorem met_ModelsAreLoaded_refused : Accepted rowModelLoad (.pf1 0) loadIn.length pool ∧ pool.tenantOk (.pf1 0) 3 = true ∧ pool.loadOf 3 = none ∧
    (pool.srcBytes 3 0 768).bind (parseImage pool.cfg.slices) = none := by decide +kernel
def load0 : Load := { via := .pf1 0, tenant := 3, tag := 77, model := mdl [], fit := List.replicate 72 0, src := (0, 768) }
def bgOn (v : Iface) (op : Nat) (args : List Nat) (s : State) : State := s.modIface v fun i => { i with bg := some { opcode := op, args := args } }
def loading : State := bgOn (.pf1 0) 0xC010 [3] (pool.setEng { pool.eng with loads := [load0] })
theorem met_ModelsAreLoaded_done : loading.loadOf 3 = some load0 ∧ loading.freeHandle = some 0 ∧ load0.model.bound = [] ∧
    (loading.iface load0.via).bg = some { opcode := 0xC010, args := [3] } := by decide +kernel
def queryIn (ty x : Nat) : Bytes := le 2 3 ++ [BitVec.ofNat 8 ty, 0] ++ le 2 x ++ le 6 0
def outcome0 : LoadOutcome := { tag := 77, ret := .success, handle := 0, fit := List.replicate 72 0 }
theorem met_ModelsAreLoaded_query : Accepted rowModelQuery (.pf1 0) (queryIn 0 0).length engine ∧ engine.tenantOk (.pf1 0) (fld (queryIn 0 0) 0 2) = true ∧
    fld (queryIn 0 0) 2 1 = 0 ∧ engine.model (fld (queryIn 0 0) 4 2) = some (mdl [act0]) ∧ (mdl [act0]).tenant = fld (queryIn 0 0) 0 2 ∧
    fld (queryIn 1 77) 2 1 = 1 ∧ outcome0.tag = fld (queryIn 1 77) 4 2 := by decide +kernel

def unloadIn : Bytes := le 2 3 ++ le 2 0
theorem met_Released_unload : Accepted rowModelUnload (.pf1 0) unloadIn.length engine ∧ engine.tenantOk (.pf1 0) (fld unloadIn 0 2) = true ∧
    engine.model (fld unloadIn 2 2) = some (mdl [act0]) ∧ (mdl [act0]).tenant = fld unloadIn 0 2 ∧ (mdl [act0]).unloading = none ∧
    engine.eng.steps = [] ∧ engine.bgBusy (.pf1 0) 0xC011 [0] = false := by decide +kernel
def ternary : Tensor := { layer := 0, tensor := 0, fmt := 10, scale := 0, shard := 1, nBlocks := 1, kBlocks := 1, experts := 1, mask := 1 }
def ternBlk : Block := { coder := 0, strength := 0, kind := 3, sectors := 1, logical := 3328, payload := [], check := 4118669809 }
def tern0 : Tile := { tile0 { tier := 1, ma := 4096, blk := some ternBlk } with strength := 0 }
def ternMdl : Model := { mdl [act0] [tern0] with tensors := [ternary] }
/-- The replacement tile stands at the start of the extent. -/
def tileState : State := let s := engine ternMdl; { s with pool := { s.pool with mem := memWriteN [] 0 imgTile } }
def tileIn : Bytes := le 2 3 ++ le 2 0 ++ le 2 0 ++ [0, 0xFF] ++ le 2 0xFFFF ++ le 2 0 ++ le 2 0 ++ le 2 0 ++ le 8 0 ++ le 4 256
set_option maxRecDepth 100000 in
theorem met_Released_tileWrite :
    let s := tileState
    Accepted rowTileWrite (.pf1 0) tileIn.length s ∧ s.tenantOk (.pf1 0) (fld tileIn 0 2) = true ∧ s.model (fld tileIn 2 2) = some ternMdl ∧
    ternMdl.tenant = fld tileIn 0 2 ∧ ternMdl.unloading = none ∧ tileCopies ternMdl tileIn = [(0, tern0)] ∧ s.moveOf (.tile 0 0) = none ∧
    (s.eng.fetches.any fun f => f.2.item == .tile 0 0 && f.2.kind == 1) = false ∧
    (s.srcBytes (fld tileIn 0 2) (fld tileIn 16 8) (fld tileIn 24 4)).bind parseBlock = some ternBlk ∧
    findTensor ternMdl.tensors (fld tileIn 4 2) (fld tileIn 6 1) = some ternary ∧ fld tileIn 24 4 % 256 = 0 ∧
    tileHdrOk 64 tern0.strength (fld tileIn 24 4 / 256) ternary ternBlk = true ∧
    ((s.setEng { s.eng with versions := s.eng.versions + 1 }).replaceTile 0 3 0 (s.eng.versions + 1) tern0 ternBlk ternMdl.bound).isSome = true := by
  decide +kernel
def bindIn : Bytes := slice (le 2 3 ++ [8, 2] ++ le 2 0 ++ [0, 0, 1, 0] ++ le 2 0 ++ le 2 0 ++ le 2 0 ++ le 8 0 ++ le 8 64 ++ le 8 4096 ++ le 8 8192 ++
  le 8 12288 ++ le 2 16) 0 288
def pinned : State :=
  let s := vfOn (engine)
  s.setPool { s.pool with extents := [(0, { ext0 with policy := { placement := 0 } })] }
theorem met_Released_bind :
    let s := pinned
    let c := cursorOf bindIn
    Accepted rowCursorBind (.pf1 0) bindIn.length s ∧ s.tenantOk (.pf1 0) c.tenant = true ∧ s.rst.engineReady = true ∧
    s.restarting (s.cursorHome c) = false ∧ s.bst.runs = [] ∧ s.vfEnabled c.tenant = true ∧ s.cur (fld bindIn 2 1) = none ∧
    cursorRanges c = true ∧ s.model c.model = some (mdl [act0]) ∧
    tabFind s.pool.extents c.extent = some { ext0 with policy := { placement := 0 } } ∧ c.lead ≤ (mdl [act0]).lead ∧
    s.cursorExtent c.tenant { ext0 with policy := { placement := 0 } } = true ∧ ((cursorSpans c).all fun x => x.2 ≤ ext0.len) = true ∧
    pairwiseApart (cursorSpans c) = true := by decide +kernel
theorem met_Released_unbind : Accepted rowCursorUnbind (.pf1 0) [3, 0, 7].length engine ∧ engine.tenantOk (.pf1 0) (fld [3, 0, 7] 0 2) = true ∧
    engine.cur (fld [3, 0, 7] 2 1) = some cur0 ∧ cur0.tenant = fld [3, 0, 7] 0 2 ∧ cur0.unbound = false ∧
    engine.bgBusy (.pf1 0) 0xC021 [fld [3, 0, 7] 2 1] = false := by decide +kernel
def unbinding : State := bgOn (.pf1 0) 0xC021 [7] (engine (c := { cur0 with unbound := true, unbinding := some (.pf1 0) }))
theorem met_Released_unbindDone : unbinding.cur 7 = some { cur0 with unbound := true, unbinding := some (.pf1 0) } ∧ unbinding.eng.steps = [] ∧
    unbinding.pool.releasing = [] ∧ (unbinding.iface (.pf1 0)).bg = some { opcode := 0xC021, args := [7] } := by decide +kernel

def tableRaw : Bytes := le 2 0x5354 ++ [5, 1] ++ List.replicate 4 0 ++ le 4 872858636 ++ List.replicate 4 0 ++ le 2 31 ++ le 2 1 ++ List.replicate 4076 0
def tableIn : Bytes := [1, 4, 0xFF] ++ List.replicate 13 0 ++ tableRaw
set_option maxRecDepth 100000 in
theorem met_TableSlots_load : Accepted rowTableLoad .mctp tableIn.length up ∧ maskList (fld tableIn 0 1) = [0] ∧ fld tableIn 1 1 = 4 ∧
    fld tableIn 2 1 = 0xFF ∧ (parseTable (slice tableIn 16 4096)).isSome = true ∧ up.up 0 = true ∧ up.restarting 0 = false ∧ up.slotFree 0 4 = true := by
  decide +kernel
def tabLoad0 : TabLoad := { via := .mctp, slots := [(0, 4, 1)] }
def building : State := { (up.modSlotT 0 4 fun _ => { state := 1, gen := 1, pendingClass := some 0 }) with tabLoads := [tabLoad0] }
theorem met_TableSlots_built : (building.slot 0 4).state = 1 ∧ (building.slot 0 4).pendingClass = some 0 ∧ building.tabLoads = [tabLoad0] ∧
    tabLoad0.slots = [(0, 4, (building.slot 0 4).gen)] := by decide +kernel
def active : State := up.modSlotT 0 4 fun _ => { state := 2, gen := 1 }
theorem met_TableSlots_retire : Accepted rowTableRetire .mctp [1, 4, 0].length active ∧ maskList (fld [1, 4, 0] 0 1) = [0] ∧ fld [1, 4, 0] 1 1 = 4 ∧
    active.up 0 = true ∧ (active.slot 0 4).state = 2 ∧ active.bindings 0 4 = 0 ∧ (active.cn 0).encSel = [] := by decide +kernel
def retiring : State := up.modSlotT 0 4 fun _ => { state := 3, gen := 1 }
theorem met_TableSlots_release : (retiring.slot 0 4).state = 3 ∧ retiring.slotRefs 0 4 = 0 := by decide +kernel
/-- A page of zeros coded with a table that gives every state to byte 0. -/
def table0 : TansTable := { log := 5, ctxs := 1, count0 := 32 :: List.replicate 255 0, count1 := List.replicate 256 0 }
def tansBlk : Block := { coder := 2, strength := 2, kind := 0, slot := 4, gen := 1, sectors := sectorsFor 2 64, logical := 4096,
                         payload := List.replicate 64 0, check := 0x98F94189 }
def recoding : State := (homed { t2Home with blk := some tansBlk }).modSlotT 0 4 fun _ => { state := 3, gen := 1, table := some table0, recoding := true }
/-- With this table every turn yields byte 0 and takes no bits. -/
theorem tansLoop_zeros (n i : Nat) (acc : Bytes) :
    tansLoop (tableCtxs table0) 4096 n i (Array.replicate 32 0) (0, 0) acc = .ok (acc.reverse ++ List.replicate n 0) := by
  have e : tableCtxs table0 = #[buildCtx 5 table0.count0] := rfl
  have nb : (buildCtx 5 table0.count0).nb.getD 0 0 = 0 := by decide +kernel
  have sy : (buildCtx 5 table0.count0).sym.getD 0 0 = 0 := by decide +kernel
  have ba : (buildCtx 5 table0.count0).base.getD 0 0 = 0 := by decide +kernel
  have z : ∀ k, (Array.replicate 32 0).getD (k % 32) 0 = 0 := by intro k; simp [Array.getD]
  have a : (Array.replicate 32 0).all (· == 0) = true := by decide +kernel
  have w : ∀ k, (Array.replicate 32 0).setIfInBounds (k % 32) 0 = Array.replicate 32 0 := by
    intro k; ext j <;> simp
  induction n generalizing i acc with
  | zero => simp only [tansLoop, a]; simp [padOk]
  | succ n ih =>
    have c : (tableCtxs table0).getD (i % (tableCtxs table0).size) ⟨#[], #[], #[], #[]⟩ = buildCtx 5 table0.count0 := by
      rw [e]; simp [Nat.mod_one]
    simp only [tansLoop, c, z, nb, sy, ba, takeBits]
    simp only [Nat.not_lt_zero, if_false, Nat.sub_zero, Nat.shiftRight_zero, Nat.zero_mod, Nat.add_zero, w]
    rw [ih]
    simp [List.replicate_succ]
set_option maxRecDepth 100000 in
theorem zeros_crc : crc32c (List.replicate 4096 0) = 0x98F94189 := by decide +kernel
theorem decodeWith_tans (t : TansTable) (b : Block) (out : Bytes) (k : b.coder = 2) (h : decodeTans t b = .ok out)
    (c : crc32c out = b.check) : decodeWith (some t) b = .ok out := by simp [decodeWith, k, h, c]
theorem decodeBlock_tans (slots : Tab TSlot) (b : Block) (t : TansTable) (g : b.gen = 1) (m : malformed b = false) (k : b.coder = 2)
    (s : tabGet ({} : TSlot) slots b.slot = { state := 3, gen := 1, table := some t, recoding := true }) :
    decodeBlock slots b = decodeWith (some t) b := by simp [decodeBlock, m, k, s, g]
theorem decodeTans_loop (t : TansTable) (b : Block) (x : Array Nat) (src : BitSrc)
    (h : ((List.range 32).map fun k => fld b.payload (2 * k) 2).toArray = x) (y : x.any (fun x => 2 ^ t.log ≤ x) = false)
    (l : b.payload.length = 64) (s : bitSrc (b.payload.drop 64) = src) :
    decodeTans t b = tansLoop (tableCtxs t) b.logical b.logical 0 x src [] := by
  simp only [decodeTans, h, y, l, s, Nat.lt_irrefl, if_false]; rfl
theorem tansBlk_decodes : decodeTans table0 tansBlk = .ok (List.replicate 4096 0) :=
  (decodeTans_loop table0 tansBlk _ _ (by decide +kernel) (by decide +kernel) (by decide +kernel) (by decide +kernel)).trans
    (tansLoop_zeros 4096 0 [])
theorem met_TableSlots_decode : (recoding.decodeItem (.page 1) tansBlk 2 0 1) = (some (List.replicate 4096 0), recoding) :=
  decodeItem_ok _ _ _ _ _ _ _ ((decodeBlock_tans _ tansBlk table0 rfl (by decide +kernel) rfl (by decide +kernel)).trans
    (decodeWith_tans table0 tansBlk _ rfl tansBlk_decodes zeros_crc))
set_option maxRecDepth 100000 in
theorem met_TableSlots_code : ((recoding.condenseOn 0 0 (recoding.pageStrength 1) 0 0 false (List.replicate 4096 0)).2.placeBlock 1
    (recoding.condenseOn 0 0 (recoding.pageStrength 1) 0 0 false (List.replicate 4096 0)).1 (some t2Home)).isSome = true := by decide +kernel

/-! ## Extents, quotas, classes -/

def roomy (s : State := pool) : State := s.setPool { s.pool with quotas := [(3, { t1 := 1024, t2 := 1024 })] }
def addedExt : Extent :=
  let q := roomy.splitParts 3 (2 ^ 28) (reservation (2 ^ 28) (256 * rawSectors 2) 0) {} { len := 2 ^ 28, hosts := [5], tag := 9, owner := 3 }
  { len := 2 ^ 28, hosts := [5], tag := 9, owner := 3, t2Part := q.1, t3Part := q.2.1, t4Part := q.2.2 }
theorem met_Extents_add :
    let s := roomy
    let s' := s.setPool { s.pool with extents := tabSet s.pool.extents (2 ^ 28) addedExt }
    Accepted rowDcAdd .mctp 0 s ∧ s.rst.memoryActive = true ∧ s.bistFull = false ∧ s.hostRec 5 = some host5 ∧ s.staticHost 5 = false ∧
    (s.pool.extents.any fun x => 2 ^ 28 < x.1 + x.2.len && x.1 < 2 ^ 28 + 2 ^ 28) = false ∧ (s.quota host5.tenant).policy = {} ∧
    s'.mapFits = true ∧ ∀ k ∈ [1, 2, 3, 4], s'.charge host5.tenant k ≤ s.quotaBytes host5.tenant k := by decide +kernel
def offered : State := pool.setPool { pool.pool with extents := [(0, { ext0 with hosts := [5, 6], accepted := [6] })] }
theorem met_Extents_response : Accepted rowDcResponse (.pf0 0) 0 offered ∧ offered.hostRec 5 = some host5 ∧ host5.port = 0 ∧
    offered.staticHost 5 = false ∧ tabFind offered.pool.extents 0 = some { ext0 with hosts := [5, 6], accepted := [6] } := by decide +kernel
theorem met_Extents_give : Accepted rowHostRelease (.pf0 0) 0 offered ∧ offered.isReleasing 0 = false := by decide +kernel
def filled : State := homed t1Home { pool with pool := { pool.pool with mem := [(4096, 7), (2 ^ 26, 8)] } }
theorem met_Extents_release : Accepted rowDcRelease .mctp 0 filled ∧ memWf filled.pool.mem = true ∧ tabFind filled.pool.extents 0 = some ext0 ∧
    ext0.hosts.any filled.staticHost = false ∧ filled.isReleasing 0 = false ∧
    (filled.eng.cursors.any fun c => c.2.extent == 0) = false ∧ filled.dir.ents = [] ∧
    (filled.pool.releasing.any fun r => r.2 == (.mctp, 0x5605)) = false := by decide +kernel

def policyIn : Bytes := slice (List.replicate 16 0 ++ [1, 3]) 0 28
def policyExt : Extent :=
  let q := roomy.splitParts 3 0 (roomy.extentReservation 0 { ext0 with policy := { placement := 1, strength := 3 } }) { placement := 1, strength := 3 } ext0
  { ext0 with policy := { placement := 1, strength := 3 }, t2Part := q.1, t3Part := q.2.1, t4Part := q.2.2 }
theorem met_Policies_extent :
    let s := roomy
    let s' := s.setPool { s.pool with extents := tabSet s.pool.extents 0 policyExt }
    Accepted rowPolicy .mctp policyIn.length s ∧ fld policyIn 0 1 = 0 ∧ fld policyIn 8 8 = 0 ∧ tabFind s.pool.extents 0 = some ext0 ∧
    readPolicy (fld policyIn 16 2) = some { placement := 1, strength := 3 } ∧ s.isReleasing 0 = false ∧ s.dir.change = none ∧
    ext0.policy.sharing = 0 ∧ ext0.hosts.length = 1 ∧ ext0.drawn = [] ∧ ext0.policy.assured = 0 ∧ s'.mapFits = true ∧ State.chargesFit s s' ext0.owner = true := by decide +kernel
/-- A coherent extent of one host, none of whose lines is tracked, on its way to a private one. -/
def extC : Extent := { ext0 with policy := { sharing := 1 } }
def changing : State :=
  let s := (roomy).modIface .mctp fun i => { i with bg := some { opcode := 0xC030, args := [0] } }
  { s with pool := { s.pool with extents := [(0, extC)] }, dir := { s.dir with change := some (0, {}) } }
def changedExt : Extent :=
  let q := changing.splitParts 3 0 (changing.extentReservation 0 { extC with policy := {} }) {} extC
  { extC with policy := {}, t2Part := q.1, t3Part := q.2.1, t4Part := q.2.2 }
theorem met_Policies_done :
    let s := changing
    let s' := s.setPool { s.pool with extents := tabSet s.pool.extents 0 changedExt }
    s.dir.change = some (0, {}) ∧ tabFind s.pool.extents 0 = some extC ∧ s.dir.ents = [] ∧ s.dir.waiting = [] ∧ extC.policy.sharing = 1 ∧
    extC.hosts.length = 1 ∧ extC.drawn = [] ∧ extC.policy.assured = 0 ∧ s'.mapFits = true ∧ State.chargesFit s s' extC.owner = true ∧
    s.bgOf 0xC030 = some .mctp ∧ (s.iface .mctp).bg = some { opcode := 0xC030, args := [0] } := by decide +kernel
def quotaIn : Bytes := [1, 0, 3, 0, 50, 0, 2, 2] ++ le 4 128 ++ le 4 256 ++ le 4 0 ++ le 4 0 ++ le 4 16
theorem met_Policies_quota :
    let s := pool
    let q : Quota := { t1 := 128, t2 := 256, t3 := 0, t4 := 0, overflow := 16, holdLimit := 50, policy := {} }
    let s' := s.setPool { s.pool with quotas := tabSet s.pool.quotas 3 q }
    Accepted rowPolicy .mctp quotaIn.length s ∧ fld quotaIn 0 1 = 1 ∧ fld quotaIn 2 2 = 3 ∧ readPolicy (fld quotaIn 6 2) = some {} ∧ fld quotaIn 4 2 = 50 ∧
    s.pool.draws = [] ∧ fld quotaIn 8 4 = 128 ∧ fld quotaIn 12 4 = 256 ∧ fld quotaIn 24 4 = 16 ∧ s'.quotaSum (·.t1) ≤ s.assignableT1 ∧
    s'.quotaSum (·.t2) + s'.quotaSum (·.overflow) ≤ s.availT2 - s.deviceReserve ∧ s'.quotaSum (·.t3) = 0 ∧ s'.quotaSum (·.t4) = 0 ∧
    s.charge 3 1 ≤ q.t1 * 2 ^ 20 ∧ s.charge 3 2 ≤ q.t2 * 2 ^ 20 ∧ s.charge 3 3 ≤ 0 ∧ s.charge 3 4 ≤ 0 := by decide +kernel

def hostIn : Bytes := [0, 0, 9, 0, 0, 2] ++ le 2 3 ++ [4, 0, 0, 0] ++ le 4 1000 ++ le 4 8
theorem met_Qos_host : Accepted rowQosSet .mctp hostIn.length pool ∧ fld hostIn 0 1 = 0 ∧ fld hostIn 2 2 = 9 ∧
    2 * (fld hostIn 4 1 % 4) + b2n (bit (fld hostIn 4 1) 2) = 0 ∧ pool.hostRec 9 = none ∧ bit (fld hostIn 5 1) 1 = true ∧
    bit (fld hostIn 5 1) 0 = false ∧ fld hostIn 8 1 < 16 ∧ fld hostIn 12 4 = 1000 ∧ fld hostIn 16 4 = 8 ∧ linkFitted pool.cfg 0 = true ∧
    (tenantPort pool.cfg (fld hostIn 6 2)).map (·.1) = some 0 := by decide +kernel
def freed : State := pool.setPool { pool.pool with extents := [] }
theorem met_Qos_remove : Accepted rowQosSet .mctp (slice [0, 0, 5] 0 20).length freed ∧ fld (slice [0, 0, 5] 0 20) 0 1 = 0 ∧
    fld (slice [0, 0, 5] 0 20) 2 2 = 5 ∧ bit (fld (slice [0, 0, 5] 0 20) 5 1) 1 = false ∧ freed.hostRec 5 = some host5 ∧
    freed.hostHasExtents 5 = false ∧ freed.dir.sweep = none ∧ host5.held = [] := by decide +kernel
def tenantIn : Bytes := slice [1, 0, 3, 0, 4, 60] 0 20
theorem met_Qos_tenant : Accepted rowQosSet .mctp tenantIn.length pool ∧ fld tenantIn 0 1 = 1 ∧ fld tenantIn 2 2 = 3 ∧ fld tenantIn 4 1 = 4 ∧
    fld tenantIn 5 1 = 60 ∧ (∀ n ∈ pool.upSlices, (pool.setQos { pool.qos with tenants := tabSet pool.qos.tenants 3 { cls := 4, t0Mib := 60 } }).t0Sum ≤
      pool.assignableT0 n) := by decide +kernel
def classIn : Bytes := slice ([2, 0, 4, 32, 8, 8, 0, 0] ++ le 4 50000 ++ le 4 5000) 0 20
theorem met_Qos_class : Accepted rowQosSet .mctp classIn.length pool ∧ fld classIn 0 1 = 2 ∧ fld classIn 2 1 = 4 ∧ fld classIn 3 1 = 32 ∧
    fld classIn 4 1 = 8 ∧ fld classIn 5 1 = 8 ∧ 0 < fld classIn 8 4 ∧ 0 < fld classIn 12 4 ∧ (pool.cls 4).t1Floor = 0 ∧ (pool.cls 4).t2Floor = 0 ∧
    (pool.cls 4).qMin ≤ 8 ∧ (pool.cls 4).minWays ≤ 8 := by decide +kernel
def admitIn (t1 : Nat) : Bytes := [1, 0, 0, 0, 0, 0, 0, 0, 4, 2, 2, 0] ++ le 4 t1 ++ le 4 1000 ++ le 4 0
theorem met_Qos_admit :
    let w := pool.withSet [{ cls := 4, qMin := 2, ways := 2, t1 := 100000, t2 := 1000 }]
    Accepted rowQosAdmit .mctp (admitIn 100000).length pool ∧ (guarantees (admitIn 100000)).map (·.t1) = [100000] ∧
    (List.range 16).foldl (fun n k => n + (w.cls k).qMin) 0 ≤ 12 ∧ (List.range 16).foldl (fun n k => n + (w.cls k).minWays) 0 ≤ 16 ∧
    w.shortfall 1 = none ∧ w.shortfall 2 = none ∧ 100000 ≤ (pool.cls 4).t1Ceil ∧ 1000 ≤ (pool.cls 4).t2Ceil := by decide +kernel
theorem met_Qos_refused :
    ((pool.withSet (guarantees (admitIn (2 ^ 30)))).shortfall 1).isSome = true ∧ (pool.cls 4).t1Floor < 2 ^ 30 ∧ 2 ^ 30 ≤ (pool.cls 4).t1Ceil := by
  decide +kernel
theorem met_Qos_query : Accepted rowQosQuery .mctp [0, 0, 5, 0].length pool ∧ fld [0, 0, 5, 0] 0 1 = 0 ∧ fld [0, 0, 5, 0] 2 2 < 1024 ∧ pool.hostRec (fld [0, 0, 5, 0] 2 2) = some host5 ∧
    fld [1, 0, 3, 0] 0 1 = 1 ∧ fld [2, 0, 4, 0] 0 1 = 2 ∧ fld [2, 0, 4, 0] 2 2 = 4 := by decide +kernel

/-! ## DRAM controllers and integrity -/

def t1c : Ctl := { slice := 0, tier := 1, unit := 0 }
def t2c : Ctl := { slice := 0, tier := 2, unit := 0 }
def rdE (row at0 : Nat) : QEnt := { bank := 3, row := row, laddr := 0, write := false, cls := 0, arrival := at0 }
def chanOn (c : Ctl) (x : Chan) (s : State := up) : State := s.modChan c fun _ => x
def queued1 : State := chanOn t1c { queue := [rdE 9 0], openRows := [(3, 9)] }
theorem met_Bank_one : (queued1.chan t1c).queue = [rdE 9 0] ∧ (queued1.chan t1c).openRows = [(3, 9)] ∧ queued1.chanState t1c = 2 ∧
    (queued1.chan t1c).inOrder = [] ∧ queued1.drc.ingress = [] ∧ (rdE 9 0).job = none := by decide +kernel
def twoRows : State := chanOn t1c { queue := [rdE 9 0, rdE 8 1], openRows := [(3, 8)] }
theorem met_Bank_two : twoRows.chanState t1c = 2 ∧ (twoRows.chan t1c).queue = [rdE 9 0, rdE 8 1] ∧
    twoRows.isUrgent t1c (rdE 9 0) = false ∧ { twoRows with tbc := 2000 }.isUrgent t1c (rdE 9 0) = true ∧
    (twoRows.chan t1c).inOrder = [] ∧ twoRows.drc.ingress = [] ∧ tabFind (twoRows.chan t1c).openRows 3 = some (rdE 8 1).row := by decide +kernel
theorem met_Bank_urgent : bankQueue (queued1.chan t1c).queue 3 = [rdE 9 0] := by decide +kernel
def idleOpen : State := chanOn t2c { openRows := [(3, 9)] }
theorem met_Bank_idle : tabFind (idleOpen.chan t2c).openRows 3 = some 9 ∧ idleOpen.chanState t2c = 2 ∧
    bankQueue (idleOpen.chan t2c).queue 3 = [] := by decide +kernel
theorem met_Bank_refresh : (queued1.chan t1c).selfRefresh = false ∧ tabFind (queued1.chan t1c).postponed 3 = none ∧
    tabFind (queued1.chan t1c).openRows 3 = some (rdE 9 0).row := by decide +kernel
/-- Two draws stand for bank 3, whose row an activate opened. -/
def drawn : State := chanOn t1c { draws := [(3, 2)], openRows := [(3, 9)] }
theorem met_Bank_mark : drawn.chanState t1c = 2 ∧ tabGet 0 (drawn.chan t1c).draws 3 = 2 ∧ tabFind (drawn.chan t1c).marks 3 = none := by
  decide +kernel
def marked : State := chanOn t1c { marks := [(3, (0, 7))], openRows := [(3, 9)] }
theorem met_Bank_due : marked.chanState t1c = 2 ∧ tabFind (marked.chan t1c).marks 3 = some (0, 7) := by decide +kernel

theorem met_Bank_sleep : idleOpen.chanState t2c = 2 ∧ idleOpen.queuedAt t2c = [] ∧ (idleOpen.chan t2c).srIdle ≠ 0 ∧ (idleOpen.chan t2c).marks = [] ∧
    (idleOpen.chan t2c).selfRefresh = false := by decide +kernel

theorem met_Freeze_poll : up.up 0 = true ∧ [90, 80, 96].length = 3 ∧ ∀ c ∈ [90, 80, 96], c < 105 := by decide +kernel
def frozenS : State :=
  let s := chanOn t1c { override := some 3, frozenAt := some 5, snap := some { header := [], openRows := [], queue := [], cmds := [], lanes := [], inOrder := [], cap := 64, at_ := 5 } } pool
  s.setDrc { s.drc with waitReads := [(ctlKey t1c, { link := 0, pbr := some 5, host := 5, dpa := 4096, arrival := 0 })] }
theorem met_Freeze_poison : (frozenS.chan t1c).frozenAt = some 5 ∧ (frozenS.chan t1c).poisoning = false ∧ frozenS.linkOpen 0 = true ∧
    frozenS.drc.waitReads.map (·.1) = [ctlKey t1c] ∧ frozenS.drc.waitWrites = [] ∧
    ((frozenS.queuedAt t1c).all fun e => !e.write && e.job.isNone) = true := by decide +kernel
/-- A host's read stands in the queue of the frozen controller. -/
def frozenQ : State :=
  let s := chanOn t1c { override := some 3, frozenAt := some 5, queue := [{ rdE 9 0 with job := some 2 }] } pool
  s.setDrc { s.drc with jobs := [(2, { left := 1, tier := 1, read := some { link := 0, pbr := some 5, host := 5, dpa := 4096, arrival := 0 } })] }
theorem met_Freeze_queued : (frozenQ.chan t1c).frozenAt = some 5 ∧ (frozenQ.chan t1c).poisoning = false ∧
    frozenQ.queuedAt t1c = [{ rdE 9 0 with job := some 2 }] ∧ (tabFind frozenQ.drc.jobs 2).isSome = true ∧ frozenQ.drc.waitReads = [] ∧
    frozenQ.drc.waitWrites = [] ∧ frozenQ.linkOpen 0 = true := by decide +kernel
theorem met_Freeze_drift : queued1.chanState t1c = 2 ∧ (queued1.chan t1c).lastTrack = 0 := by decide +kernel
def ctlInp : Bytes := [0, 1, 0, 0, 0, 0, 0, 0]
theorem met_Freeze_dump : Accepted rowFreezeDump .mctp ctlInp.length frozenS ∧ ctlIn ctlInp = t1c ∧ frozenS.restarting 0 = false ∧
    frozenS.chanState t1c = 3 ∧ (frozenS.chan t1c).snap.isSome = true ∧ fld ctlInp 4 4 = 0 := by decide +kernel

/-- Codes 10 to 39 pass for both delays, codes 100 to 115 of the reference voltage. -/
def sweep0 : Sweeps := { rd1 := 2 ^ 40 - 2 ^ 10, wr1 := 2 ^ 40 - 2 ^ 10, vref := 2 ^ 116 - 2 ^ 100, rd2 := 2 ^ 40 - 2 ^ 10, wr2 := 2 ^ 40 - 2 ^ 10 }
def run1 : LaneRun := { first := sweep0, again := none }
def goodLane : Lane := { rdDelay := 24, rdEye := 30, wrDelay := 24, wrEye := 30, vref := 107, vrefWin := 16, repaired := false }
def training1 (v : Option Iface) : State := chanOn t1c { override := some 1, thawing := v }
theorem met_Train_trained : (training1 none).ctlFitted t1c = true ∧ ((training1 none).servedBy t1c).isSome = true ∧
    ([run1].map (trainLane 1)) = [goodLane] ∧ ([goodLane].all lanePass) = true ∧ (training1 none).pool.waiting = [] ∧
    (training1 none).drc.waitReads = [] ∧ (training1 none).drc.waitWrites = [] ∧ (training1 none).fab.lendWait = [] := by decide +kernel
theorem met_Train_thawed : ((training1 (some .mctp)).chan t1c).thawing = some .mctp ∧ ((training1 (some .mctp)).servedBy t1c).isSome = true := by decide +kernel
def frozen1 : State := chanOn t1c { override := some 3, frozenAt := some 5 } pool
theorem met_Train_thaw : Accepted rowThaw .mctp (ctlInp.take 3).length frozen1 ∧ ctlIn (ctlInp.take 3) = t1c ∧ frozen1.chanState t1c = 3 ∧
    (frozen1.chan t1c).thawing = none := by decide +kernel
def frozenPending : State := frozen1.modCk 0 fun k => { k with pending := true }
theorem met_Train_thaw_pending : (frozen1.ck 0).pending = false ∧ (frozenPending.ck 0).pending = true ∧ (frozenPending.ck 0).relock = false ∧
    frozenPending.chanState t1c = 3 ∧ (frozenPending.chan t1c).thawing = none ∧ frozenPending.restarting 0 = false ∧
    Accepted rowThaw .mctp (ctlInp.take 3).length frozenPending := by decide +kernel
def spare0 : Ctl := { slice := 0, tier := 1, unit := 31 }
theorem met_Train_retire : (frozen1.chan t1c).frozenAt = some 5 ∧ frozen1.chanState t1c = 3 ∧ frozen1.servedBy t1c = some (0, 0) ∧
    32 * 0 + spareOf frozen1.cfg 0 0 = 31 ∧ frozen1.chanState spare0 = 5 ∧ frozen1.groupOk 0 0 = true ∧ (frozen1.eccReg 0).rebuilds = [] ∧
    frozen1.drc.waitReads = [] ∧ frozen1.drc.waitWrites = [] ∧ frozen1.pool.waiting = [] := by decide +kernel
theorem met_Train_command : Accepted rowRetire .mctp (ctlInp.take 3).length pool ∧ pool.chanState t1c = 2 ∧ pool.servedBy t1c = some (0, 0) ∧
    pool.chanState spare0 = 5 ∧ pool.groupOk 0 0 = true ∧ (pool.chan t1c).thawing = none := by decide +kernel
theorem met_Train_mask : up.pf0Open (.pf0 0) = true ∧ bit up.cfg.fmLinks 0 = true ∧ up.maskResult 0 0x7F false = 0 ∧
    (up.touch (.pf0 0)).maskResult 0 0x7F false = 0 ∧ up.segLive 0 7 = false ∧ up.items = [] := by decide +kernel

theorem met_Stack_failure : up.up 0 = true ∧ (up.eccReg 0).failedStacks = [] ∧ up.groupOk 0 1 = true ∧ (up.eccReg 0).rebuilds = [] ∧
    ∀ p < 32, up.queuedAt { slice := 0, tier := 1, unit := 32 * 1 + p } = [] := by decide +kernel
def stackRb : Rebuild :=
  { kind := 1, unit := 1, source := 0, bytes := 100, done := 8, group := 1, units := (List.range 31).map (31 + ·), running := true }
def rebuilding : State := up.modEccReg 0 fun e => { e with rebuilds := [stackRb], failedStacks := [1] }
theorem met_Stack_rebuild : (rebuilding.eccReg 0).rebuilds = [stackRb] ∧ stackRb.done < stripeTotal ∧ (rebuilding.eccReg 0).waitWrites = [] ∧
    rebuilding.pool.waiting = [] ∧ stackRb.kind = 1 ∧ stackRb.running = true := by decide +kernel
def scrubIn : Bytes := [0, 0, 0, 0, 0, 0, 0, 0] ++ le 8 0 ++ le 8 (2 ^ 20)
def scrub1 : Scrub := { num := 1, scope := 0, start := 0, len := 2 ^ 20, total := 256, state := 1 }
theorem met_Stack_scrub : Accepted rowScrubRange .mctp scrubIn.length inT2 ∧ inT2.ecc.scrubs = [] ∧ fld scrubIn 16 8 = 2 ^ 20 ∧
    inT2.scrubLeft { scrub1 with state := 0 } ≠ [] := by decide +kernel
def scrubbing : State := inT2.setEcc { inT2.ecc with scrubs := [scrub1] }
def cancelIn : Bytes := [0, 1, 0, 0, 0, 0, 1] ++ List.replicate 17 0
theorem met_Stack_cancel : Accepted rowScrubRange .mctp cancelIn.length scrubbing ∧ bit (fld cancelIn 1 1) 0 = true ∧ fld cancelIn 6 2 = 1 := by
  decide +kernel
theorem met_Stack_read : scrubbing.homeOf (.page 1) = some t2Home ∧ scrubbing.inScope scrub1 (.page 1) = true ∧ Item.page 1 ∈ scrubbing.items ∧
    scrubbing.homeFrozen (scrubbing.itemSlice (.page 1)) t2Home 0 (homeLen t2Home) = none ∧ pageDecode zeroBlk.sectors zeroBlk.strength [] = some 0 := by
  decide +kernel
theorem met_Stack_status : Accepted rowScrubStatus .mctp [1, 0].length scrubbing ∧ fld [1, 0] 0 2 = 1 ∧ scrubbing.scrubLeft scrub1 ≠ [] := by decide +kernel
theorem met_Stack_list : Accepted rowRetireListGet .mctp (List.replicate 8 (0 : Byte)).length up ∧ fld (List.replicate 8 0) 0 1 < up.cfg.slices := by
  decide +kernel
def toSave : State := up.modEccReg 0 fun e => { e with savePending := true, lastSave := some 7, retire := [(1, 9)] }
theorem met_Stack_save : ((List.range toSave.cfg.slices).filter fun k => (toSave.eccReg k).savePending) = [0] ∧
    (toSave.eccReg 0).lastSave = some 7 ∧ (toSave.until (7 + 60000 * ms)).canWriteFlash = true := by decide +kernel

/-! ## The Periscope fabric -/

def mem (m st : Nat) : Member := { module := m, serial := [BitVec.ofNat 8 m], state := st, level := 0, epoch := 1 }
def lend5 : LendWin := { valid := true, tier := 2, mask := 3, size := 128, borrower := 9, gen := 3 }
def peer0 : Peer := { link := 2 }
/-- Module 3, MEMBER of a constellation that module 1 leads, with a lend window to module 9 and a window at module 7. -/
def fabric (s : State := pool) : State :=
  s.setFab { s.fab with me := 3, master := 1, mstate := 2, epoch := 5, constId := 77, members := [mem 1 1, mem 3 1, mem 7 1, mem 9 1],
                        routes := List.replicate 256 0, ports := [(0, peer0)], lw := [(5, lend5)],
                        pw := [(12, { valid := true, lender := 7, lw := 2, size := 4, gen := 6 })] }
def peers (x : Peer) : State := fabric.modPeer 0 fun _ => x

theorem met_Peer_train : (up.peer 0).link ≠ 2 ∧ peerFitted up.cfg 0 = true ∧ up.up (peerPortSlice up.cfg 0) = true ∧ (up.peer 0).noRefclk = false ∧
    (up.peer 0).failed = false ∧ (up.peer 0).txq = [] ∧ (up.peer 0).downAt = none ∧ widthOf 0xFF = 3 := by decide +kernel
def rdM : Msg := { opcode := 1, vc := 0, len := 1, src := 9, dst := 3, tag := 4, hops := 8, gen := 3, ca := 3 * 2 ^ 44 + 5 * 2 ^ 38 + 512, cls := 2, status := 0, data := [] }
def rdFlit : Bytes := flitBytes (flitOf 1 0 0 false [] 0 (msgBytes rdM))
def rdContent : Bytes := flitOf 1 0 0 false [] 0 (msgBytes rdM)
set_option maxRecDepth 100000 in
theorem met_Peer_flit : rdFlit.length = 272 ∧ flitContent rdFlit = some rdContent ∧ fld rdContent 0 1 % 16 = 1 ∧ bit (fld rdContent 3 2) 12 = false ∧
    fld rdContent 1 2 % 4096 = (fabric.peer 0).rxSeq ∧ fld rdContent 9 1 = 0 ∧ splitMsgs 32 (slice rdContent 10 242) = ([msgBytes rdM], []) ∧
    fld (msgBytes rdM) 3 1 = fabric.fab.me ∧ rowOfMsg (parseMsg (msgBytes rdM)) = some (.rd rdM) := by decide +kernel
/-- A heartbeat of module 1, in one part, alone in a flit. -/
def hbM : Msg := { opcode := 0x21, vc := 2, len := 0, src := 1, dst := 3, tag := 0, hops := 8, gen := 0, ca := 0, cls := 0, status := 0, data := [] }
def hbContent : Bytes := flitOf 1 0 0 false [] 0 (msgBytes hbM)
set_option maxRecDepth 100000 in
theorem met_Peer_control : flitContent (flitBytes hbContent) = some hbContent ∧ fld hbContent 0 1 % 16 = 1 ∧ bit (fld hbContent 3 2) 12 = false ∧
    fld hbContent 9 1 = 0 ∧ splitMsgs 32 (slice hbContent 10 242) = ([msgBytes hbM], []) ∧ fld (msgBytes hbM) 3 1 = fabric.fab.me ∧
    fld (msgBytes hbM) 0 1 = 0x21 ∧ fabric.fab.me ≠ 0xFF ∧ parseMsg (msgBytes hbM) = hbM ∧
    tabFind fabric.fab.ctlParts (65536 * 0 + 256 * fld (msgBytes hbM) 0 1 + fld (msgBytes hbM) 2 1) = none ∧
    rowOfCtl 0 fabric.fab.me (fld (msgBytes hbM) 0 1) (fld (msgBytes hbM) 2 1) (slice hbM.data 0 hbM.gen) = some (.heartbeat 1) := by decide +kernel
theorem met_Peer_gap : (peers { peer0 with rxSeq := 4095 }).peer 0 = { peer0 with rxSeq := 4095 } ∧ (0 + 4096 - 4095) % 4096 < 2048 := by decide +kernel
def replaying : State := peers { peer0 with replay := [(7, [1]), (8, [2])], sinceAck := 2, discarding := true }
theorem met_Peer_retry : (replaying.peer 0).link = 2 ∧ ((replaying.peer 0).replay.dropWhile fun f => f.1 != 8 % 4096) = [(8, [2])] ∧
    (replaying.peer 0).discarding = true ∧ 0 < (replaying.peer 0).sinceAck := by decide +kernel
def peerDown : State := peers { peer0 with link := 1, downAt := some 9, replay := [(7, [1])] }
theorem met_Peer_down : (peerDown.peer 0).link = 1 ∧ (peerDown.peer 0).downAt = some 9 ∧ (peerDown.peer 0).txq = [] := by decide +kernel

theorem met_Fabric_served : fabric.fab.mstate = 2 ∧ rdM.dst = fabric.fab.me ∧ fabric.fab.routes.getD rdM.src 0xFF < peerPorts fabric.cfg ∧
    bits rdM.ca 43 38 = 5 ∧ rdM.ca % 2 ^ 38 = 512 ∧ tabFind fabric.fab.lw 5 = some lend5 ∧ lendSlice lend5.mask (512 / 2 ^ 30) = some 0 ∧
    fabric.up 0 = true ∧ rdM.src = lend5.borrower ∧ rdM.gen = lend5.gen ∧ 512 + 256 * rdM.len ≤ lend5.size * 2 ^ 30 ∧
    fabric.lentBad 5 512 (256 * rdM.len) = false ∧ fabric.lentFrozen 5 512 (256 * rdM.len) = none := by decide +kernel
/-- The first granule's units of slice 0 lost what they held. -/
def lostLent : State := fabric.setFab { fabric.fab with lw := [(5, { lend5 with gone := (List.range 64).map fun u => (0, u) })] }
theorem met_Fabric_lost : lostLent.lentBad 5 512 (256 * rdM.len) = true ∧ lostLent.lentFrozen 5 512 (256 * rdM.len) = none := by decide +kernel
/-- A T2 controller that serves the window is frozen. -/
def frozenLent (p : Bool) : State :=
  (List.range 64).foldl (fun s u => s.modChan { slice := 0, tier := 2, unit := u } fun x => { x with override := some 3, frozenAt := some 0, poisoning := p }) fabric
theorem met_Fabric_frozen : (((frozenLent false).lentFrozen 5 512 256).any fun c => !((frozenLent false).chan c).poisoning) = true ∧
    (((frozenLent true).lentFrozen 5 512 256).any fun c => ((frozenLent true).chan c).poisoning) = true := by decide +kernel
theorem met_Fabric_refused : { rdM with src := 7 }.src ≠ lend5.borrower ∧ { rdM with gen := 9 }.gen ≠ (lend5.gen + 65535) % 65536 := by decide
def farHome : Home := { tier := 3, ma := 1024, unit := 12, blk := some zeroBlk }
def farReq (k : Nat) : FReq := { kind := k, msg := { rdM with src := 3, dst := 7, ca := 7 * 2 ^ 44 + 2 * 2 ^ 38 + 1024 }, win := 12, item := some (.page 1), issued := 0 }
def farRead1 (k : Nat) : State :=
  let s := homed farHome fabric
  { s with fab := { s.fab with reqs := [(4, farReq k)] },
           pool := { s.pool with waiting := [{ link := 0, pbr := some 5, host := 5, dpa := 4096, arrival := 0 }] } }
def rdDataM : Msg := { rdM with opcode := 0x10, vc := 1, src := 7, dst := 3, data := slice (blockBytes zeroBlk) 0 256 }
theorem met_Fabric_bytes : rdDataM.data = slice (blockBytes zeroBlk) ((farReq 0).msg.ca % 2 ^ 38 - farHome.ma) (256 * (farReq 0).msg.len) :=
  (congrFun (congrArg (slice (blockBytes zeroBlk)) (show 0 = (farReq 0).msg.ca % 2 ^ 38 - farHome.ma by decide)) 256).trans
    (congrArg (slice (blockBytes zeroBlk) _) (show 256 = 256 * (farReq 0).msg.len by decide))
theorem met_Fabric_data : rdDataM.dst = (farRead1 0).fab.me ∧ (farRead1 0).fab.reqs = [(rdDataM.tag, farReq 0)] ∧ (farReq 0).msg.dst = rdDataM.src ∧
    (farRead1 0).fab.heldReqs = [] ∧ (farRead1 0).homeOf (.page 1) = some farHome ∧ (farRead1 0).fab.flips = [] ∧
    pageDecode zeroBlk.sectors zeroBlk.strength [] = some 0 ∧ ((farRead1 0).cn 0).slots = [] ∧ (farRead1 0).lineBusy 64 = false ∧
    (farRead1 0).linePoison 64 = false ∧ (farRead1 0).linkOpen 0 = true := by decide +kernel
def farWrote : State := { (farRead1 1) with pool := { (farRead1 1).pool with waiting := [], far := [(1, fullWrite)] } }
theorem met_Fabric_ack : farWrote.fab.reqs = [(4, farReq 1)] ∧ (farReq 1).kind = 1 ∧ farWrote.pool.far = [(1, fullWrite)] ∧ farWrote.pool.waiting = [] ∧
    (farWrote.pw 12).hold = false := by decide +kernel
def farLate : State := { (farRead1 0) with pool := { (farRead1 0).pool with waiting := [] } }
theorem met_Fabric_timeout : tabFind farLate.fab.reqs 4 = some (farReq 0) ∧ farLate.homeOf (.page 1) = some farHome ∧ farLate.pool.waiting = [] := by decide +kernel
def tagDone : State := fabric.setFab { fabric.fab with reqs := [(4, { farReq 0 with timedOut := true, lateSeen := true })] }
theorem met_Fabric_tag : tabFind tagDone.fab.reqs 4 = some { farReq 0 with timedOut := true, lateSeen := true } ∧ tagDone.fab.heldReqs = [] := by decide +kernel
theorem met_Fabric_notice : fabric.fab.pw = [(12, { valid := true, lender := 7, lw := 2, size := 4, gen := 6 })] ∧ fabric.fab.reqs = [] ∧
    fabric.fab.heldReqs = [] := by decide +kernel

def stageIn : Bytes := [0, 5, 3, 9, 0, 1, 3, 2]
theorem met_Windows_stage : Accepted rowStage .mctp stageIn.length fabric ∧ fabric.fab.commit = none ∧ fld stageIn 4 2 = 256 ∧ fld stageIn 7 1 < 16 ∧
    fld stageIn 6 1 < 2 ^ fabric.cfg.slices := by
  decide +kernel
def stage5 (n : Nat) : Staged := { kind := 0, win := 5, valid := true, flag := true, peer := 9, size := n, mask := 3, cls := 2 }
def stagedS (n : Nat) : State := fabric.setFab { fabric.fab with staged := [stage5 n] }
set_option maxRecDepth 100000 in
theorem met_Windows_commit : Accepted rowCommit .mctp [(0 : Byte)].length (stagedS 256) ∧ (stagedS 256).bistFull = false ∧
    (stagedS 256).commitOk false = true ∧ (stagedS 256).asked = [] ∧ lend5.size < (stage5 256).size := by decide +kernel
def selfTest : State := (stagedS 256).setBst { (stagedS 256).bst with runs := [{ num := 1, suites := 128, mask := 255, stopOnFail := false, via := .mctp, res := [(0, { cur := 7 })] }] }
theorem met_Windows_busy : Accepted rowCommit .mctp [(0 : Byte)].length selfTest ∧ selfTest.fab.commit = none ∧ selfTest.bistFull = true ∧
    (stage5 256).valid = true := by decide +kernel
theorem met_Windows_refused : (stagedS 256 |>.setFab { (stagedS 256).fab with staged := [{ stage5 256 with peer := 40 }] }).commitOk false = false := by
  decide +kernel
def askedS : State := (stagedS 64).setFab { (stagedS 64).fab with commit := some { via := .mctp, asked := [5] } }
set_option maxRecDepth 100000 in
theorem met_Windows_answer : askedS.fab.commit = some { via := .mctp, asked := [5] } ∧ tabFind askedS.fab.lw 5 = some lend5 ∧
    keptGranules lend5 (stage5 64) = 64 ∧ askedS.commitOk false = true := by decide +kernel

def masterS : State := fabric.setFab { fabric.fab with master := 3, isMaster := true, members := [mem 3 1, mem 7 1] }
theorem met_Table_member : fabric.fab.isMaster = false ∧ fabric.fab.masterLost = false ∧ 1 = fabric.fab.master ∧ (fabric.peer 0).link = 2 ∧ 1 ≠ fabric.fab.me := by
  decide +kernel
def membershipS : State := fabric.setFab { fabric.fab with pw := [] }
theorem met_Table_membership : membershipS.fab.pw = [] ∧ membershipS.fab.commit = none ∧ membershipS.fab.epoch < 6 ∧ 4 < membershipS.fab.epoch ∧
    (∃ x ∈ [{ mem 3 1 with serial := membershipS.cfg.serial }], x.module = membershipS.fab.me ∧ x.serial = membershipS.cfg.serial ∧ x.state = 1) ∧
    (∀ x ∈ [mem 1 1], x.module = membershipS.fab.me → x.state ≠ 1) ∧ membershipS.fab.joinVia = none ∧ 0 < membershipS.fab.master := by decide +kernel
/-- A JOIN_REQ of module 7's serial came in on port 0; port 0 belongs to another constellation. -/
def answering : State := fabric.setFab { fabric.fab with joinPorts := [([7], 0)] }
theorem met_Table_answer : answering.fab.mstate = 2 ∧ answering.fab.joinPorts = [([7], 0)] ∧ ([1] : List Nat) ≠ [] ∧
    (∃ x ∈ answering.fab.members, x.serial = [7] ∧ x.state ≤ 1 ∧ x.module = 7) ∧ (answering.peer 0).link = 2 ∧ 5 ≠ answering.fab.constId := by
  decide +kernel
theorem met_Table_routes : ∀ x ∈ [mem 1 1, mem 7 3], x.module = 7 → x.state = 3 := by decide
theorem met_Table_lost : masterS.fab.poll = none ∧ masterS.fab.commit = none ∧ 7 ≠ masterS.fab.me ∧
    (masterS.fab.members.any fun x => x.module == 7 && x.state != 3) = true ∧ ∀ x ∈ masterS.fab.members, x.state ≠ 0 := by decide +kernel
theorem met_Table_join : masterS.fab.mstate = 2 ∧ masterS.fab.isMaster = true ∧ (masterS.fab.admitted.any fun a => a.1 == ([1] : Bytes)) = false ∧
    (match masterS.judge [1] [0] 0 with | .error r => r == 2 | .ok _ => false) = true ∧ fabric.fab.isMaster = false ∧
    mem 7 1 ∈ masterS.fab.members ∧ (mem 7 1).serial = [7] ∧ (mem 7 1).module ≠ masterS.fab.me ∧
    (∀ x ∈ masterS.fab.members, x.serial = [7] → x = mem 7 1) ∧ ∀ x ∈ masterS.fab.members, x.state ≠ 0 := by decide +kernel
def joining : State := bgOn .mctp 0xC042 [] (up.setFab { up.fab with mstate := 1, joinVia := some (.mctp, 0), joinId := 77 })
theorem met_Table_ack : joining.fab.joinVia = some (.mctp, 0) ∧ joining.fab.mstate = 1 ∧ ((joining.iface .mctp).bg.map (·.opcode)) = some 0xC042 ∧
    joining.fab.epoch ≤ 5 := by decide +kernel
def joinLate : State := joining.setFab { joining.fab with epoch := 6 }
def leaving1 : State := bgOn .mctp 0xC042 [] (fabric.setFab { fabric.fab with mstate := 3, joinVia := some (.mctp, 0) })
theorem met_Table_timeout : joinLate.fab.joinVia = some (.mctp, 0) ∧ joinLate.fab.mstate = 1 ∧ 5 < joinLate.fab.epoch ∧
    leaving1.fab.joinVia = some (.mctp, 0) ∧ leaving1.fab.mstate = 3 ∧ ((leaving1.iface .mctp).bg.map (·.opcode)) = some 0xC042 ∧
    leaving1.fab.epoch < 6 ∧ ∀ x ∈ [mem 1 1], x.module = leaving1.fab.me → x.state ≠ 1 := by decide +kernel
def masterAck : State := masterS.setFab { masterS.fab with pw := [] }
theorem met_Table_acks : masterAck.fab.members = [mem 3 1, mem 7 1] ∧ (mem 3 1).module = masterAck.fab.me ∧ masterAck.fab.acks = [] := by decide +kernel
def masterJoin : State := masterAck.setFab { masterAck.fab with members := [mem 3 1, mem 7 1, mem 8 0] }
theorem met_Table_joined : masterJoin.fab.members = [mem 3 1, mem 7 1, mem 8 0] ∧ masterJoin.fab.isMaster = true ∧ masterJoin.fab.acks = [] ∧
    masterJoin.fab.commit = none := by decide +kernel
def polling : State := bgOn .mctp 0xC044 [] (fabric.setFab { fabric.fab with poll := some ([7], []) })
theorem met_Table_poll : polling.fab.poll = some ([7], []) ∧ polling.bgOf 0xC044 = some .mctp ∧ ((polling.iface .mctp).bg.map (·.opcode)) = some 0xC044 := by
  decide +kernel
def leaving0 : State := fabric.setFab { fabric.fab with lw := [], pw := [] }
theorem met_Table_commands : Accepted rowJoin .mctp 32 masterS ∧ Accepted rowJoin .mctp 32 up ∧ Accepted rowJoin .mctp 32 leaving0 ∧ up.fab.mstate = 0 ∧
    up.bgBusy .mctp 0xC042 [] = false ∧ leaving0.fab.lw = [] ∧ leaving0.fab.pw = [] ∧ leaving0.fab.isMaster = false ∧
    Accepted rowConstStatus .mctp 1 fabric ∧
    fld (List.replicate 32 (0 : Byte)) 0 1 = 0 ∧ fld (1 :: List.replicate 31 (0 : Byte)) 0 1 = 1 ∧ fld (2 :: List.replicate 31 (0 : Byte)) 0 1 = 2 ∧
    2 < fld (3 :: List.replicate 31 (0 : Byte)) 0 1 ∧ up.joinNeighbour 0 = none ∧
    ((peers { peer0 with cid := 5, neighbour := 1 }).joinNeighbour 5).isSome = true := by decide +kernel
def present (s : State) : State := s.setMbx { s.mbx with jumper := true }
theorem met_Table_master : Accepted rowMasterSet .mctp 0 (present up) ∧ (present up).fab.poll = none ∧ (present up).bgBusy .mctp 0xC044 [] = false ∧
    Accepted rowMasterSet .mctp 0 (present masterS) ∧ (present masterS).fab.members = [mem 3 1, mem 7 1] := by decide +kernel
theorem met_Constellations_older : fabric.fab.mstate = 2 ∧ 0 < fabric.fab.epoch ∧ 0 < fabric.fab.master ∧ fabric.fab.me ≠ 0 ∧ fabric.fab.master < 200 := by
  decide +kernel

/-! ## Host ports, functions, trays -/

def gen3 : LinkOffer := { gen := 3, speed := 6, lanes := 16, refclk := true, viral := true }
def portS (p : Port) : State := { pool with ports := [(0, p)] }
theorem met_Links_up : linkFitted up.cfg 0 = true ∧ up.rst.recovery = false ∧ up.rst.phase = 9 ∧ up.up (hostPortSlice up.cfg 0) = true ∧
    ((portS { link := 1 }).port 0).link = 1 ∧ linkWidth up.cfg 0 gen3.lanes = 3 ∧ ((portS { link := 1, releasing := some .mctp }).port 0).releasing = some .mctp := by
  decide +kernel
theorem met_Links_down : linkFitted pool.cfg 0 = true ∧ (pool.port 0).link = 2 ∧ EngineIdle pool := by decide +kernel
theorem met_Links_perst : 0 < hostPorts pool.cfg ∧ linkFitted pool.cfg 1 = false ∧ pool.cfgOpen 0 = true ∧
    ((portS { perst := true }).port 0).perst = true ∧ (portS { perst := true }).up 0 = true ∧ EngineIdle (portS { perst := true }) := by decide +kernel
def vfs : State := pool.modFn (.pf1 0) fun f => { f with numVfs := 8, vfEnable := true }
theorem met_Links_vf : tenantPort vfs.cfg 3 = some (0, 4) ∧ vfs.vfEnabled 3 = true ∧ EngineIdle vfs ∧ vfs.cfgOpen 0 = true := by decide +kernel
def pendingVec : State := pool.modFn (.pf0 0) fun f => { f with vecs := [(6, { pending := true })] }
theorem met_Links_release : pendingVec.cfgOpen 0 = true ∧ (tabGet ({} : Vec) (pendingVec.fn (.pf0 0)).vecs 6).pending = true ∧
    (pendingVec.fn (.pf0 0)).d3hot = false ∧ (pendingVec.port 0).cxlGen = 3 := by decide +kernel

theorem met_Frozen_freeze : (pool.port 0).frozen = false ∧ (pool.port 0).cxlGen ≠ 0 ∧ pool.tbc / ms ≤ (pool.port 0).countMs := by decide +kernel
def frozenPort : State := portS { link := 2, cxlGen := 3, frozen := true, freezeCause := 4 }
theorem met_Frozen_release : Accepted rowPortRelease .mctp [(0 : Byte), 0].length frozenPort ∧ Accepted rowPortRelease .mctp [(0 : Byte), 1].length frozenPort ∧
    2 * (fld [0, 0] 0 1 % 4) + b2n (bit (fld [0, 0] 0 1) 2) = 0 ∧ (frozenPort.port 0).frozen = true ∧ (frozenPort.port 0).releasing = none := by decide +kernel
def trayHome : Home := { tier := 4, ma := 1024, unit := 0, blk := some zeroBlk }
def trayTag1 : TrayTag := { inc := 2, item := some (.page 1), issued := 5 }
def trayS (t : TrayTag) (w : List RReq) : State :=
  let s := homed trayHome
  { s with fab := { s.fab with tags := [(7, t)], trays := [(0, { present := true, gib := 64 })], tpLink := 2 }, pool := { s.pool with waiting := w } }
def traysRead : RReq := { link := 0, pbr := some 5, host := 5, dpa := 4096, arrival := 0 }
theorem met_Frozen_tray : (trayS trayTag1 [traysRead]).trayTag ((7 + 4096 * 2) % 4096) = trayTag1 ∧ trayTag1.inc = (7 + 4096 * 2) / 4096 % 16 ∧
    (trayS trayTag1 [traysRead]).homeOf (.page 1) = some trayHome ∧ (trayS trayTag1 [traysRead]).lineBusy 64 = false ∧
    (trayS trayTag1 [traysRead]).linePoison 64 = false ∧ (trayS trayTag1 [traysRead]).linkOpen 0 = true ∧
    (trayS trayTag1 []).homeOf (.page 1) = some trayHome ∧ (trayS trayTag1 []).pool.waiting = [] := by decide +kernel
def trayOut : TrayTag := { trayTag1 with item := none, out := true, timedOut := true }
theorem met_Frozen_tag : (trayS trayOut []).trayTag 7 = trayOut ∧ bit trayOut.mask ((trayOut.inc + 1) % 16) = false := by decide +kernel
def traysIdle : State := { (trayS trayOut []) with fab := { (trayS trayOut []).fab with tags := [] } }
theorem met_Frozen_trays : traysIdle.fab.tags = [] ∧ tabFind traysIdle.fab.trays 0 = some { present := true, gib := 64 } ∧ traysIdle.pf0Open (.pf0 0) = true ∧
    bit traysIdle.cfg.fmLinks 0 = true := by decide +kernel

/-! ## Command interfaces -/

theorem met_Standard_plain : Accepted { op := 1, thru := 7, rom := true } .mctp 0 up ∧ Accepted { op := 2, thru := 7 } .mctp 0 up ∧
    Accepted { op := 5, thru := 7 } (.pf1 0) 0 up ∧ Accepted { op := 0x4000, thru := 5 } (.pf0 0) 0 up ∧ (up.iface .mctp).bg = none ∧
    (acceptedOps.any fun r => r.1 == 0x1234) = false ∧ Accepted { op := 0x0301, thru := 5 } .mctp 0 up := by decide +kernel
theorem met_Standard_busy : Accepted { op := 5, thru := 7 } .mctp 0 (bgOn .mctp 0xC042 [] up) ∧
    ((bgOn .mctp 0xC042 [] up).iface .mctp).bg.map (·.opcode) = some 0xC042 := by decide +kernel
def lostOne : State := up.modSl 3 fun r => { r with state := 4 }
/-- A self-test of slice 2, in the course of a suite or between two. -/
def testRun (cur : Nat) : BistRun := { num := 1, suites := 3, mask := 4, stopOnFail := false, via := .mctp, res := [(2, { cur := cur })] }
def testing1 (cur : Nat) : State := bgOn .mctp 0xC050 [] (up.setBst { up.bst with runs := [testRun cur] })
theorem met_Standard_bist : Accepted { op := 5, thru := 7 } .mctp 0 (testing1 1) ∧ Accepted { op := 5, thru := 7 } .mctp 0 (testing1 15) ∧
    (testing1 1).bst.runs = [testRun 1] ∧ (testRun 1).members = [2] ∧ ((testRun 1).of 2).cur < 15 ∧ (testRun 15).members = [2] ∧
    ((testRun 15).of 2).cur = 15 ∧ (testRun 15).sliceDone 2 = false ∧ ((testing1 1).iface .mctp).bg.map (·.opcode) = some 0xC050 := by decide +kernel
def fwdChain : Chain := { num := 9, bytes := 3, crc := 0, kind := 1, order := [3, 7], next := some 3 }
def fwdOffer : Offer := { kind := 1, bytes := [5], img := { digest := [1], level := 1 }, via := some .mctp }
def offering : State := bgOn .mctp 0xC058 [] (up.setFw { up.fw with chain := some fwdChain, offer := some fwdOffer })
theorem met_Standard_forward : Accepted { op := 5, thru := 7 } .mctp 0 offering ∧ ((offering.iface .mctp).bg.map (·.opcode)) = some 0xC058 ∧
    (offering.fw.chain.any fun c => c.next.isSome) = true ∧ offering.fw.write = none ∧ (offering.fw.offer.any fun o => o.via == some .mctp) = true := by
  decide +kernel
theorem met_Standard_load : Accepted { op := 5, thru := 7 } (.pf1 0) 0 loading ∧ ((loading.iface (.pf1 0)).bg.map (·.opcode)) = some 0xC010 := by
  decide +kernel
theorem met_Standard_slice : Accepted rowSliceStatus .mctp [(3 : Byte)].length lostOne ∧ (lostOne.sl 3).state = 4 ∧ fld [3] 0 1 = 3 ∧ 3 < lostOne.cfg.slices ∧
    Accepted rowSliceStatus .mctp [(9 : Byte)].length up ∧ up.cfg.slices ≤ fld [9] 0 1 := by decide +kernel

def rec0 (h : Nat) : Rec := { handle := h, code := 11, payload := [], time := 0 }
def logged : State := up.setMbx { up.mbx with logs := [(1, { recs := [rec0 1, rec0 2], next := 3 })] }
theorem met_Events_logs : Accepted { op := 0x0100, thru := 5 } .mctp 0 logged ∧ Accepted { op := 0x0101, thru := 5 } (.pf0 0) 0 logged ∧
    ((tabGet ({} : Log) logged.mbx.logs 1).recs.take [1].length).map (·.handle) = [1] ∧
    ((tabGet ({} : Log) logged.mbx.logs 1).recs.take [2].length).map (·.handle) ≠ [2] := by decide +kernel
theorem met_Events_policy : Accepted { op := 0x0102, thru := 1 } (.pf0 0) 0 up ∧ Accepted { op := 0x4300, thru := 5 } (.pf0 0) 0 pool := by decide +kernel
theorem met_Events_inject : Accepted { op := 0x4301, thru := 1 } (.pf0 0) 0 pool ∧ pool.linkHost 0 4096 = some (5, ext0) ∧ pool.up (pool.sliceOf 4096) = true ∧
    pool.mbx.injected = [] ∧ pool.linePoison 64 = false ∧ memWf pool.pool.mem = true := by decide +kernel
def poisoned1 : State := inT1.poisonLine 64
theorem met_Events_clear : Accepted { op := 0x4302, thru := 1 } (.pf0 0) 0 poisoned1 ∧ poisoned1.linkHost 0 4096 = some (5, ext0) ∧
    memWf poisoned1.pool.mem = true ∧ poisoned1.moveOf (.page 1) = none ∧ poisoned1.homeOf (.page 1) = some t1Home ∧ poisoned1.linePoison 64 = true ∧
    poisoned1.homeFrozen (poisoned1.sliceOf 4096) t1Home 0 64 = none ∧ poisoned1.stripeWaits (poisoned1.sliceOf 4096) t1Home 0 = false ∧
    poisoned1.up (poisoned1.sliceOf 4096) = true := by decide +kernel
theorem met_Events_capacity : Accepted { op := 0x4800, thru := 1 } (.pf0 0) 0 pool ∧ (pool.port 0).cxlGen = 3 ∧
    Accepted { op := 0x4801, thru := 1 } (.pf0 0) 0 pool ∧ pool.hostLink 5 = 0 ∧ pool.hostLink 6 ≠ 0 := by decide +kernel

/-! ## Firmware -/

def offIn (action scope bytes off n : Nat) (data : Bytes := []) : Bytes :=
  [BitVec.ofNat 8 action, BitVec.ofNat 8 scope, 0, 0] ++ le 4 bytes ++ le 4 off ++ le 4 n ++ data
def fwS (f : Fw → Fw) (s : State := up) : State := s.setFw (f s.fw)
theorem met_Offers_begin : Accepted rowChainOffer .mctp (offIn 0 0 8192 0 0).length up ∧ fld (offIn 0 0 8192 0 0) 0 1 = 0 ∧
    fld (offIn 0 0 8192 0 0) 4 4 = 8192 ∧ up.fw.offer = none ∧ up.receiving = false ∧ up.fw.base ∈ [0, 5, 8] ∧ up.rst.recovery = false := by decide +kernel
theorem met_Offers_reserved : Accepted rowChainOffer .mctp (offIn 0 2 8192 0 0).length up ∧ 1 < fld (offIn 0 2 8192 0 0) 1 1 ∧
    3 < fld (offIn 4 0 8192 0 0) 0 1 ∧ up.rst.recovery = false ∧ fld (offIn 0 0 8192 0 0) 1 1 ≤ 1 := by decide +kernel
def partS : State := fwS fun f => { f with part := some (4, [1, 2]) }
def partS4k : State := fwS fun f => { f with part := some (3, []) }
theorem met_Offers_segment : Accepted rowChainOffer .mctp (offIn 1 0 0 0 3 [7, 8, 9]).length partS4k ∧ fld (offIn 1 0 0 0 3 [7, 8, 9]) 0 1 = 1 ∧
    fld (offIn 1 0 0 0 3 [7, 8, 9]) 8 4 = 0 ∧ fld (offIn 1 0 0 0 3 [7, 8, 9]) 12 4 = 3 ∧ partS4k.fw.part = some (3, []) ∧
    16 + 3 ≤ (offIn 1 0 0 0 3 [7, 8, 9]).length ∧ fld (offIn 1 0 0 4096 3 [7, 8, 9]) 8 4 ≠ 0 := by decide +kernel
def partFull (base : Nat) : State := fwS fun f => { f with part := some (2, [1, 2]), base := base }
theorem met_Offers_offer : Accepted rowChainOffer .mctp (offIn 2 0 0 0 0).length (partFull 0) ∧ fld (offIn 2 0 0 0 0) 0 1 = 2 ∧
    fld (offIn 2 0 0 0 0) 1 1 = 0 ∧ (partFull 7).bgBusy .mctp 0xC058 [] = false ∧ (partFull 7).receiving = false ∧
    Accepted rowChainOffer .mctp 16 (partFull 7) := by decide +kernel
def offer0 : Offer := { kind := 1, bytes := [5], img := { digest := [1], level := 1 }, via := some .mctp }
def verifyS : State := bgOn .mctp 0xC058 [] (fwS fun f => { f with offer := some offer0, state := 2 })
theorem met_Offers_verified : (verifyS.iface .mctp).bg.map (·.opcode) = some 0xC058 ∧ offer0.scope = 0 ∧ verifyS.fw.state = 2 ∧
    verifyS.forwarding = false ∧ verifyS.fw.offer = some offer0 := by decide +kernel
def writeS (w : FwWrite) (s : State := up) : State :=
  bgOn .mctp 0xC058 [] (fwS (fun f => { f with offer := some offer0, state := 4, base := 5, write := some w }) s)
def w0 : FwWrite := { phase := 0, total := 2 }
def w1 : FwWrite := { phase := 1, total := 2 }
def wP : FwWrite := { phase := 1, total := 2, paused := some 0 }
def low (s : State) : State := s.setPwr { s.pwr with energyMj := 100 }
def guardS (s : State) : State := s.setPwr { s.pwr with guard := true }
theorem met_Offers_step : (writeS w0).prewriteFailed = 0 ∧ (writeS w0).pwr.guard = false ∧ (writeS w0).pwr.testing = false ∧
    (low (writeS w1)).prewriteFailed ≠ 0 ∧ (guardS (writeS w1)).pwr.guard = true ∧ w1.step < w1.total := by decide +kernel
theorem met_Offers_retry : ((writeS wP).until (wP.retryAt + 1000 * ms)).prewriteFailed = 0 ∧ (writeS wP).forwarding = false ∧
    ((low (writeS wP)).until (wP.retryAt + 1000 * ms)).prewriteFailed ≠ 0 ∧ wP.paused = some 0 := by decide +kernel
def doneW (ph : Nat) : FwWrite := { phase := ph, step := 2, total := 2 }
theorem met_Offers_written : (writeS (doneW 0)).prewriteFailed = 0 ∧ (doneW 1).total ≤ (doneW 1).step ∧ (writeS (doneW 1)).fw.state = 4 := by decide +kernel
theorem met_Offers_abort : Accepted rowChainOffer .mctp (offIn 3 0 0 0 0).length up ∧ up.fw.write = none ∧ fld (offIn 3 0 0 0 0) 0 1 = 3 ∧
    Accepted rowChainOffer .mctp (offIn 3 0 0 0 0).length (writeS w1) := by decide +kernel
theorem met_Offers_status : Accepted rowFwStatus .mctp ([] : Bytes).length up := by decide +kernel

def memberS : State := up.setFab { up.fab with mstate := 2, me := 2, master := 1 }
theorem met_Chains_announce : memberS.fab.mstate = 2 ∧ (0 : Nat) ∈ [0, 5, 8] ∧ memberS.fw.state = 0 ∧ memberS.fw.part = none ∧ memberS.receiving = false ∧
    memberS.forwarding = false ∧ memberS.fw.handover = none ∧ (fwS (fun f => { f with state := 7 }) memberS).fw.state ∉ [0, 5, 8] := by decide +kernel
def chain0 : Chain := { num := 9, bytes := 3, crc := crc32c [1, 2, 3], kind := 1, order := [2, 5], source := some 1, recv := [1, 2, 3] }
def recvS (c : Chain) : State := fwS (fun f => { f with chain := some c, state := 1 }) memberS
theorem met_Chains_done : (recvS chain0).fw.chain = some chain0 ∧ crc32c chain0.recv = chain0.crc ∧ chain0.recv.length = chain0.bytes ∧
    chain0.source = some 1 ∧ crc32c [1, 2, 4] ≠ chain0.crc := by decide +kernel
def hold (ready : Bool) (tries : Nat) : Chain :=
  { num := 9, bytes := 3, crc := 0, kind := 1, order := [3, 7], next := some 3, ready := ready, tries := tries }
def bytes0 : Bytes := (List.range 2500).map (BitVec.ofNat 8)
def holdS (c : Chain) : State := fwS (fun f => { f with chain := some c, state := 3, offer := some { offer0 with bytes := bytes0 }, write := some w1 }) masterS
theorem met_Chains_hold : (holdS (hold true 0)).fab.isMaster = true ∧ ((hold true 2).order.dropWhile (· != 3)).drop 1 = [7] ∧
    (holdS (hold true 0)).fw.handover = none ∧ (holdS (hold false 0)).fw.ownResult = none := by decide +kernel

def stFw : State := fwS fun f => { f with state := 5, base := 5, main := { f.main with level := 1, setFmt := 2 } }
theorem met_Handover_activate : Accepted rowActivate .mctp ([0] : Bytes).length stFw ∧ fld [0] 0 1 = 0 ∧ stFw.fw.state = 5 ∧
    stFw.bgBusy .mctp 0xC059 [] = false ∧ (∀ n ∈ stFw.upSlices, stFw.restarting n = false) ∧ stFw.upSlices = List.range 8 ∧
    stFw.fw.main.minFmt ≤ stFw.fw.runFmt ∧ stFw.fw.levels.getD 7 0 = 0 ∧ up.fw.state ≠ 5 := by decide +kernel
def gapS : State := fwS (fun f => { f with main := { f.main with level := 2 } }) stFw
theorem met_Handover_gap : (0 ∈ gapS.upSlices ∧ gapS.fw.levels.getD 0 0 + 1 < gapS.fw.main.level) ∧ Accepted rowActivate .mctp 1 gapS := by decide +kernel
def allS : State := fwS (fun f => { f with chain := some { hold false 0 with next := none, staged := [7, 3] } }) masterS
theorem met_Handover_all : Accepted rowActivate .mctp ([1] : Bytes).length allS ∧ fld [1] 0 1 = 1 ∧ allS.bgBusy .mctp 0xC059 [] = false ∧
    [3, 7].filter [7, 3].contains = 3 :: [7] ∧ (hold false 0).level = allS.fw.running.level ∧ allS.fab.isMaster = true := by decide +kernel
def memberStaged : State := stFw.setFab memberS.fab
theorem met_Handover_message : memberStaged.fab.mstate = 2 ∧ memberStaged.fab.isMaster = false ∧ memberStaged.activateGap = 0 ∧
    memberStaged.fw.state = 5 ∧ memberStaged.fab.master = 1 ∧ (∀ n ∈ memberStaged.upSlices, memberStaged.restarting n = false) := by decide +kernel
def actS : State := bgOn .mctp 0xC059 [] (fwS (fun f => { f with actAll := some { via := .mctp, left := [7], waiting := some (3, 0) } }) allS)
theorem met_Handover_activated : (actS.iface .mctp).bg.map (·.opcode) = some 0xC059 := by decide +kernel
def hov (ph : Nat) (done : List Nat := []) : Handover := { via := some .mctp, unit := 7, phase := ph, doneUnits := done }
def heldCmd : Instr := .identify .mctp
def hovS (h : Handover) (s : State := stFw) : State :=
  bgOn .mctp 0xC059 [] ((fwS (fun f => { f with handover := some h, state := 6, buffered := [(1, 0x11, [1])] }) s).setMbx { s.mbx with held := [heldCmd] })
theorem met_Handover_units : (hovS (hov 0)).fw.handover = some (hov 0) ∧ (hov 0).back = false ∧ (hov 0).unit ∉ (hov 0).doneUnits ∧
    (hovS (hov 0)).cfg.slices = 8 ∧ (hovS (hov 0)).fw.levels.length = 8 ∧ (∀ n ∈ (hovS (hov 0)).upSlices, (hovS (hov 0)).restarting n = false) := by
  decide +kernel
def pm4 : State := { stFw with cfg := { stFw.cfg with slices := 4 }, rst := { stFw.rst with inService := [0, 1, 2, 3] } }
theorem met_Handover_next : ((hovS { hov 0 [3] with unit := 3 } pm4).upSlices.filter fun n => !([3] : List Nat).contains n).reverse = 2 :: [1, 0] ∧
    (hovS { hov 0 [3] with unit := 3 } pm4).cfg.slices ≠ 8 := by decide +kernel
theorem met_Handover_complete : ((hovS (hov 0 [7])).iface .mctp).bg.map (·.opcode) = some 0xC059 ∧ (hovS (hov 0 [7])).prewriteFailed = 0 ∧
    (hovS (hov 0 [7])).fw.state = 6 := by decide +kernel
def pendS (d : Nat) : State := fwS fun f => { f with state := 7, base := 7, deadline := some d, running := f.main, journal := { f.journal with mainState := 3 } }
def fallenS : State := fwS fun f => { f with state := 8, base := 8, journal := { f.journal with mainState := 6, active := 1 } }
theorem met_Confirm : Accepted rowConfirm .mctp ([] : Bytes).length (pendS 100) ∧ Accepted rowConfirm .mctp 0 (pendS 0) ∧ Accepted rowConfirm .mctp 0 fallenS ∧
    ((pendS 100).until 100).prewriteFailed = 0 ∧ (pendS 100).tbc < 100 ∧ (pendS 0).fw.deadline = some 0 := by decide +kernel
theorem met_Handover_expired : (pendS 5).fw.state = 7 ∧ (fwS (fun f => { f with deadline := none }) (pendS 5)).fw.deadline = none := by decide +kernel

/-! ## Trust and presence -/

def nonce36 (off : Nat) : Bytes := List.replicate 32 9 ++ le 4 off
def reported : State := up.modIface .mctp fun i => { i with report := some (List.replicate 32 9, [1, 2, 3]) }
theorem met_Identity_report : Accepted rowAttest .mctp (nonce36 0).length up ∧ fld (nonce36 0) 32 4 = 0 ∧ up.fw.identityLost = false ∧ up.fw.rotations ≤ 15 ∧
    up.fw.journal.active < 256 ∧ up.fw.state < 256 ∧ up.fw.running.svn < 65536 ∧ up.fw.svnFloor < 65536 ∧ up.unwrapSlice < 256 ∧
    fld (nonce36 2) 32 4 = 2 ∧ (reported.iface .mctp).report = some (slice (nonce36 2) 0 32, [1, 2, 3]) ∧
    (fwS fun f => { f with identityLost := true }).fw.identityLost = true ∧ Accepted rowAttest .mctp 36 reported := by decide +kernel
theorem met_Identity_rotate : Accepted rowRotate .mctp ([] : Bytes).length (present up) ∧ (present up).bgBusy .mctp 0xC062 [] = false ∧
    (present up).fw.rotations < 15 ∧ 15 ≤ (fwS (fun f => { f with rotations := 15 }) (present up)).fw.rotations ∧
    Accepted rowRotate .mctp 0 (fwS (fun f => { f with rotations := 15 }) (present up)) := by decide +kernel
theorem met_Identity_spdm : up.cfgOpen 0 = true ∧ up.linkOpen 0 = true ∧ up.rst.recovery = false ∧ 0 ≤ (Config.certChain up.fw.rotations).length := by decide +kernel
def sealed : State := fwS (fun f => { f with sealRec := some 5 }) up
theorem met_Identity_debug : Accepted rowDebugUnlock .mctp ([1] : Bytes).length sealed ∧ sealed.fw.sealRec = some 5 ∧ sealed.fw.debugRec = none ∧
    Accepted rowDebugUnlock .mctp 1 (present up) ∧ (present up).fw.sealRec = none := by decide +kernel
theorem met_Identity_sanitize : Accepted rowSanitize .mctp ([1] : Bytes).length (present up) ∧ fld [1] 0 1 = 1 ∧ (present up).bistFull = false ∧
    (present up).bgBusy .mctp 0xC063 [] = false ∧ (present up).pool.extents = [] ∧ (present up).eng.models = [] ∧ (present up).fab.lw = [] ∧
    (present up).fab.pw = [] ∧ (present pool).pool.extents ≠ [] ∧ Accepted rowSanitize .mctp 1 (present pool) := by decide +kernel
theorem met_Identity_sanitized : (bgOn .mctp 0xC063 [] up).bgOf 0xC063 = some .mctp ∧ up.cfg.mctp ≠ 0 ∧ up.rst.mbxReady = true := by decide +kernel

def pressed (done : Bool) : State := up.setMbx { up.mbx with buttonDown := some 0, holdDone := done }
def windowed : State := up.setMbx { up.mbx with windowEnd := some 1000 }
theorem met_Presence_button : up.pwr.state ≠ 0 ∧ up.mbx.buttonDown = none ∧ (pressed false).mbx.buttonDown = some 0 ∧ windowed.mbx.windowEnd = some 1000 ∧
    windowed.mbx.jumper = false ∧ windowed.mbx.sealOpen = false ∧ windowed.fw.sealRec = none := by decide +kernel
theorem met_Presence_seal : up.mbx.sealOpen = false ∧ up.fw.sealRec = none ∧ up.pwr.testing = false ∧ up.pwr.guard = false ∧ up.prewriteFailed = 0 ∧
    (low up).prewriteFailed ≠ 0 ∧ ((fwS fun f => { f with sealRetry := some 7 }).until (7 + 1000 * ms)).prewriteFailed = 0 := by decide +kernel
def sealNow (s : State) : State := s.setMbx { s.mbx with sealOpen := true }
theorem met_Presence_ends : (sealNow up).mbx.sealOpen = true ∧ (sealNow sealed).fw.sealRec.isSome ∧ (present up).mbx.jumper = true := by decide +kernel
theorem met_Presence_required : up.ifaceUp .mctp = true ∧ up.mbxPaused = false ∧ up.accepts 5 .mctp = true ∧ up.presOpen = false := by decide +kernel
def remembered : State := (present up).presEvent 1 3 0
theorem met_Presence_status : Accepted rowPresenceStatus .mctp ([] : Bytes).length remembered ∧ remembered.mbx.history.length ≤ 16 ∧
    (∀ e ∈ remembered.mbx.history, e.event < 256 ∧ e.source < 256) := by decide +kernel

/-! ## Self-test -/

def bistIn (suites mask : Nat) : Bytes := le 2 suites ++ [BitVec.ofNat 8 mask, 0]
theorem met_Bist_start : Accepted rowBistRun .mctp (bistIn 0x42 5).length up ∧ fld (bistIn 0x42 5) 0 2 = 0x42 ∧ fld (bistIn 0x42 5) 2 1 = 5 ∧
    (∀ n, n < 8 → bit 5 n = true → up.up n = true ∧ up.bistBlocked 0x42 n = false) ∧ up.bgBusy .mctp 0xC050 [] = false ∧ up.bst.runs = [] := by
  decide +kernel
def opened (s : State := pool) : State := s.setEng { s.eng with seqs := [(0, { tenant := 3, handle := 0 })] }
theorem met_Bist_busy : Accepted rowBistRun .mctp (bistIn 1 1).length (opened) ∧ bit 1 0 = true ∧ (opened).hosted 0 ≠ [] ∧ (opened).up 0 = true ∧
    fld (bistIn 1 1) 0 2 = 1 ∧ bit 0x80 7 = true ∧ (opened).pool.extents ≠ [] := by decide +kernel
def bistRun0 (suites k : Nat) (mask : Nat := 4) : BistRun := { num := 9, suites := suites, mask := mask, stopOnFail := false, via := .mctp, res := [(2, { cur := k })] }
def bistS (suites k : Nat) : State := bgOn .mctp 0xC050 [] (up.setBst { up.bst with runs := [bistRun0 suites k], nextRun := 10 })
def spareS (suites k : Nat) : State := (bistS suites k).modChan (bistCtl 2 3) fun x => { x with override := some 5 }
theorem met_Bist_suite : (bistS 2 1).bistRun = some (bistRun0 2 1) ∧ ((bistRun0 2 1).of 2).cur = 1 ∧ ((bistRun0 2 1).of 2).fatal = 0 ∧
    (bistRun0 2 1).mask = 2 ^ 2 ∧ (bistRun0 2 1).suites = 2 ^ 1 ∧ ((bistS 2 1).iface .mctp).bg.map (·.opcode) = some 0xC050 := by decide +kernel
theorem met_Bist_fail : (bistS 9 0).bistRun = some (bistRun0 9 0) ∧ bit (bistRun0 9 0).todo 3 = true ∧ bit ((bistRun0 9 0).of 2).ended 3 = false ∧
    ((bistRun0 9 0).of 2).first = 0 ∧ bit (bistRun0 9 0).mask 2 = true ∧ (spareS 0x41 6).chanState (bistCtl 2 3) = 5 ∧
    (spareS 0x41 6).bistRun = some (bistRun0 0x41 6) ∧ bit (bistRun0 0x41 6).todo 0 = true := by decide +kernel
theorem met_Bist_result : Accepted rowBistResult .mctp (le 2 9).length (bistS 2 1) ∧
    (bistS 2 1).bst.runs.find? (fun x => x.num == fld (le 2 9) 0 2) = some (bistRun0 2 1) ∧
    (∀ r ∈ (bistS 2 1).bst.runs, r.num ≠ fld (le 2 8) 0 2) := by decide +kernel

/-! ## Resets -/

def boot0 : BootEnv := { failedSlices := 2, hpRef := 1, tpRef := false, ppRef := 0, trays := [], train := [(t1c, [run1])], badClusters := [1], badBanks := [],
                         loaderOk := true, bootMs := 300 }
def badBoot : BootEnv := { boot0 with loaderOk := false }
theorem met_Reset_module : (bestConf up.fw.configs).isSome ∧ up.fw.journal.active = 0 ∧ up.fw.journal.mainState = 4 ∧ up.fw.main.ok = true ∧
    up.fw.main.digest = up.fw.journal.mainDigest ∧ up.fw.configs = [{}] ∧ (0 < up.cfg.slices ∧ bit boot0.failedSlices 0 = false) ∧
    (∀ x ∈ boot0.train, (x.2.map (trainLane x.1.tier)).all lanePass = true) ∧ badBoot.loaderOk = false ∧ (up.setPwr { up.pwr with state := 1 }).pwr.state = 1 := by decide +kernel
theorem met_Reset_recovery : Accepted rowRecoveryEnter .mctp ([1] : Bytes).length (present up) ∧ fld [1] 0 1 = 1 ∧ (present up).pwr.state = 2 ∧
    fld [2] 0 1 ≠ 1 := by decide +kernel
theorem met_Reset_slice : up.up 3 = true ∧ 3 ≠ up.rst.packageMaster ∧ (up.sl 3).state = 1 ∧ up.fw.handover = none ∧ up.bistRun = none ∧
    (up.ck 3).pending = false ∧ ((up.sl 3).history.filter fun t => up.tbc < t + 10000 * ms).length < 2 ∧ up.up up.rst.packageMaster = true := by decide +kernel
def slicedown (n st : Nat) (s : State := up) : State := s.modSl n fun r => { r with state := st, history := [0, 0], fenceAt := 10 }
theorem met_Reset_third : (slicedown 3 1).up 3 = true ∧ 2 ≤ ((slicedown 3 1).sl 3).history.length ∧ (slicedown 3 2).up 3 = true ∧
    ((slicedown 3 2).sl 3).state = 2 ∧ ((slicedown 3 3).sl 3).state = 3 ∧
    2 ≤ (((slicedown 3 1).sl 3).history.filter fun t => (slicedown 3 1).tbc < t + 10000 * ms).length := by decide +kernel
theorem met_Reset_cut : ((slicedown 0 2 (opened)).sl 0).state = 2 ∧ (slicedown 0 2 (opened)).rst.tenants = [] ∧ (slicedown 0 2 (opened)).eng.steps = [] ∧
    hostSlice 0 = 0 ∧ hostSlice 0 ≠ 1 := by decide +kernel
def cutStep : State := slicedown 0 2 ((running).setEng { (running).eng with seqs := [] })
theorem met_Reset_cutStep : cutStep.eng.steps.map (·.2.phase) = [1] ∧ (cutStep.eng.steps.all fun e => cutStep.hasWork e.2 0) = true ∧
    (cutStep.sl 0).state = 2 ∧ cutStep.rst.tenants = [] := by decide +kernel
theorem met_Reset_return : tabGet (0, 0, 0, false) (slicedown 3 3).bst.slices 3 = (0, 0, 0, false) ∧ (slicedown 0 3).rst.packageMaster = 0 := by decide +kernel
theorem met_Reset_tenant : EngineIdle up ∧ up.rst.tenants = [] ∧ ((slicedown 3 2).sl 3).state = 2 ∧ (∀ x ∈ (slicedown 3 2).rst.tenants, x.1 ≠ 7) := by
  refine ⟨⟨rfl, rfl, rfl, rfl, rfl, by decide +kernel⟩, rfl, by decide +kernel, by decide +kernel⟩

/-! ## Clocks and crossings -/

def freqIn (mask st : Nat) : Bytes := [BitVec.ofNat 8 mask, BitVec.ofNat 8 st]
def parkedS : State := up.modSl 2 fun r => { r with parked := true }
theorem met_Clocks_set : Accepted rowFreqSet .mctp (freqIn 4 3).length up ∧ fld (freqIn 4 3) 0 1 = 2 ^ 2 ∧ fld (freqIn 4 3) 1 1 = 3 ∧
    up.bgBusy .mctp 0xC068 [] = false ∧ up.up 2 = true ∧ up.deferral 2 = 0 ∧ (up.ck 2).effStep = 0 ∧ (up.ck 2).thrStep = 0 ∧ (up.sl 2).parked = false ∧
    (parkedS.sl 2).parked = true ∧ Accepted rowFreqSet .mctp 2 parkedS ∧ fld (freqIn 4 5) 1 1 = 5 ∧ 2 < up.cfg.slices ∧
    2 ^ pm4.cfg.slices ≤ fld (freqIn 16 3) 0 1 ∧ Accepted rowFreqSet .mctp (freqIn 16 3).length pm4 := by decide +kernel
def clkS (k : ClkSlice) (s : State := up) : State :=
  bgOn .mctp 0xC068 [] ((s.modCk 2 fun _ => k).setClk { (s.modCk 2 fun _ => k).clk with op := some { via := .mctp, mask := 4 } })
def kPend : ClkSlice := { reqStep := 3, pending := true }
def kLock : ClkSlice := { reqStep := 3, pending := true, relock := true }
def kWait : ClkSlice := { reqStep := 3, priorStep := 1, pending := true, deferCause := 2 }
theorem met_Clocks_change : (clkS kPend).ck 2 = kPend ∧ (clkS kPend).deferral 2 = 0 ∧ (clkS kLock).ck 2 = kLock ∧ kLock.busyGroups = [] ∧
    ((clkS kLock).iface .mctp).bg.map (·.opcode) = some 0xC068 ∧ (clkS kWait).ck 2 = kWait ∧ (clkS kWait).up 2 = true ∧
    (clkS kWait (slicedown 2 4)).up 2 = false ∧ max kWait.reqStep kWait.thrStep ≠ kWait.effStep ∧ (clkS kWait (slicedown 2 4)).ck 2 = kWait := by decide +kernel
def refS (c hp : Nat) (tp : Bool) (h : Option Nat := none) : State := up.setClk { up.clk with coreRef := c, hpRef := hp, tpRef := tp, holdover := h }
theorem met_Clocks_reference : 5 ≤ (refS 0 3 true).rst.phase ∧ (refS 0 3 true).clk.holdover = none ∧ linkFitted (refS 0 3 true).cfg (2 * 0) = true ∧
    ((refS 0 3 true).port 0).perst = false ∧ ((refS 0 3 true).port 0).failed = false ∧ (refS 5 0 false).clk.coreRef = 5 ∧
    (bit (refS 0 2 true (some 0)).clk.hpRef 1 = true ∧ bit 2 0 = false) ∧ (refS 0 0 true (some 0)).clk.tpRef = true ∧
    (refS 0 0 false (some 0)).clk.mgRef = true ∧ EngineIdle (refS 0 3 true) := by decide +kernel
theorem met_Clocks_fault : (up.ck 3).relock = false ∧ (up.sl 3).parked = false ∧ ClkDomain.noc ∈ [ClkDomain.noc, .hbm, .lp, .mgmt] ∧
    0 < peerPorts fabric.cfg ∧ (fabric.peer 0).link = 2 ∧ fabric.up (peerPortSlice fabric.cfg 0) = true ∧ hostPortSlice up.cfg 0 < 8 ∧
    up.up (hostPortSlice up.cfg 0) = true ∧ (up.port (2 * 0)).link = 2 := by decide +kernel
theorem met_Clocks_escalation : up.chanState { slice := 3, tier := 1, unit := 5 } = 2 ∧ (up.ck 3).pending = false := by decide +kernel
def edges (e sp : Nat) : State := up.modSl 3 fun r => { r with edgesUp := e, spareLanes := sp }
theorem met_Clocks_edges : (edges 15 2).up 3 = true ∧ ((edges 15 2).sl 3).spareLanes ≠ 0 ∧ bit ((edges 15 2).sl 3).edgesUp 2 = true ∧
    ((edges 15 2).sl 3).edgesUp ≠ 2 ^ 2 ∧ ((edges 4 0).sl 3).edgesUp = 2 ^ 2 ∧ bit 4 2 = true := by decide +kernel
def farEdge : State := (edges 15 2).modSl 7 fun r => { r with edgesUp := 15 }
theorem met_Clocks_far : edgePeer farEdge.cfg 3 2 = some (7, 3) ∧ farEdge.up 3 = true ∧ farEdge.up 7 = true ∧ bit (farEdge.sl 7).edgesUp 3 = true ∧
    (farEdge.sl 7).edgesUp ≠ 2 ^ 3 := by decide +kernel

/-! ## Power -/

def pwrS (f : Pwr → Pwr) (s : State := up) : State := s.setPwr (f s.pwr)
theorem met_Power_enable : State.reset.pwr.state = 0 := by decide +kernel
def sagging : State := pwrS fun p => { p with belowWarn := some 5, inputMv := 39000 }
def leaving (l : List Nat) : State := pwrS fun p => { p with guard := true, aboveExit := some 5, deferred := l, testAt := some (5 + 10 * ms) }
theorem met_Power_guard : sagging.pwr.belowWarn = some 5 ∧ sagging.pwr.state = 2 ∧ sagging.pwr.guard = false ∧ sagging.pwr.belowReset = none ∧
    (leaving []).pwr.aboveExit = some 5 ∧ (leaving []).pwr.guard = true ∧ (leaving [1]).pwr.deferred = [1] ∧ (leaving [1]).fw.sealRec = none ∧
    1200 ≤ (leaving [1]).pwr.energyMj ∧ 47000 ≤ (leaving [1]).pwr.bankMv ∧ (leaving [1]).pwr.testAt = some (max (leaving [1]).tbc (5 + 10 * ms)) := by
  decide +kernel
def losing : State := pwrS fun p => { p with belowReset := some 7, inputMv := 30000 }
theorem met_Power_loss : losing.pwr.belowReset = some 7 ∧ losing.pwr.inputMv ≤ 80000 ∧ losing.pwr.state = 2 ∧
    (pwrS fun p => { p with state := 1 }).pwr.state = 1 := by decide +kernel
def testing : State := pwrS fun p => { p with testing := true }
theorem met_Power_test : testing.pwr.testing = true ∧ testing.pwr.state = 2 ∧ testing.pwr.guard = false ∧ 1200 ≤ 17600 / 8 * 702 / 1000 ∧
    up.pwr.testAt = some 0 ∧ up.pwr.testing = false := by decide +kernel
theorem met_Power_status : Accepted rowHoldupStatus .mctp ([] : Bytes).length up := by decide +kernel
def hotS (k : ClkSlice) : State := { up.modCk 3 (fun _ => k) with tbc := 200 * ms }
def kHot : ClkSlice := { hotSince := some 0, tripSince := some 0, coolSince := some 0, thrStep := 2 }
theorem met_Power_junction : (hotS kHot).up 3 = true ∧ (hotS kHot).ck 3 = kHot ∧ kHot.memHot = false ∧
    0 + 100 * ms ≤ max (hotS kHot).tbc (kHot.polledAt + 100 * us) := by decide +kernel

/-! ## Registers -/

def fmS (s : State := up) : State := { s with cfg := { s.cfg with fmLinks := 1 } }
def unlocked : State := (fmS).modDrcReg 3 fun d => { d with lock := false }
theorem met_Registers_write : (fmS).regsOpen (.pf0 0) = true ∧ (fmS).rst.recovery = false ∧ bit (fmS).cfg.fmLinks 0 = true ∧ (fmS).up 3 = true ∧
    3 < (fmS).cfg.slices ∧ ((fmS).drcReg 3).lock = true ∧ (unlocked.drcReg 3).lock = false ∧ unlocked.regsOpen (.pf0 0) = true ∧
    ({ up with cfg := { up.cfg with fmLinks := 0 } } : State).regsOpen (.pf0 0) = true := by decide +kernel
theorem met_Registers_vf : vfs.regsOpen (.vf 3) = true ∧ vfs.rst.recovery = false := by decide +kernel
def latched : State := up.modFn (.pf0 0) fun g => { g with latch := some (0x4030C, le 4 77) }
theorem met_Registers_read : up.regsOpen (.pf0 0) = true ∧ (up.fn (.pf0 0)).latch = none ∧ up.linkOpen 0 = true ∧ latched.regsOpen (.pf0 0) = true ∧
    (latched.fn (.pf0 0)).latch = some (0x4030C, le 4 77) ∧ latched.linkOpen 0 = true ∧
    up.configOpen (.pf0 0) = true ∧ up.cfg.slices < 16 ∧ up.cfg.vfBase.getD 0 0 < 1024 ∧ up.cfg.vfCount.getD 0 0 < 2048 ∧ up.rst.recovery = false ∧
    2 ≤ (up.port 0).cxlGen ∧ bit (tabGet ({} : HdmDec) (up.port 0).hdm 3).ctl 10 = false := by decide +kernel

/-! ## The spec's worked examples -/

/-- 02, "The value 300.0 converts to E4M3 under stochastic rounding": codes 0x7A and 0x79. -/
theorem test_stochastic_e4m3 : (convertStoch 4 0xB000 (.fin false 300 0)).1 = 0x7A ∧ (convertStoch 4 0x4000 (.fin false 300 0)).1 = 0x79 := by
  decide +kernel
/-- 02, QUANT to E2M1: 6.85 saturates to 0x7 and sets OVERFLOW, -2.5 ties to 0xC, 0.45 rounds to 0x1. -/
theorem test_e2m1 : convert 7 (.fin false 0x36CCCD (-19)) = (7, fOvf) ∧ convert 7 (.fin true 5 (-1)) = (0xC, 0) ∧
    convert 7 (.fin false 0xE66666 (-25)) = (1, 0) := by decide +kernel
/-- 02, the product of a block-scaled group: 4.0 in BF16 is 0x4080. -/
theorem test_bf16 : convert 1 (.fin false 4 0) = (0x4080, 0) := by decide +kernel
/-- 10, a host read of DPA 0x41_6340_5000 on a PM2-288-1.5T-A0: slice SL1, then unit 20, row 49,710, bank 6. -/
theorem test_mapping : ({ up with cfg := { up.cfg with slices := 2 }, rst := { up.rst with inService := [0, 1] } } : State).sliceOf 0x4163405000 = 1 ∧
    (mapMa { slices := 2 } 1 2 0x1234567800) = (20, 0xC22E4500) ∧ bankRow { slices := 2 } 2 0xC22E4500 = (6, 49710) := by decide +kernel
/-- 05, the sectors of a page at PS2: RAW 17, TANS payloads of 2,500 B and 3,990 B 11 and 17. -/
theorem test_sectors : sectorsFor 2 4096 = 17 ∧ sectorsFor 2 2500 = 11 ∧ sectorsFor 2 3990 = 17 := by decide
/-- 06, the reservation of 256 MiB at RAW 17 sectors: 557,056 sectors at 2.0, 371,371 at 3.0. -/
theorem test_reservation : reservation (2 ^ 28) 4352 2 = 557056 * 256 ∧ reservation (2 ^ 28) 4352 3 = 371371 * 256 := by decide +kernel
/-- 19, SL3 of a PM8-1152-6T-A0: DRC_MAP_CFG reads 0x5400_145D_8F08_081E by halves. -/
theorem test_map_cfg : (registerRead (.pf0 0) 0 0x162000 fmS).out.head? = some (.regData (.pf0 0) 0x162000 0x8F08081E) ∧
    (registerRead (.pf0 0) 0 0x162004 (registerRead (.pf0 0) 0 0x162000 fmS)).out.head? = some (.regData (.pf0 0) 0x162004 0x5400145D) := by
  decide +kernel

/-! ## Ill-formed commands are refused -/

theorem test_wf_good : wellFormed (.hostRead 7 none 4096 []) = true ∧ wellFormed (.perst 3) = true ∧ wellFormed (.peerLinkDown 5) = true ∧
    wellFormed (.controllerFreeze { slice := 7, tier := 2, unit := 23 } 5 none) = true := by decide
theorem test_wf_link : wellFormed (.hostRead 8 none 4096 []) = false ∧ wellFormed (.linkDown 8) = false := by decide
theorem test_wf_line : wellFormed (.rdS 0 none 4100) = false ∧ wellFormed (.hostRead 0 none 1 []) = false := by decide
theorem test_wf_data : wellFormed (.hostWrite 0 none 0 [] 0 false) = false ∧ wellFormed (.wb 0 none 0 (List.replicate 63 0) true) = false ∧
    wellFormed (.clearPoison .mctp 0 []) = false := by decide
theorem test_wf_enables : wellFormed (.hostWrite 0 none 0 (List.replicate 64 0) (2 ^ 64) false) = false := by decide
theorem test_wf_flips : wellFormed (.hostRead 0 none 0 [{ sym := 35, pat := 1 }]) = false := by decide
theorem test_wf_ports : wellFormed (.perst 4) = false ∧ wellFormed (.flitReceive 6 (List.replicate 272 0)) = false ∧
    wellFormed (.flitReceive 0 []) = false := by decide
theorem test_wf_slice : wellFormed (.sliceReset 8 0) = false ∧ wellFormed (.ucieEdgeDown 0 4) = false ∧ wellFormed (.stackFailure 0 3) = false ∧
    wellFormed (.crossingFlush 0 16) = false := by decide
theorem test_wf_controller : wellFormed (.autoRetire { slice := 0, tier := 1, unit := 96 }) = false ∧
    wellFormed (.autoRetire { slice := 0, tier := 2, unit := 24 }) = false ∧ wellFormed (.autoRetire { slice := 0, tier := 3, unit := 0 }) = false ∧
    wellFormed (.controllerFreeze { slice := 0, tier := 1, unit := 0 } 6 none) = false := by decide
theorem test_wf_interface : wellFormed (.identify (.pf0 8)) = false ∧ wellFormed (.fwStatus (.pf1 4) []) = false ∧
    wellFormed (.registerWrite (.vf 1024) 0 0 4 0) = false ∧ wellFormed (.registerWrite (.pf0 0) 0 0 2 0) = false := by decide
theorem test_wf_input (b : Bytes) (h : b.length = 65537) : wellFormed (.fwStatus .mctp b) = false := by simp [wellFormed, okIface, h]
theorem test_wf_numbers : wellFormed (.cursorWrite 256 0) = false ∧ wellFormed (.tenantReset 1024) = false ∧ wellFormed (.heartbeat 256) = false ∧
    wellFormed (.rd { opcode := 1, vc := 0, len := 0, src := 0, dst := 256, tag := 0, hops := 8, gen := 0, ca := 0, cls := 0, status := 0, data := [] }) = false := by
  decide

end Sys2Proof.Tests
end

section
/-! What leaves the directory as it is. A read is answered through the queues of the controllers, the correction of media errors, the
retirement of units and moves of homes; none of them writes an entry, a waiting request or a register of the directory (07 R212-R223). -/
namespace Sys2Proof.Machine
open Sys2Proof

/-! ### Folds -/

/-- A fold of steps that keep a value keeps the value. -/
theorem foldl_keeps {σ β γ : Type} (f : σ → γ) (g : σ → β → σ) (h : ∀ a b, f (g a b) = f a) (l : List β) (a : σ) :
    f (l.foldl g a) = f a := by
  induction l generalizing a with
  | nil => rfl
  | cons b l ih => rw [List.foldl_cons, ih, h]

/-- A fold of operations that leave the directory as it is leaves it as it is. -/
theorem State.foldl_dir {β : Type} (g : State → β → State) (h : ∀ s b, (g s b).dir = s.dir) (l : List β) (s : State) :
    (l.foldl g s).dir = s.dir := foldl_keeps State.dir g h l s

/-! ### Poison, items and the Loupe cache -/

@[simp] theorem State.poisonLine_dir (s : State) (line : Nat) : (s.poisonLine line).dir = s.dir := rfl

@[simp] theorem State.loupeDrop_dir (s : State) (n : Nat) : (s.loupeDrop n).dir = s.dir := by
  unfold State.loupeDrop; dsimp only; split <;> rfl

@[simp] theorem State.modEnt_dir (s : State) (i : Item) (f : Ent → Ent) : (s.modEnt i f).dir = s.dir := by
  cases i with
  | page n => rfl
  | tile h x => unfold State.modEnt; dsimp only; split <;> rfl
  | kv h q l hd b => unfold State.modEnt; dsimp only; split <;> rfl
  | act q n i b => unfold State.modEnt; dsimp only; split <;> rfl
  | mapLine n a l => rfl

@[simp] theorem State.poisonTile_dir (s : State) (h x source : Nat) : (s.poisonTile h x source).dir = s.dir := by
  unfold State.poisonTile
  split
  · rfl
  · split
    · rfl
    · split
      · rfl
      · simp

@[simp] theorem State.poisonItem_dir (s : State) (i : Item) (source : Nat) : (s.poisonItem i source).dir = s.dir := by
  cases i <;> simp [State.poisonItem]

@[simp] theorem State.sampleHeat_dir (s : State) (i : Item) (add : Nat) : (s.sampleHeat i add).dir = s.dir := by
  unfold State.sampleHeat; dsimp only
  split <;> simp

@[simp] theorem State.waitRead_dir (s : State) (r : RReq) : (s.waitRead r).dir = s.dir := rfl

@[simp] theorem State.loupeHit_dir (s : State) (n : Nat) : (s.loupeHit n).dir = s.dir := rfl

@[simp] theorem State.loupeMiss_dir (s : State) (slice n tier cls : Nat) : (s.loupeMiss slice n tier cls).dir = s.dir := by
  unfold State.loupeMiss; dsimp only
  split <;> rfl

/-! ### Responses and the poison count of a link -/

@[simp] theorem State.signalOthers_dir (s : State) (l : Nat) : (s.signalOthers l).dir = s.dir :=
  State.foldl_dir _ (fun s k => State.signal_dir s (.pf0 k) 7) _ s

@[simp] theorem State.freezePort_dir (s : State) (l cause : Nat) : (s.freezePort l cause).dir = s.dir := by
  unfold State.freezePort; dsimp only
  split
  · rfl
  · split <;> simp

@[simp] theorem State.poisonTick_dir (s : State) (l : Nat) : (s.poisonTick l).dir = s.dir := by
  unfold State.poisonTick; split <;> rfl

@[simp] theorem State.poisonEvent_dir (s : State) (l : Nat) : (s.poisonEvent l).dir = s.dir := by
  unfold State.poisonEvent; dsimp only
  split <;> simp

@[simp] theorem State.respondRead_dir (s : State) (r : RReq) (tier : Nat) (data : Option Bytes) :
    (s.respondRead r tier data).dir = s.dir := by
  unfold State.respondRead; dsimp only
  split
  · rfl
  · split <;> simp

@[simp] theorem State.respondWrite_dir (s : State) (link : Nat) (pbr : Option Nat) (host cls dpa tier : Nat) :
    (s.respondWrite link pbr host cls dpa tier).dir = s.dir := State.send_dir s link _

@[simp] theorem State.complete_dir (s : State) (w : WReq) (tier : Nat) : (s.complete w tier).dir = s.dir := by
  unfold State.complete; split <;> simp

/-! ### Bank queues and host accesses -/

@[simp] theorem State.endJob_dir (s : State) (k : Nat) (poison : Bool) : (s.endJob k poison).dir = s.dir := by
  unfold State.endJob
  split
  · rfl
  · dsimp only; split <;> simp

@[simp] theorem State.jobStep_dir (s : State) (k : Option Nat) : (s.jobStep k).dir = s.dir := by
  unfold State.jobStep
  split
  · rfl
  · split
    · rfl
    · split <;> simp

@[simp] theorem State.issue_dir (s : State) (c : Ctl) (cmd bank row : Nat) : (s.issue c cmd bank row).dir = s.dir := rfl

@[simp] theorem State.leaveSelfRefresh_dir (s : State) (c : Ctl) : (s.leaveSelfRefresh c).dir = s.dir := by
  unfold State.leaveSelfRefresh; split <;> rfl

@[simp] theorem State.enter_dir (s : State) (c : Ctl) (e : QEnt) : (s.enter c e).dir = s.dir := by
  unfold State.enter State.intoQueue; dsimp only
  split <;> simp

@[simp] theorem State.enqueue_dir (s : State) (c : Ctl) (e : QEnt) : (s.enqueue c e).dir = s.dir := by
  unfold State.enqueue; dsimp only
  split
  · simp
  · split <;> simp

@[simp] theorem State.queueJob_dir (s : State) (j : Job) (es : List (Ctl × QEnt)) : (s.queueJob j es).dir = s.dir := by
  unfold State.queueJob State.addJob; dsimp only
  split
  · simp
  · rw [State.foldl_dir _ (fun s e => State.enqueue_dir s _ _)]; rfl

@[simp] theorem State.moved_dir (s : State) (slice tier cls bytes : Nat) : (s.moved slice tier cls bytes).dir = s.dir := rfl

@[simp] theorem State.readJob_dir (s : State) (slice : Nat) (h : Home) (off len : Nat) (r : RReq) (data : Option Bytes) :
    (s.readJob slice h off len r data).dir = s.dir := by
  unfold State.readJob; simp

/-! ### Rebuilds, lost stacks and retired units -/

@[simp] theorem State.rescaleTier_dir (s : State) (slice cause tier : Nat) : (s.rescaleTier slice cause tier).dir = s.dir := by
  unfold State.rescaleTier State.scaledRecord; dsimp only
  split <;> simp

@[simp] theorem State.rescale_dir (s : State) (slice cause : Nat) : (s.rescale slice cause).dir = s.dir := by
  unfold State.rescale; split <;> simp

@[simp] theorem State.rescaleParts_dir (s : State) (own : Nat) (r : Rebuild) (cause : Nat) : (s.rescaleParts own r cause).dir = s.dir :=
  State.foldl_dir _ (fun s n => State.rescale_dir s n cause) _ s

@[simp] theorem State.startRebuild_dir (s : State) (slice : Nat) : (s.startRebuild slice).dir = s.dir := by
  unfold State.startRebuild State.signalError
  split
  · rfl
  · dsimp only; split <;> simp

@[simp] theorem State.addRebuild_dir (s : State) (slice : Nat) (r : Rebuild) : (s.addRebuild slice r).dir = s.dir := by
  unfold State.addRebuild; simp

@[simp] theorem State.lentLost_dir (s : State) (slice tier : Nat) (us : List Nat) : (s.lentLost slice tier us).dir = s.dir := rfl

theorem State.poisonLines_dir (l : List Nat) (p : Nat) (s : State) :
    (l.foldl (fun s j => s.poisonLine (64 * p + j)) s).dir = s.dir :=
  State.foldl_dir _ (fun s _ => State.poisonLine_dir s _) l s

@[simp] theorem State.unitsLost_dir (s : State) (slice tier : Nat) (us : List Nat) (source : Nat) :
    (s.unitsLost slice tier us source).1.dir = s.dir := by
  unfold State.unitsLost
  refine (foldl_keeps (fun a : State × Nat => a.1.dir) _ ?_ _ _).trans (State.lentLost_dir s slice tier us)
  rintro ⟨s, n⟩ i
  dsimp only
  split
  · rfl
  · split
    · rfl
    · split
      · rfl
      · split
        · exact State.poisonLines_dir _ _ s
        · exact State.poisonItem_dir s _ source

@[simp] theorem State.loseUnrebuilt_dir (s : State) (group : Nat) : (s.loseUnrebuilt group).dir = s.dir := by
  refine State.foldl_dir _ (fun s o => ?_) _ s
  split
  · rfl
  · simp only [apply_ite State.dir, State.startRebuild_dir, State.rescaleParts_dir, ite_self]
    refine (State.foldl_dir _ (fun s g => ?_) _ _).trans (State.modEccReg_dir s o _)
    split
    · exact State.poisonLines_dir _ _ s
    · exact State.poisonItem_dir s _ 3

@[simp] theorem State.mapStale_dir (s : State) (c : Ctl) (b : Bool) : (s.mapStale c b).dir = s.dir := by
  unfold State.mapStale
  refine State.foldl_dir _ (fun s x => ?_) _ s
  rfl

@[simp] theorem State.mapRewrite_dir (s : State) (c : Ctl) : (s.mapRewrite c).dir = s.dir := by
  unfold State.mapRewrite
  rw [State.mapStale_dir, State.foldl_dir _ (fun s x => State.moved_dir s _ _ _ _)]

@[simp] theorem State.finishAt_dir (s : State) (c : Ctl) : (s.finishAt c).dir = s.dir := by
  unfold State.finishAt; dsimp only
  refine (State.foldl_dir _ (fun s e => ?_) _ _).trans rfl
  split
  · split
    · split <;> simp
    · simp
  · rfl

@[simp] theorem State.failStack_dir (s : State) (slice stack : Nat) : (s.failStack slice stack).dir = s.dir := by
  have stale (l : List Ctl) (s : State) : (l.foldl (fun s c => s.mapStale c true) s).dir = s.dir :=
    State.foldl_dir _ (fun s c => State.mapStale_dir s c true) l s
  have off (l : List Ctl) (s : State) : (l.foldl (fun s c => s.modChan c fun x => { x with override := some 4 }) s).dir = s.dir :=
    State.foldl_dir _ (fun s c => State.modChan_dir s c _) l s
  unfold State.failStack; dsimp only
  split
  · rfl
  · rw [State.foldl_dir _ State.finishAt_dir]
    split
    · simp [stale, off]
    · split <;> simp [stale, off]

@[simp] theorem State.retireCtl_dir (s : State) (c : Ctl) : (s.retireCtl c).1.dir = s.dir := by
  unfold State.retireCtl; dsimp only
  split
  · simp
  · split
    · split
      · split <;> simp
      · simp
    · split
      · split <;> simp
      · simp

@[simp] theorem State.retireUnit_dir (s : State) (slice : Nat) : (s.retireUnit slice).dir = s.dir := by
  unfold State.retireUnit
  split
  · rfl
  · dsimp only; split <;> simp

@[simp] theorem State.addRetired_dir (s : State) (slice tier m : Nat) : (s.addRetired slice tier m).dir = s.dir := by
  simp [State.addRetired]

/-! ### Trips and uncorrectable homes -/

@[simp] theorem State.suspect_dir (s : State) (slice : Nat) (h : Home) : (s.suspect slice h).dir = s.dir := by
  unfold State.suspect; split <;> rfl

@[simp] theorem State.freeHome_dir (s : State) (slice : Nat) (h : Home) (bad : Bool) : (s.freeHome slice h bad).dir = s.dir := by
  unfold State.freeHome; split <;> simp

@[simp] theorem State.tripRecord_dir (s : State) (i : Item) (h : Home) (log code trigger units newMa : Nat) :
    (s.tripRecord i h log code trigger units newMa).dir = s.dir := State.recordLim_dir s _ _ _ _ _

@[simp] theorem State.retireOverlap_dir (s : State) (i : Item) (h : Home) (trigger : Nat) (units : Option (List Nat)) :
    (s.retireOverlap i h trigger units).dir = s.dir := by
  unfold State.retireOverlap; dsimp only
  split
  · rfl
  · split
    · rfl
    · rw [State.foldl_dir _ (fun s m => State.addRetired_dir s _ _ m)]; simp

@[simp] theorem State.condensePage_dir (s : State) (n : Nat) : (s.condensePage n).2.dir = s.dir := by
  simp only [State.condensePage, State.condenseOn, apply_ite Prod.snd, apply_ite State.dir, State.modCnd_dir, ite_self]

@[simp] theorem State.toT2_dir (s : State) (i : Item) (h : Home) : (s.toT2 i h).2.dir = s.dir := by
  unfold State.toT2
  split
  · dsimp only; split <;> simp
  · simp only [apply_ite Prod.snd, ite_self]

@[simp] theorem State.sendMsg_dir (s : State) (m : Msg) : (s.sendMsg m).dir = s.dir := by
  unfold State.sendMsg; dsimp only
  split <;> rfl

@[simp] theorem State.sendReq_dir (s : State) (r : FReq) : (s.sendReq r).dir = s.dir := by
  unfold State.sendReq; dsimp only
  split
  · rfl
  · split <;> simp

@[simp] theorem State.farRead_dir (s : State) (i : Item) (h : Home) : (s.farRead i h).dir = s.dir := by
  unfold State.farRead
  split
  · rfl
  · split
    · exact State.foldl_dir _ (fun s c => State.sendReq_dir s _) _ s
    · split <;> rfl

@[simp] theorem State.farWrite_dir (s : State) (i : Item) (h : Home) : (s.farWrite i h).dir = s.dir := by
  unfold State.farWrite
  split
  · rfl
  · dsimp only
    split
    · exact State.foldl_dir _ (fun s c => State.sendReq_dir s _) _ s
    · rfl

@[simp] theorem State.beginMove_dir (s : State) (i : Item) (d : Home) (kind : Nat) : (s.beginMove i d kind).dir = s.dir := by
  have read (s : State) : (match s.homeOf i with
      | some h => if 2 < h.tier then s.farRead i h else s
      | none => s).dir = s.dir := by
    split
    · split <;> simp
    · rfl
  unfold State.beginMove; dsimp only
  split
  · rw [State.farWrite_dir]; exact read _
  · exact read _

@[simp] theorem State.trip_dir (s : State) (i : Item) (units : List Nat) : (s.trip i units).dir = s.dir := by
  unfold State.trip
  split
  case h_1 e h _ _ =>
    dsimp only
    split
    · rfl
    · rw [State.retireOverlap_dir, State.tripRecord_dir]
      cases s.sameTier (s.itemSlice i) h with
      | some d => simp
      | none =>
        by_cases k : (h.tier != 2 && (s.itemPlace i).1 != 0) = true
        · simp only [k, if_true]
          split <;> simp
        · simp [k]
  case h_2 => rfl

@[simp] theorem State.corrected_dir (s : State) (i : Item) (heavy : Bool) (units : List Nat) :
    (s.corrected i heavy units).dir = s.dir := by
  simp [State.corrected]

@[simp] theorem State.uncorrectable_dir (s : State) (i : Item) (source : Nat) : (s.uncorrectable i source).dir = s.dir := by
  unfold State.uncorrectable
  split
  · rfl
  · dsimp only
    rw [State.retireOverlap_dir]
    split <;> simp

@[simp] theorem State.uncorrectableLine_dir (s : State) (line : Nat) : (s.uncorrectableLine line).dir = s.dir := by
  unfold State.uncorrectableLine; dsimp only
  split <;> simp

/-! ### Reads of blocks and lines -/

@[simp] theorem State.decodeFailed_dir (s : State) (i : Item) (b : Block) (r : DecRes) (source unit wsource : Nat) :
    (s.decodeFailed i b r source unit wsource).dir = s.dir := by
  cases r <;> simp [State.decodeFailed]

@[simp] theorem State.decodeItem_dir (s : State) (i : Item) (b : Block) (source unit wsource : Nat) :
    (s.decodeItem i b source unit wsource).2.dir = s.dir := by
  unfold State.decodeItem; split <;> simp

@[simp] theorem State.blockRead_dir (s : State) (i : Item) (h : Home) (b : Block) (bs : List Nat) (wsource : Nat) :
    (s.blockRead i h b bs wsource).2.dir = s.dir := by
  unfold State.blockRead; dsimp only
  split
  · rfl
  · split
    · simp
    · split <;> simp

@[simp] theorem State.readItem_dir (s : State) (i : Item) (h : Home) (b : Block) (bs : List Nat) (source unit wsource : Nat) :
    (s.readItem i h b bs source unit wsource).2.dir = s.dir := by
  have read := State.blockRead_dir s i h b bs wsource
  unfold State.readItem
  split
  · next t e => rwa [e] at read
  · next n t e => rw [State.decodeItem_dir]; rwa [e] at read

theorem State.dir_of_readItem {s t : State} {i : Item} {h : Home} {b : Block} {bs : List Nat} {source unit wsource : Nat} {o : Option Bytes}
    (e : s.readItem i h b bs source unit wsource = (o, t)) : t.dir = s.dir := by
  rw [← State.readItem_dir s i h b bs source unit wsource, e]

@[simp] theorem State.readT1_dir (s : State) (r : RReq) (h : Home) (flips : List Flip) : (s.readT1 r h flips).dir = s.dir := by
  unfold State.readT1; dsimp only
  split
  · split <;> simp
  · split
    · simp
    · split <;> simp

@[simp] theorem State.readBlock_dir (s : State) (r : RReq) (h : Home) (flips : List Flip) : (s.readBlock r h flips).dir = s.dir := by
  unfold State.readBlock; dsimp only
  split
  · simp
  · split
    · split
      · split <;> simp
      · split
        · simp
        next b _ =>
          split
          · next _ t e => rw [State.readJob_dir, State.dir_of_readItem e, State.loupeMiss_dir]
          · next t e => rw [State.readJob_dir, State.dir_of_readItem e, State.loupeMiss_dir]
    · split <;> simp

/-- A read at the home leaves the directory as it is. -/
@[simp] theorem State.readAt_dir (s : State) (r : RReq) (flips : List Flip) : (s.readAt r flips).dir = s.dir := by
  unfold State.readAt; dsimp only
  split
  · simp
  · split
    · simp
    · split
      · simp
      · split
        · simp
        · split <;> simp

@[simp] theorem State.serveRead_dir (s : State) (r : RReq) (flips : List Flip) : (s.serveRead r flips).dir = s.dir := by
  unfold State.serveRead; split <;> simp

@[simp] theorem State.dirRead_dir (s : State) (q : DReq) (grant : Nat) : (s.dirRead q grant).dir = s.dir :=
  State.serveRead_dir s _ _

end Sys2Proof.Machine
end

section
/-! The directory's own operations (07 R212-R225): what an entry reads after a change, requests that nothing holds up, the end of a
recall, and what a command on the directory is. -/
namespace Sys2Proof.Machine
open Sys2Proof Sys2Proof.Claims

/-! ### Commands -/

theorem exec_birsp (h dpa : Nat) (invalid : Bool) (s : State) : exec (.birsp h dpa invalid) s = .next (birsp h (dpa / 64) invalid s) := rfl

theorem exec_recallTimeout (dpa : Nat) (s : State) : exec (.recallTimeout dpa) s = .next (recallTimeout (dpa / 64) s) := rfl

theorem exec_wb (link : Nat) (pbr : Option Nat) (dpa : Nat) (data : Bytes) (keep : Bool) (s : State) :
    exec (.wb link pbr dpa data keep) s = .next (wbRequest (.wb link pbr dpa data keep) link pbr dpa data keep s) := rfl

theorem exec_hostLostLost (via : Iface) (inp : Bytes) (s : State) : exec (.hostLostLost via inp) s =
    .next (mbxCall rowHostLost (.hostLostLost via inp) via inp.length s (hostLostCmd inp)) := rfl

theorem exec_hostLostReinstate (via : Iface) (inp : Bytes) (s : State) : exec (.hostLostReinstate via inp) s =
    .next (mbxCall rowHostLost (.hostLostReinstate via inp) via inp.length s (hostLostCmd inp)) := rfl

theorem exec_hostLostDone (s : State) : exec .hostLostDone s = .next (hostLostDone s) := rfl

/-! ### Poison of a line -/

theorem bit_eq_testBit (v k : Nat) : bit v k = v.testBit k := by
  rw [bit, Nat.testBit_eq_decide_div_mod_eq, Nat.shiftRight_eq_div_pow]; rfl

/-- A mask with a bit set has it set. -/
theorem bit_maskBit_same (m : BitVec 64) (k : Nat) (h : k < 64) : bit (maskBit m k true).toNat k = true := by
  by_cases b : bit m.toNat k = true
  · simp [maskBit, setBit, b]
  · have clear : m.toNat.testBit k = false := by simpa [bit_eq_testBit] using b
    have sum : (m.toNat + 2 ^ k).testBit k = true := by rw [Nat.add_comm, Nat.testBit_two_pow_add_eq, clear]; rfl
    have mask : (maskBit m k true).toNat = (m.toNat + 2 ^ k) % 2 ^ 64 := by simp [maskBit, setBit, b]
    rw [bit_eq_testBit, mask, Nat.testBit_mod_two_pow, sum]
    simp [h]

/-- A line that is poisoned is poison. -/
@[simp] theorem State.linePoison_poisonLine (s : State) (line : Nat) : (s.poisonLine line).linePoison line = true := by
  have page : (s.poisonLine line).page (line / 64) =
      { s.page (line / 64) with poison := maskBit (s.page (line / 64)).poison (line % 64) true } :=
    State.page_modPage s (line / 64) fun p => { p with poison := maskBit p.poison (line % 64) true }
  rw [State.linePoison, page]
  exact bit_maskBit_same _ _ (Nat.mod_lt _ (by decide))

/-- Poison is read from the pages alone. -/
theorem State.linePoison_congr {s t : State} (h : t.pool.pages = s.pool.pages) (line : Nat) : t.linePoison line = s.linePoison line := by
  simp [State.linePoison, State.page, h]

theorem State.loupeDrop_frame (s : State) (n : Nat) : s.loupeDrop n = { s with pool := (s.loupeDrop n).pool } := by
  unfold State.loupeDrop; dsimp only; split <;> rfl

@[simp] theorem State.loupeDrop_pages (s : State) (n : Nat) : (s.loupeDrop n).pool.pages = s.pool.pages := by
  unfold State.loupeDrop; dsimp only; split <;> rfl

/-! ### Entries -/

@[simp] theorem State.dent_keepDent_same (s : State) (line : Nat) (e : DEnt) : (s.keepDent line e).dent line = some e :=
  tabFind_tabSet_same s.dir.ents line e

@[simp] theorem State.keepDent_dirReg (s : State) (line : Nat) (e : DEnt) (n : Nat) : (s.keepDent line e).dirReg n = s.dirReg n := rfl

theorem State.dent_congr {s t : State} (h : t.dir = s.dir) (line : Nat) : t.dent line = s.dent line := by simp [State.dent, h]

theorem State.dirReg_congr {s t : State} (h : t.dir = s.dir) (n : Nat) : t.dirReg n = s.dirReg n := by simp [State.dirReg, h]

/-- Where no request waits, none goes on. -/
theorem State.dirNext_of_waiting_nil {s : State} (h : s.dir.waiting = []) (line : Nat) : s.dirNext line = s := by
  simp [State.dirNext, State.dirPump, h]

/-! ### Recalls -/

/-- The end of a recall of an owned line for a RD_S: the reader shares the line with the former owner, unless that kept no copy (R215). -/
theorem State.recallEnd_rdS {s : State} {line : Nat} {e : DEnt} {q : DReq} (d : s.dent line = some e) (prior : e.prior = 2)
    (cause : e.cause = 0) (req : e.req = some q) (served : s.dir.fenced.contains q.host = false) (cls : q.cls = 0)
    (idle : s.dir.waiting = []) :
    s.recallEnd line false = ((s.delDent line).setDent line
      { state := 1, sharers := if e.gotI then [q.host] else [e.owner, q.host].eraseDups }).dirRead q 1 := by
  have keep : (s.delDent line).dir.fenced.contains q.host = false := served
  simp only [State.recallEnd, d, req, Bool.false_eq_true, if_false, keep, cause, prior, cls, Nat.reduceEqDiff]
  exact State.dirNext_of_waiting_nil (by rw [State.dirRead_dir]; exact idle) line

/-- A recall that no request waits for and whose owner never answered leaves the entry in ORPHAN (R220). -/
theorem State.recallEnd_orphan {s : State} {line : Nat} {e : DEnt} (d : s.dent line = some e) (req : e.req = none)
    (idle : s.dir.waiting = []) :
    s.recallEnd line true = s.keepDent line { state := 4, owner := e.owner, age := e.age } := by
  simp only [State.recallEnd, d, req, if_true]
  exact State.dirNext_of_waiting_nil (s := s.keepDent line _) idle line

/-- The answer of the last target ends the recall. -/
theorem birsp_last {s : State} {h line : Nat} {e : DEnt} (d : s.dent line = some e) (state : e.state = 3) (targets : e.targets = [h])
    (invalid : Bool) :
    birsp h line invalid s = (s.keepDent line { e with targets := [], gotI := e.gotI || invalid }).recallEnd line false := by
  simp [birsp, d, state, targets]

/-- An answer that no recall waits for is counted and changes nothing else (R221). -/
theorem birsp_late {s : State} {h line : Nat}
    (late : ∀ e, s.dent line = some e → e.state ≠ 3 ∨ e.targets.contains h = false) (invalid : Bool) :
    birsp h line invalid s = s.modDirReg (s.sliceOf (line * 64)) fun d => { d with lateBirsp := d.lateBirsp + 1 } := by
  unfold birsp
  cases d : s.dent line with
  | none => rfl
  | some e =>
    have unasked : (e.state != 3 || !e.targets.contains h) = true := by simpa using late e d
    simp only [unasked, if_true]

/-- The time limit of a recall of one host moves the time base to its end and drops that host (R220). -/
theorem recallTimeout_one {s : State} {h line : Nat} {e : DEnt} (d : s.dent line = some e) (state : e.state = 3) (targets : e.targets = [h]) :
    recallTimeout line s = (s.until (e.issued + e.limitMs * ms)).recallDrop line h := by
  simp [recallTimeout, d, state, targets]

/-- The state in which the answer of a recalled owner is given up: counted, the line poison, its Loupe copy dropped, recorded. -/
def State.ownerGivenUp (s : State) (line h : Nat) (e : DEnt) : State :=
  (((s.modDirReg (s.sliceOf (line * 64)) fun d => { d with timeouts := d.timeouts + 1 }).poisonLine line).loupeDrop (line / 64)).timeoutRecord
    line e h true

theorem State.recallDrop_owner {s : State} {h line : Nat} {e : DEnt} (d : s.dent line = some e) (state : e.state = 3)
    (target : e.targets.contains h = true) (prior : e.prior = 2) :
    s.recallDrop line h = (s.ownerGivenUp line h e).recallEnd line (e.cause != 2) := by
  simp only [State.recallDrop, d, state, target, prior, State.ownerGivenUp]
  rfl

theorem State.timeoutRecord_frame (s : State) (line : Nat) (e : DEnt) (h : Nat) (p : Bool) :
    s.timeoutRecord line e h p = { s with fns := (s.timeoutRecord line e h p).fns, mbx := (s.timeoutRecord line e h p).mbx,
                                          fw := (s.timeoutRecord line e h p).fw, out := (s.timeoutRecord line e h p).out } :=
  State.recordLim_frame s _ _ _ _ _

@[simp] theorem State.ownerGivenUp_dir (s : State) (line h : Nat) (e : DEnt) : (s.ownerGivenUp line h e).dir =
    (s.modDirReg (s.sliceOf (line * 64)) fun d => { d with timeouts := d.timeouts + 1 }).dir := by
  rw [State.ownerGivenUp, State.timeoutRecord_frame, State.loupeDrop_frame]; rfl

@[simp] theorem State.ownerGivenUp_tbc (s : State) (line h : Nat) (e : DEnt) : (s.ownerGivenUp line h e).tbc = s.tbc := by
  rw [State.ownerGivenUp, State.timeoutRecord_frame, State.loupeDrop_frame]; rfl

@[simp] theorem State.ownerGivenUp_linePoison (s : State) (line h : Nat) (e : DEnt) :
    (s.ownerGivenUp line h e).linePoison line = true := by
  have pages : (s.ownerGivenUp line h e).pool.pages =
      ((s.modDirReg (s.sliceOf (line * 64)) fun d => { d with timeouts := d.timeouts + 1 }).poisonLine line).pool.pages := by
    rw [State.ownerGivenUp, State.timeoutRecord_frame]; exact State.loupeDrop_pages _ _
  rw [State.linePoison_congr pages, State.linePoison_poisonLine]

/-! ### Requests that arrive -/

theorem State.extentOf_of_reach {s : State} {link h dpa b : Nat} {x : Extent} (r : s.reach link h dpa = some (b, x)) :
    s.extentOf dpa = some (b, x) := by
  unfold State.reach at r
  cases e : s.extentOf dpa with
  | none => simp [e] at r
  | some p =>
    simp only [e] at r
    exact (Option.ite_none_right_eq_some.1 r).2

theorem linkOpen_of_reaches {link : Nat} {pbr : Option Nat} {dpa h : Nat} {r : HostRec} {b : Nat} {x : Extent} {s : State}
    (a : Reaches link pbr dpa h r b x s) : s.linkOpen link = true := by
  obtain ⟨-, up, -, thawed, -⟩ := a
  simp [State.linkOpen, up, thawed]

/-- A request without poison of a host without a rate limit is taken as the host's at once (09 R279, R291). -/
theorem intake_of_reaches {link : Nat} {pbr : Option Nat} {dpa h : Nat} {r : HostRec} {b : Nat} {x : Extent} {s : State}
    (a : Reaches link pbr dpa h r b x s) (i : Instr) : intake i link pbr false s = .host s h r.cls := by
  obtain ⟨fitted, up, gen, thawed, id, rec_, limit, granted, -⟩ := a
  simp [intake, fitted, up, gen, thawed, id, rec_, limit, granted]

/-- The write that a write-back is at the directory. -/
def wbReq (link : Nat) (pbr : Option Nat) (dpa h : Nat) (r : HostRec) (data : Bytes) (s : State) : DReq :=
  { cls := 3, link := some link, pbr := pbr, host := h, line := dpa / 64, data := data, be := fullBe, poison := false,
    arrival := s.tbc, qcls := r.cls }

/-- A write-back of a line of a SHARED_COHERENT extent goes to the directory. -/
theorem wbRequest_of_reachesShared {link : Nat} {pbr : Option Nat} {dpa h : Nat} {r : HostRec} {b : Nat} {x : Extent} {s : State}
    (a : ReachesShared link pbr dpa h r b x s) (i : Instr) (data : Bytes) (keep : Bool) :
    wbRequest i link pbr dpa data keep s = s.cohWrite keep (wbReq link pbr dpa h r data s) := by
  obtain ⟨reaches, shared, free, -⟩ := a
  have taken := intake_of_reaches reaches i
  obtain ⟨-, -, -, -, -, -, -, -, reach, -⟩ := reaches
  simp only [wbRequest, writeTake, taken, reach, shared, free]
  rfl

end Sys2Proof.Machine
end

section
/-! The end of recalls (07 R216, R220, R221). -/
namespace Sys2Proof.Machine
open Sys2Proof Sys2Proof.Claims

/-- The last answer to the recall of an owned line serves the waiting RD_S. -/
theorem birsp_serves_rdS {h line : Nat} {e : DEnt} {q : DReq} {s : State} (d : s.dent line = some e) (state : e.state = 3)
    (prior : e.prior = 2) (targets : e.targets = [h]) (owner : e.owner = h) (cause : e.cause = 0) (kept : e.gotI = false)
    (req : e.req = some q) (served : s.dir.fenced.contains q.host = false) (cls : q.cls = 0) (other : q.host ≠ h)
    (idle : s.dir.waiting = []) :
    birsp h line false s = (((s.keepDent line { e with targets := [] }).delDent line).setDent line
      { state := 1, sharers := [h, q.host] }).dirRead q 1 := by
  have answered : { e with targets := [], gotI := e.gotI || false } = { e with targets := [] } := by rw [Bool.or_false]
  have sharers : [h, q.host].eraseDups = [h, q.host] := by simp [List.eraseDups_cons, other]
  rw [birsp_last d state targets, answered,
    State.recallEnd_rdS (e := { e with targets := [] }) (State.dent_keepDent_same s line _) prior cause req served cls idle]
  simp only [kept, owner, sharers, Bool.false_eq_true, if_false]

/-- A recall that no request waits for and that its owner does not answer ends in ORPHAN at its time limit, the line poison. -/
theorem recallTimeout_orphans_owner {h line : Nat} {e : DEnt} {s : State} (d : s.dent line = some e) (state : e.state = 3)
    (prior : e.prior = 2) (targets : e.targets = [h]) (cause : e.cause = 0) (req : e.req = none) (idle : s.dir.waiting = []) :
    recallTimeout line s = ((s.until (e.issued + e.limitMs * ms)).ownerGivenUp line h e).keepDent line
      { state := 4, owner := e.owner, age := e.age } := by
  have target : e.targets.contains h = true := by simp [targets]
  have entry : ((s.until (e.issued + e.limitMs * ms)).ownerGivenUp line h e).dent line = some e :=
    (State.dent_congr (State.ownerGivenUp_dir _ line h e) line).trans d
  rw [recallTimeout_one d state targets, State.recallDrop_owner (s := s.until _) d state target prior, cause]
  exact State.recallEnd_orphan entry req (by rw [State.ownerGivenUp_dir]; exact idle)

/-- The write-back of a former owner of a line in ORPHAN completes, its data discarded, and is counted (R221). -/
theorem cohWrite_of_orphan {q : DReq} {l b : Nat} {x : Extent} {e : DEnt} {s : State} (served : s.dir.fenced.contains q.host = false)
    (extent : s.extentOf (q.line * 64) = some (b, x)) (shared : x.policy.sharing = 1) (cls : q.cls = 3) (link : q.link = some l)
    (open_ : s.linkOpen l = true) (alone : s.lineServing q.line = false) (first : (s.dir.waiting.any fun x => x.line == q.line) = false)
    (d : s.dent q.line = some e) (state : e.state = 4) (owner : e.owner = q.host) (keep : Bool) :
    ∃ dl, s.cohWrite keep q = (s.modDirReg (s.sliceOf (q.line * 64)) fun d => { d with orphanWb := d.orphanWb + 1 }).emit
      (.completion l q.pbr (q.line * 64) dl) := by
  have coherent : s.coherent q.line = true := by simp [State.coherent, extent, shared]
  have serve : s.dirServe q =
      (s.modDirReg (s.sliceOf (q.line * 64)) fun d => { d with orphanWb := d.orphanWb + 1 }).complete (wreqOf q) 1 := by
    have free : q.host ∉ s.dir.fenced := by simpa using served
    simp [State.dirServe, free, coherent, cls, d, state, owner]
  have through : s.cohWrite keep q = s.dirServe q := by
    simp [State.cohWrite, State.dirRequest, d, state, alone, first]
  have completes (t : State) : t.complete (wreqOf q) 1 = t.respondWrite l q.pbr q.host q.qcls (q.line * 64) 1 := by
    simp only [State.complete, wreqOf, link]
  rw [through, serve, completes]
  exact ⟨_, State.send_open _ l _ open_⟩

end Sys2Proof.Machine

namespace Sys2Proof.Proofs
open Sys2Proof Sys2Proof.Machine Sys2Proof.Claims

/-- Settles O18: each clause is one outcome of `birsp`, `recallTimeout` or `cohWrite`; a read leaves the directory as it is, so no
waiting request goes on after it. -/
theorem recallsEndByAnswerOrTimeout : Obligations.RecallsEndByAnswerOrTimeout := by
  unfold Obligations.RecallsEndByAnswerOrTimeout
  refine ⟨?answer, ?late, ?timeout, ?orphan⟩
  case answer =>
    intro h dpa e q s d state prior targets owner cause kept req served cls _ other idle
    exact ⟨_, exec_birsp h dpa false s, birsp_serves_rdS d state prior targets owner cause kept req served cls other idle⟩
  case late =>
    intro h dpa invalid s late
    refine ⟨_, exec_birsp h dpa invalid s, ?_⟩
    rw [birsp_late late]
    exact ⟨by rw [State.dirReg_modDirReg], rfl⟩
  case timeout =>
    intro h dpa e s d state prior targets owner cause req idle
    refine ⟨_, exec_recallTimeout dpa s, ?_⟩
    rw [recallTimeout_orphans_owner d state prior targets cause req idle, owner]
    refine ⟨State.ownerGivenUp_linePoison _ _ h e, State.dent_keepDent_same _ _ _, ?_, State.ownerGivenUp_tbc _ _ h e⟩
    rw [State.keepDent_dirReg, State.dirReg_congr (State.ownerGivenUp_dir _ _ h e)]
    exact congrArg DirSlice.timeouts (State.dirReg_modDirReg (s.until _) _ _)
  case orphan =>
    intro link pbr dpa h r b x e data keep s reaches d state owner
    have here : dpa / 64 * 64 = dpa := by
      obtain ⟨⟨-, -, -, -, -, -, -, -, -, aligned⟩, -⟩ := reaches
      omega
    refine ⟨_, exec_wb link pbr dpa data keep s, ?_⟩
    rw [wbRequest_of_reachesShared reaches]
    obtain ⟨into, shared, served, -, alone, first, -⟩ := reaches
    have open_ := linkOpen_of_reaches into
    obtain ⟨-, -, -, -, -, -, -, -, reach, -⟩ := into
    obtain ⟨dl, write⟩ := cohWrite_of_orphan (q := wbReq link pbr dpa h r data s) served
      ((congrArg s.extentOf here).trans (State.extentOf_of_reach reach)) shared rfl rfl open_ alone first d state owner keep
    rw [write]
    refine ⟨congrArg DirSlice.orphanWb (State.dirReg_modDirReg s _ _), ⟨dl, ?_⟩, rfl⟩
    show Out.completion link pbr (dpa / 64 * 64) dl :: s.out = _
    rw [here]

end Sys2Proof.Proofs
end

section
/-! Lost hosts (07 R225-R228): the fence, the sweep and its end, and what HOST_LOST answers. -/
namespace Sys2Proof.Machine
open Sys2Proof Sys2Proof.Claims

/-! ### A response on its interface -/

theorem State.respond_mbx (s : State) (v : Iface) (op : Nat) (r : Ret) (p : Bytes) :
    (s.respond v op r p).mbx = (s.modIface v fun i => { i with ret := r, opcode := op, payload := p }).mbx := by
  rw [State.respond, State.signalMbx_mbx]; rfl

@[simp] theorem State.iface_modIface (s : State) (v : Iface) (f : IfaceSt → IfaceSt) : (s.modIface v f).iface v = f (s.iface v) :=
  tabGet_tabMod_same ({} : IfaceSt) s.mbx.iface (ifaceKey v) f

/-- A response sets the return code, opcode and payload of its interface and keeps its background operation. -/
theorem State.iface_respond (s : State) (v : Iface) (op : Nat) (r : Ret) (p : Bytes) :
    (s.respond v op r p).iface v = { s.iface v with ret := r, opcode := op, payload := p } := by
  rw [State.iface, State.respond_mbx]
  exact State.iface_modIface s v fun i => { i with ret := r, opcode := op, payload := p }

/-! ### A host without recalls, publishes and waiting requests -/

/-- Where no element has a property, those without it are all. -/
theorem filter_ne_eq_self {α : Type} {f : α → Nat} {h : Nat} {l : List α} (none : (l.filter fun x => f x == h) = []) :
    (l.filter fun x => f x != h) = l := by
  simpa [List.filter_eq_nil_iff, List.filter_eq_self] using none

theorem State.fenceWaiting_of_none {s : State} {h : Nat} (none : (s.dir.waiting.filter fun q => q.host == h) = []) :
    s.fenceWaiting h = s := by
  rw [State.fenceWaiting, none, filter_ne_eq_self none]; rfl

theorem State.endRecalls_of_none {s : State} {h : Nat}
    (none : (s.dir.ents.filter fun e => e.2.state == 3 && e.2.targets.contains h) = []) : s.endRecalls h = (0, s) := by
  rw [State.endRecalls, none]; rfl

theorem State.dropPublishes_of_none {s : State} {h : Nat} (none : (s.dir.publishes.filter fun p => p.host == h) = []) :
    s.dropPublishes h = s := by
  rw [State.dropPublishes, none, filter_ne_eq_self none]; rfl

/-! ### The effect of HOST_LOST -/

/-- The fence of a host. -/
abbrev State.fenceHost (s : State) (h : Nat) : State :=
  s.setDir { s.dir with fenced := if s.dir.fenced.contains h then s.dir.fenced else s.dir.fenced ++ [h] }

theorem State.fenceHost_fenced (s : State) (h : Nat) : (s.fenceHost h).dir.fenced.contains h = true := by
  rw [State.setDir_dir]; dsimp only
  split
  · assumption
  · simp

/-- The fence of a host and the start of its sweep, with no recall of the host to end. -/
def State.fenceAndSweep (s : State) (h : Nat) : State :=
  (s.fenceHost h).setDir { (s.fenceHost h).dir with sweep := some { host := h, started := s.tbc, recallsEnded := 0 } }

theorem hostLostCmd_lost {inp : Bytes} {s : State} (host : fld inp 0 2 < 1024) (action : fld inp 2 1 = 0) (sweep : s.dir.sweep = none)
    (recalls : (s.dir.ents.filter fun e => e.2.state == 3 && e.2.targets.contains (fld inp 0 2)) = [])
    (publishes : (s.dir.publishes.filter fun p => p.host == fld inp 0 2) = [])
    (waiting : (s.dir.waiting.filter fun q => q.host == fld inp 0 2) = []) :
    hostLostCmd inp s = started (s.fenceAndSweep (fld inp 0 2)) [fld inp 0 2] := by
  have inRange : (decide (1024 ≤ fld inp 0 2) || decide (1 < 0)) = false := by simpa using host
  have idle : s.dir.sweep.isSome = false := by rw [sweep]; rfl
  unfold hostLostCmd
  simp only [action, inRange, idle, Bool.false_eq_true, if_true, if_false]
  rw [State.fenceWaiting_of_none (s := s.fenceHost _) waiting, State.endRecalls_of_none (s := s.fenceHost _) recalls,
    State.dropPublishes_of_none (s := s.fenceHost _) publishes]
  rfl

theorem hostLostCmd_sweeping {inp : Bytes} {s : State} (host : fld inp 0 2 < 1024) (action : fld inp 2 1 = 0)
    (sweep : s.dir.sweep.isSome = true) : hostLostCmd inp s = fail s .busy := by
  have inRange : ¬ 1024 ≤ fld inp 0 2 := Nat.not_le.2 host
  simp [hostLostCmd, inRange, action, sweep]

theorem hostLostCmd_reinstate {inp : Bytes} {s : State} (host : fld inp 0 2 < 1024) (action : fld inp 2 1 = 1)
    (swept : (s.dir.sweep.any fun w => w.host == fld inp 0 2) = false) :
    hostLostCmd inp s = ok (s.setDir { s.dir with fenced := s.dir.fenced.filter (· != fld inp 0 2) }) := by
  have inRange : ¬ 1024 ≤ fld inp 0 2 := Nat.not_le.2 host
  simp [hostLostCmd, inRange, action, swept]

theorem hostLostCmd_reinstate_swept {inp : Bytes} {s : State} (host : fld inp 0 2 < 1024) (action : fld inp 2 1 = 1)
    (swept : (s.dir.sweep.any fun w => w.host == fld inp 0 2) = true) : hostLostCmd inp s = fail s .invalidInput := by
  have inRange : ¬ 1024 ≤ fld inp 0 2 := Nat.not_le.2 host
  simp [hostLostCmd, inRange, action, swept]

/-- HOST_LOST on an interface that takes it, where its effect answers at once. -/
theorem mbxCall_hostLost {via : Iface} {inp : Bytes} {s : State} (accepted : Accepted rowHostLost via inp.length s) (i : Instr)
    {r : Ret} {t : State} (effect : hostLostCmd inp s = { ret := r, st := t }) (now : r ≠ .backgroundStarted) :
    mbxCall rowHostLost i via inp.length s (hostLostCmd inp) = t.respond via 0xC032 r [] := by
  obtain ⟨up, running, taken⟩ := accepted
  rw [mbxCall_foreground rowHostLost i via inp.length s _ up running taken (by rw [effect]) (by rw [effect]; exact now) rfl, effect]
  rfl

/-- HOST_LOST on an interface that takes it, where its effect starts a background operation and none is in its way. -/
theorem mbxCall_hostLost_starts {via : Iface} {inp : Bytes} {s t : State} {args : List Nat}
    (accepted : Accepted rowHostLost via inp.length s) (i : Instr) (effect : hostLostCmd inp s = started t args)
    (free : s.bgBusy via 0xC032 args = false) :
    mbxCall rowHostLost i via inp.length s (hostLostCmd inp) =
      (t.modIface via fun x => { x with bg := some { opcode := 0xC032, args := args } }).respond via 0xC032 .backgroundStarted [] := by
  obtain ⟨up, running, taken⟩ := accepted
  rw [mbxCall_background rowHostLost i via inp.length s _ up running taken (by rw [effect]; rfl) (by rw [effect]; rfl)
    (by rw [effect]; exact free) rfl, effect]
  rfl

/-! ### The end of a sweep -/

/-- What the end of a sweep does to a line that the lost host owned: its data are lost, and no entry tracks it. -/
def State.ownedLost (s : State) (line : Nat) : State := ((s.poisonLine line).loupeDrop (line / 64)).delDent line

@[simp] theorem State.ownedLost_linePoison (s : State) (line : Nat) : (s.ownedLost line).linePoison line = true :=
  (State.linePoison_congr (s := s.poisonLine line) (State.loupeDrop_pages _ _) line).trans (State.linePoison_poisonLine s line)

theorem State.ownedLost_ents {s : State} {line : Nat} {e : DEnt} (ents : s.dir.ents = [(line, e)]) : (s.ownedLost line).dir.ents = [] := by
  simp [State.ownedLost, State.delDent, ents, tabDel]

/-- The end of a sweep of a host whose entry is the only one and in E: a record tells of it, and the background operation ends (R225). -/
theorem hostLostDone_one_owned {s : State} {w : Sweep} {line : Nat} {e : DEnt} (sweep : s.dir.sweep = some w)
    (ents : s.dir.ents = [(line, e)]) (state : e.state = 2) (owner : e.owner = w.host) :
    ∃ payload, hostLostDone s = (((s.ownedLost line).record 0 0x0006 payload).setDir
      { ((s.ownedLost line).record 0 0x0006 payload).dir with sweep := none }).bgDoneOp 0xC032 .success [] := by
  have recalls : s.endRecalls w.host = (0, s) := State.endRecalls_of_none (by simp [ents, state])
  have owned : (s.dir.ents.filter fun e => e.2.state == 2 && e.2.owner == w.host) = [(line, e)] := by simp [ents, state, owner]
  have shared : (s.dir.ents.filter fun e => e.2.state == 1 && !e.2.coarse && e.2.sharers.contains w.host) = [] := by simp [ents, state]
  have orphans : (s.dir.ents.filter fun e => e.2.state == 4 && e.2.owner == w.host) = [] := by simp [ents, state]
  simp only [hostLostDone, sweep, recalls, owned, shared, orphans, List.foldl_cons, List.foldl_nil]
  exact ⟨_, rfl⟩

end Sys2Proof.Machine

namespace Sys2Proof.Proofs
open Sys2Proof Sys2Proof.Machine Sys2Proof.Claims

/-- Settles O20: each clause is one answer of `hostLostCmd` on an interface that takes it, or the end of the sweep. -/
theorem lostHostsAreFencedAndSwept : Obligations.LostHostsAreFencedAndSwept := by
  unfold Obligations.LostHostsAreFencedAndSwept
  refine ⟨?lost, ?done, ?reinstate, ?refused, ?busy⟩
  case lost =>
    intro via inp s accepted host action sweep free recalls publishes waiting
    refine ⟨_, exec_hostLostLost via inp s, ?_⟩
    rw [mbxCall_hostLost_starts accepted _ (hostLostCmd_lost host action sweep recalls publishes waiting) free]
    refine ⟨?_, ?_, ?_, ?_, ?_, ?_⟩
    · rw [State.respond_dir]; exact State.fenceHost_fenced s _
    · rw [State.respond_dir]; rfl
    · rw [State.iface_respond, State.iface_modIface]
    · rw [State.iface_respond]
    · rw [State.respond_dir]; rfl
    · rw [State.respond_frame]; rfl
  case done =>
    intro w line e s sweep ents state owner
    obtain ⟨payload, done⟩ := hostLostDone_one_owned sweep ents state owner
    refine ⟨_, exec_hostLostDone s, ?_⟩
    rw [done]
    refine ⟨?_, ?_, ?_⟩
    · rw [State.linePoison_congr (s := s.ownedLost line) (by simp), State.ownedLost_linePoison]
    · simp [State.ownedLost_ents ents]
    · simp
  case reinstate =>
    intro via inp s accepted host action swept
    exact ⟨_, exec_hostLostReinstate via inp s, mbxCall_hostLost accepted _ (hostLostCmd_reinstate host action swept) (by decide)⟩
  case refused =>
    intro via inp s accepted host action
    refine ⟨fun w sweep same => ?_, fun swept free => ?_⟩
    · have swept : (s.dir.sweep.any fun w => w.host == fld inp 0 2) = true := by simp [sweep, same]
      rw [exec_hostLostReinstate, mbxCall_hostLost accepted _ (hostLostCmd_reinstate_swept host action swept) (by decide)]
    · have kept : (s.dir.fenced.filter (· != fld inp 0 2)) = s.dir.fenced := by
        simpa [List.filter_eq_self] using fun h m => (ne_of_mem_of_not_mem m (by simpa using free))
      rw [exec_hostLostReinstate, mbxCall_hostLost accepted _ (hostLostCmd_reinstate host action swept) (by decide), kept]
      rfl
  case busy =>
    intro via inp s accepted host action sweep
    rw [exec_hostLostLost, mbxCall_hostLost accepted _ (hostLostCmd_sweeping host action sweep) (by decide)]

end Sys2Proof.Proofs
end

section
/-! What reads and writes at the home of a datum leave as it is, however they end: the queue of commands, the counter of free values,
the configuration, the time base, and the states of table loads, resets, clocks, power and self-test. They answer, store and poison,
retire units and start rebuilds and moves; none of that moves the time on or draws a free value (log 2). -/
namespace Sys2Proof.Machine
open Sys2Proof

/-- The parts of the state that no access to memory writes; every other part is blank. An equation of two of them carries the nine
fields at once. -/
def State.still (s : State) : State :=
  { pending := s.pending, freeDraws := s.freeDraws, cfg := s.cfg, tbc := s.tbc, tabLoads := s.tabLoads, rst := s.rst, clk := s.clk,
    pwr := s.pwr, bst := s.bst }

/-! ### Updates and shared operations -/

@[simp] theorem State.setPool_still (s : State) (p : Pool) : (s.setPool p).still = s.still := rfl
@[simp] theorem State.setEng_still (s : State) (e : Eng) : (s.setEng e).still = s.still := rfl
@[simp] theorem State.setDir_still (s : State) (d : Dir) : (s.setDir d).still = s.still := rfl
@[simp] theorem State.setQos_still (s : State) (q : Qos) : (s.setQos q).still = s.still := rfl
@[simp] theorem State.setDrc_still (s : State) (d : Drc) : (s.setDrc d).still = s.still := rfl
@[simp] theorem State.setFab_still (s : State) (f : Fab) : (s.setFab f).still = s.still := rfl
@[simp] theorem State.setMbx_still (s : State) (m : Mbx) : (s.setMbx m).still = s.still := rfl
@[simp] theorem State.modPort_still (s : State) (l : Nat) (f : Port → Port) : (s.modPort l f).still = s.still := rfl
@[simp] theorem State.modCnd_still (s : State) (n : Nat) (f : Cnd → Cnd) : (s.modCnd n f).still = s.still := rfl
@[simp] theorem State.modMig_still (s : State) (n : Nat) (f : MigSlice → MigSlice) : (s.modMig n f).still = s.still := rfl
@[simp] theorem State.modPage_still (s : State) (n : Nat) (f : Page → Page) : (s.modPage n f).still = s.still := rfl
@[simp] theorem State.modDirReg_still (s : State) (n : Nat) (f : DirSlice → DirSlice) : (s.modDirReg n f).still = s.still := rfl
@[simp] theorem State.modEccReg_still (s : State) (n : Nat) (f : EccSlice → EccSlice) : (s.modEccReg n f).still = s.still := rfl
@[simp] theorem State.modChan_still (s : State) (c : Ctl) (f : Chan → Chan) : (s.modChan c f).still = s.still := rfl
@[simp] theorem State.emit_still (s : State) (o : Out) : (s.emit o).still = s.still := rfl
@[simp] theorem State.send_still (s : State) (l : Nat) (o : Out) : (s.send l o).still = s.still := by rw [State.send_frame]; rfl
@[simp] theorem State.signal_still (s : State) (f : Func) (v : Nat) : (s.signal f v).still = s.still := by rw [State.signal_frame]; rfl
@[simp] theorem State.signalPf0_still (s : State) (v : Nat) : (s.signalPf0 v).still = s.still := by rw [State.signalPf0_frame]; rfl
@[simp] theorem State.record_still (s : State) (l c : Nat) (p : Bytes) : (s.record l c p).still = s.still := by rw [State.record_frame]; rfl
@[simp] theorem State.recordLim_still (s : State) (l c k g : Nat) (mk : Nat → Bytes) : (s.recordLim l c k g mk).still = s.still := by
  rw [State.recordLim_frame]; rfl

/-- A fold of operations that leave the still parts as they are leaves them as they are. -/
theorem State.foldl_still {β : Type} (g : State → β → State) (h : ∀ s b, (g s b).still = s.still) (l : List β) (s : State) :
    (l.foldl g s).still = s.still := foldl_keeps State.still g h l s

/-! ### Poison, items and the Loupe cache -/

@[simp] theorem State.poisonLine_still (s : State) (line : Nat) : (s.poisonLine line).still = s.still := rfl

@[simp] theorem State.loupeDrop_still (s : State) (n : Nat) : (s.loupeDrop n).still = s.still := by
  unfold State.loupeDrop; dsimp only; split <;> rfl

@[simp] theorem State.modEnt_still (s : State) (i : Item) (f : Ent → Ent) : (s.modEnt i f).still = s.still := by
  cases i with
  | page n => rfl
  | tile h x => unfold State.modEnt; dsimp only; split <;> rfl
  | kv h q l hd b => unfold State.modEnt; dsimp only; split <;> rfl
  | act q n i b => unfold State.modEnt; dsimp only; split <;> rfl
  | mapLine n a l => rfl

@[simp] theorem State.poisonTile_still (s : State) (h x source : Nat) : (s.poisonTile h x source).still = s.still := by
  unfold State.poisonTile
  split
  · rfl
  · split
    · rfl
    · split
      · rfl
      · simp

@[simp] theorem State.poisonItem_still (s : State) (i : Item) (source : Nat) : (s.poisonItem i source).still = s.still := by
  cases i <;> simp [State.poisonItem]

@[simp] theorem State.waitRead_still (s : State) (r : RReq) : (s.waitRead r).still = s.still := rfl

@[simp] theorem State.loupeHit_still (s : State) (n : Nat) : (s.loupeHit n).still = s.still := rfl

@[simp] theorem State.loupeMiss_still (s : State) (slice n tier cls : Nat) : (s.loupeMiss slice n tier cls).still = s.still := by
  unfold State.loupeMiss; dsimp only
  split <;> rfl

/-! ### Responses and the poison count of a link -/

@[simp] theorem State.signalOthers_still (s : State) (l : Nat) : (s.signalOthers l).still = s.still :=
  State.foldl_still _ (fun s k => State.signal_still s (.pf0 k) 7) _ s

@[simp] theorem State.freezePort_still (s : State) (l cause : Nat) : (s.freezePort l cause).still = s.still := by
  unfold State.freezePort; dsimp only
  split
  · rfl
  · split <;> simp

@[simp] theorem State.poisonTick_still (s : State) (l : Nat) : (s.poisonTick l).still = s.still := by
  unfold State.poisonTick; split <;> rfl

@[simp] theorem State.poisonEvent_still (s : State) (l : Nat) : (s.poisonEvent l).still = s.still := by
  unfold State.poisonEvent; dsimp only
  split <;> simp

@[simp] theorem State.respondRead_still (s : State) (r : RReq) (tier : Nat) (data : Option Bytes) :
    (s.respondRead r tier data).still = s.still := by
  unfold State.respondRead; dsimp only
  split
  · rfl
  · split <;> simp

@[simp] theorem State.respondWrite_still (s : State) (link : Nat) (pbr : Option Nat) (host cls dpa tier : Nat) :
    (s.respondWrite link pbr host cls dpa tier).still = s.still := State.send_still s link _

@[simp] theorem State.complete_still (s : State) (w : WReq) (tier : Nat) : (s.complete w tier).still = s.still := by
  unfold State.complete; split <;> simp

/-! ### Bank queues and host accesses -/

@[simp] theorem State.endJob_still (s : State) (k : Nat) (poison : Bool) : (s.endJob k poison).still = s.still := by
  unfold State.endJob
  split
  · rfl
  · dsimp only; split <;> simp

@[simp] theorem State.jobStep_still (s : State) (k : Option Nat) : (s.jobStep k).still = s.still := by
  unfold State.jobStep
  split
  · rfl
  · split
    · rfl
    · split <;> simp

@[simp] theorem State.issue_still (s : State) (c : Ctl) (cmd bank row : Nat) : (s.issue c cmd bank row).still = s.still := rfl

@[simp] theorem State.leaveSelfRefresh_still (s : State) (c : Ctl) : (s.leaveSelfRefresh c).still = s.still := by
  unfold State.leaveSelfRefresh; split <;> rfl

@[simp] theorem State.enter_still (s : State) (c : Ctl) (e : QEnt) : (s.enter c e).still = s.still := by
  unfold State.enter State.intoQueue; dsimp only
  split <;> simp

@[simp] theorem State.enqueue_still (s : State) (c : Ctl) (e : QEnt) : (s.enqueue c e).still = s.still := by
  unfold State.enqueue; dsimp only
  split
  · simp
  · split <;> simp

@[simp] theorem State.queueJob_still (s : State) (j : Job) (es : List (Ctl × QEnt)) : (s.queueJob j es).still = s.still := by
  unfold State.queueJob State.addJob; dsimp only
  split
  · simp
  · rw [State.foldl_still _ (fun s e => State.enqueue_still s _ _)]; rfl

@[simp] theorem State.moved_still (s : State) (slice tier cls bytes : Nat) : (s.moved slice tier cls bytes).still = s.still := rfl

@[simp] theorem State.readJob_still (s : State) (slice : Nat) (h : Home) (off len : Nat) (r : RReq) (data : Option Bytes) :
    (s.readJob slice h off len r data).still = s.still := by
  unfold State.readJob; simp

/-! ### Rebuilds, lost stacks and retired units -/

@[simp] theorem State.rescaleTier_still (s : State) (slice cause tier : Nat) : (s.rescaleTier slice cause tier).still = s.still := by
  unfold State.rescaleTier State.scaledRecord; dsimp only
  split <;> simp

@[simp] theorem State.rescale_still (s : State) (slice cause : Nat) : (s.rescale slice cause).still = s.still := by
  unfold State.rescale; split <;> simp

@[simp] theorem State.rescaleParts_still (s : State) (own : Nat) (r : Rebuild) (cause : Nat) : (s.rescaleParts own r cause).still = s.still :=
  State.foldl_still _ (fun s n => State.rescale_still s n cause) _ s

@[simp] theorem State.startRebuild_still (s : State) (slice : Nat) : (s.startRebuild slice).still = s.still := by
  unfold State.startRebuild State.signalError
  split
  · rfl
  · dsimp only; split <;> simp

@[simp] theorem State.addRebuild_still (s : State) (slice : Nat) (r : Rebuild) : (s.addRebuild slice r).still = s.still := by
  unfold State.addRebuild; simp

@[simp] theorem State.lentLost_still (s : State) (slice tier : Nat) (us : List Nat) : (s.lentLost slice tier us).still = s.still := rfl

theorem State.poisonLines_still (l : List Nat) (p : Nat) (s : State) :
    (l.foldl (fun s j => s.poisonLine (64 * p + j)) s).still = s.still :=
  State.foldl_still _ (fun s _ => State.poisonLine_still s _) l s

@[simp] theorem State.unitsLost_still (s : State) (slice tier : Nat) (us : List Nat) (source : Nat) :
    (s.unitsLost slice tier us source).1.still = s.still := by
  unfold State.unitsLost
  refine (foldl_keeps (fun a : State × Nat => a.1.still) _ ?_ _ _).trans (State.lentLost_still s slice tier us)
  rintro ⟨s, n⟩ i
  dsimp only
  split
  · rfl
  · split
    · rfl
    · split
      · rfl
      · split
        · exact State.poisonLines_still _ _ s
        · exact State.poisonItem_still s _ source

@[simp] theorem State.loseUnrebuilt_still (s : State) (group : Nat) : (s.loseUnrebuilt group).still = s.still := by
  refine State.foldl_still _ (fun s o => ?_) _ s
  split
  · rfl
  · simp only [apply_ite State.still, State.startRebuild_still, State.rescaleParts_still, ite_self]
    refine (State.foldl_still _ (fun s g => ?_) _ _).trans (State.modEccReg_still s o _)
    split
    · exact State.poisonLines_still _ _ s
    · exact State.poisonItem_still s _ 3

@[simp] theorem State.mapStale_still (s : State) (c : Ctl) (b : Bool) : (s.mapStale c b).still = s.still := by
  unfold State.mapStale
  refine State.foldl_still _ (fun s x => ?_) _ s
  rfl

@[simp] theorem State.mapRewrite_still (s : State) (c : Ctl) : (s.mapRewrite c).still = s.still := by
  unfold State.mapRewrite
  rw [State.mapStale_still, State.foldl_still _ (fun s x => State.moved_still s _ _ _ _)]

@[simp] theorem State.finishAt_still (s : State) (c : Ctl) : (s.finishAt c).still = s.still := by
  unfold State.finishAt; dsimp only
  refine (State.foldl_still _ (fun s e => ?_) _ _).trans rfl
  split
  · split
    · split <;> simp
    · simp
  · rfl

@[simp] theorem State.failStack_still (s : State) (slice stack : Nat) : (s.failStack slice stack).still = s.still := by
  have stale (l : List Ctl) (s : State) : (l.foldl (fun s c => s.mapStale c true) s).still = s.still :=
    State.foldl_still _ (fun s c => State.mapStale_still s c true) l s
  have off (l : List Ctl) (s : State) : (l.foldl (fun s c => s.modChan c fun x => { x with override := some 4 }) s).still = s.still :=
    State.foldl_still _ (fun s c => State.modChan_still s c _) l s
  unfold State.failStack; dsimp only
  split
  · rfl
  · rw [State.foldl_still _ State.finishAt_still]
    split
    · simp [stale, off]
    · split <;> simp [stale, off]

@[simp] theorem State.retireCtl_still (s : State) (c : Ctl) : (s.retireCtl c).1.still = s.still := by
  unfold State.retireCtl; dsimp only
  split
  · simp
  · split
    · split
      · split <;> simp
      · simp
    · split
      · split <;> simp
      · simp

@[simp] theorem State.retireUnit_still (s : State) (slice : Nat) : (s.retireUnit slice).still = s.still := by
  unfold State.retireUnit
  split
  · rfl
  · dsimp only; split <;> simp

@[simp] theorem State.addRetired_still (s : State) (slice tier m : Nat) : (s.addRetired slice tier m).still = s.still := by
  simp [State.addRetired]

/-! ### Trips and uncorrectable homes -/

@[simp] theorem State.suspect_still (s : State) (slice : Nat) (h : Home) : (s.suspect slice h).still = s.still := by
  unfold State.suspect; split <;> rfl

@[simp] theorem State.freeHome_still (s : State) (slice : Nat) (h : Home) (bad : Bool) : (s.freeHome slice h bad).still = s.still := by
  unfold State.freeHome; split <;> simp

@[simp] theorem State.tripRecord_still (s : State) (i : Item) (h : Home) (log code trigger units newMa : Nat) :
    (s.tripRecord i h log code trigger units newMa).still = s.still := State.recordLim_still s _ _ _ _ _

@[simp] theorem State.retireOverlap_still (s : State) (i : Item) (h : Home) (trigger : Nat) (units : Option (List Nat)) :
    (s.retireOverlap i h trigger units).still = s.still := by
  unfold State.retireOverlap; dsimp only
  split
  · rfl
  · split
    · rfl
    · rw [State.foldl_still _ (fun s m => State.addRetired_still s _ _ m)]; simp

@[simp] theorem State.condensePage_still (s : State) (n : Nat) : (s.condensePage n).2.still = s.still := by
  simp only [State.condensePage, State.condenseOn, apply_ite Prod.snd, apply_ite State.still, State.modCnd_still, ite_self]

@[simp] theorem State.toT2_still (s : State) (i : Item) (h : Home) : (s.toT2 i h).2.still = s.still := by
  unfold State.toT2
  split
  · dsimp only; split <;> simp
  · simp only [apply_ite Prod.snd, ite_self]

@[simp] theorem State.sendMsg_still (s : State) (m : Msg) : (s.sendMsg m).still = s.still := by
  unfold State.sendMsg; dsimp only
  split <;> rfl

@[simp] theorem State.sendReq_still (s : State) (r : FReq) : (s.sendReq r).still = s.still := by
  unfold State.sendReq; dsimp only
  split
  · rfl
  · split <;> simp

@[simp] theorem State.farRead_still (s : State) (i : Item) (h : Home) : (s.farRead i h).still = s.still := by
  unfold State.farRead
  split
  · rfl
  · split
    · exact State.foldl_still _ (fun s c => State.sendReq_still s _) _ s
    · split <;> rfl

@[simp] theorem State.farWrite_still (s : State) (i : Item) (h : Home) : (s.farWrite i h).still = s.still := by
  unfold State.farWrite
  split
  · rfl
  · dsimp only
    split
    · exact State.foldl_still _ (fun s c => State.sendReq_still s _) _ s
    · rfl

@[simp] theorem State.beginMove_still (s : State) (i : Item) (d : Home) (kind : Nat) : (s.beginMove i d kind).still = s.still := by
  have read (s : State) : (match s.homeOf i with
      | some h => if 2 < h.tier then s.farRead i h else s
      | none => s).still = s.still := by
    split
    · split <;> simp
    · rfl
  unfold State.beginMove; dsimp only
  split
  · rw [State.farWrite_still]; exact read _
  · exact read _

@[simp] theorem State.trip_still (s : State) (i : Item) (units : List Nat) : (s.trip i units).still = s.still := by
  unfold State.trip
  split
  case h_1 e h _ _ =>
    dsimp only
    split
    · rfl
    · rw [State.retireOverlap_still, State.tripRecord_still]
      cases s.sameTier (s.itemSlice i) h with
      | some d => simp
      | none =>
        by_cases k : (h.tier != 2 && (s.itemPlace i).1 != 0) = true
        · simp only [k, if_true]
          split <;> simp
        · simp [k]
  case h_2 => rfl

@[simp] theorem State.corrected_still (s : State) (i : Item) (heavy : Bool) (units : List Nat) :
    (s.corrected i heavy units).still = s.still := by
  simp [State.corrected]

@[simp] theorem State.uncorrectable_still (s : State) (i : Item) (source : Nat) : (s.uncorrectable i source).still = s.still := by
  unfold State.uncorrectable
  split
  · rfl
  · dsimp only
    rw [State.retireOverlap_still]
    split <;> simp

@[simp] theorem State.uncorrectableLine_still (s : State) (line : Nat) : (s.uncorrectableLine line).still = s.still := by
  unfold State.uncorrectableLine; dsimp only
  split <;> simp

/-! ### Reads of blocks and lines -/

@[simp] theorem State.decodeFailed_still (s : State) (i : Item) (b : Block) (r : DecRes) (source unit wsource : Nat) :
    (s.decodeFailed i b r source unit wsource).still = s.still := by
  cases r <;> simp [State.decodeFailed]

@[simp] theorem State.decodeItem_still (s : State) (i : Item) (b : Block) (source unit wsource : Nat) :
    (s.decodeItem i b source unit wsource).2.still = s.still := by
  unfold State.decodeItem; split <;> simp

@[simp] theorem State.blockRead_still (s : State) (i : Item) (h : Home) (b : Block) (bs : List Nat) (wsource : Nat) :
    (s.blockRead i h b bs wsource).2.still = s.still := by
  unfold State.blockRead; dsimp only
  split
  · rfl
  · split
    · simp
    · split <;> simp

@[simp] theorem State.readItem_still (s : State) (i : Item) (h : Home) (b : Block) (bs : List Nat) (source unit wsource : Nat) :
    (s.readItem i h b bs source unit wsource).2.still = s.still := by
  have read := State.blockRead_still s i h b bs wsource
  unfold State.readItem
  split
  · next t e => rwa [e] at read
  · next n t e => rw [State.decodeItem_still]; rwa [e] at read

theorem State.still_of_readItem {s t : State} {i : Item} {h : Home} {b : Block} {bs : List Nat} {source unit wsource : Nat} {o : Option Bytes}
    (e : s.readItem i h b bs source unit wsource = (o, t)) : t.still = s.still := by
  rw [← State.readItem_still s i h b bs source unit wsource, e]

@[simp] theorem State.readT1_still (s : State) (r : RReq) (h : Home) (flips : List Flip) : (s.readT1 r h flips).still = s.still := by
  unfold State.readT1; dsimp only
  split
  · split <;> simp
  · split
    · simp
    · split <;> simp

@[simp] theorem State.readBlock_still (s : State) (r : RReq) (h : Home) (flips : List Flip) : (s.readBlock r h flips).still = s.still := by
  unfold State.readBlock; dsimp only
  split
  · simp
  · split
    · split
      · split <;> simp
      · split
        · simp
        next b _ =>
          split
          · next _ t e => rw [State.readJob_still, State.still_of_readItem e, State.loupeMiss_still]
          · next t e => rw [State.readJob_still, State.still_of_readItem e, State.loupeMiss_still]
    · split <;> simp

@[simp] theorem State.readAt_still (s : State) (r : RReq) (flips : List Flip) : (s.readAt r flips).still = s.still := by
  unfold State.readAt; dsimp only
  split
  · simp
  · split
    · simp
    · split
      · simp
      · split
        · simp
        · split <;> simp

/-! ### Charges of an extent -/

@[simp] theorem State.modDraw_still (s : State) (t slice : Nat) (f : Draw → Draw) : (s.modDraw t slice f).still = s.still := rfl

@[simp] theorem State.stage_still (s : State) (t slice stage base : Nat) : (s.stage t slice stage base).still = s.still := by
  simp [State.stage]

@[simp] theorem State.relieved_still (s : State) (t slice base : Nat) : (s.relieved t slice base).still = s.still := by
  unfold State.relieved; dsimp only
  split <;> simp

theorem State.still_of_drawFor {s t : State} {base : Nat} {e : Extent} {slice old new : Nat}
    (drawn : s.drawFor base e slice old new = some t) : t.still = s.still := by
  unfold State.drawFor at drawn
  dsimp only at drawn
  split at drawn
  · cases drawn; rfl
  · split at drawn
    · cases drawn
    · cases drawn
      split <;> split <;> simp

theorem repayPass_still (t base : Nat) (reserve : Bool) (a : State × Nat × Tab Nat) :
    (repayPass t base reserve a).1.still = a.1.still :=
  foldl_keeps (fun b : State × Nat × Tab Nat => b.1.still) _ (by intros; simp) a.2.2 (a.1, a.2.1, [])

@[simp] theorem State.repay_still (s : State) (base : Nat) : (s.repay base).still = s.still := by
  unfold State.repay
  split
  · rfl
  next e _ =>
    dsimp only
    split
    · rfl
    · have pass := fun n => (repayPass_still e.owner base false (repayPass e.owner base true (s, n, e.drawn))).trans
        (repayPass_still e.owner base true (s, n, e.drawn))
      split <;> simp [pass]

/-! ### Homes and stored writes -/

@[simp] theorem State.mapTraffic_still (s : State) (slice : Nat) : (s.mapTraffic slice).still = s.still := rfl

@[simp] theorem State.storeHome_still (s : State) (i : Item) (h : Home) (tripped : Bool) : (s.storeHome i h tripped).still = s.still := by
  unfold State.storeHome; dsimp only
  split
  · split <;> simp
  · simp

@[simp] theorem State.countBlock_still (s : State) (slice : Nat) (b : Block) : (s.countBlock slice b).still = s.still := rfl

@[simp] theorem State.published_still (s : State) (w : WReq) : (s.published w).still = s.still := by
  unfold State.published
  split <;> rfl

@[simp] theorem State.touchLine_still (s : State) (w : WReq) : (s.touchLine w).still = s.still := by
  unfold State.touchLine; split <;> rfl

@[simp] theorem State.land_still (s : State) (w : WReq) : (s.land w).still = s.still := by
  unfold State.land; dsimp only
  split
  · simp
  · split <;> simp

@[simp] theorem State.wrote_still (s : State) (slice : Nat) (h : Home) (off len cls : Nat) :
    (s.wrote slice h off len cls).still = s.still := by
  unfold State.wrote; dsimp only
  split
  · simp
  · refine State.foldl_still _ (fun s p => ?_) _ s
    split <;> simp

@[simp] theorem State.writeJob_still (s : State) (slice : Nat) (h : Home) (off len : Nat) (w : WReq) :
    (s.writeJob slice h off len w).still = s.still := by
  simp [State.writeJob]

@[simp] theorem State.writeT1_still (s : State) (w : WReq) (h : Home) : (s.writeT1 w h).still = s.still := by
  unfold State.writeT1; dsimp only
  split
  · split <;> simp
  · split <;> simp

theorem State.still_of_storeCoded {s t : State} {w : WReq} {base : Nat} {e : Extent} {strict : Bool}
    (stored : s.storeCoded w base e strict = some t) : t.still = s.still := by
  unfold State.storeCoded at stored
  dsimp only at stored
  split at stored
  · cases stored
  next u drawn =>
    split at stored
    · cases stored
    · have kept : u.still = s.still := by
        split at drawn
        · cases drawn
        · rw [State.still_of_drawFor drawn]; simp
      cases stored
      split
      · simp [kept]
      · split <;> simp [kept]

theorem State.still_of_tryStore {s t : State} {w : WReq} {strict : Bool} (stored : s.tryStore w strict = some t) : t.still = s.still := by
  unfold State.tryStore at stored
  dsimp only at stored
  split at stored
  · cases stored; simp
  · split at stored
    · cases stored; simp
    · split at stored
      · split at stored
        · cases stored; simp
        · split at stored
          · split at stored <;> (cases stored; simp)
          · split at stored
            · cases stored; simp
            · exact State.still_of_storeCoded stored
      · split at stored
        · cases stored; simp
        · split at stored
          · cases stored
          · exact State.still_of_storeCoded stored

@[simp] theorem State.hold_still (s : State) (w : WReq) : (s.hold w).still = s.still := by
  unfold State.hold; dsimp only
  split <;> simp

@[simp] theorem State.holdAtMove_still (s : State) (w : WReq) : (s.holdAtMove w).still = s.still := by
  unfold State.holdAtMove; dsimp only
  split <;> rfl

@[simp] theorem State.storeOrHold_still (s : State) (w : WReq) : (s.storeOrHold w).still = s.still := by
  unfold State.storeOrHold
  split
  next stored => exact State.still_of_tryStore stored
  · simp

@[simp] theorem State.enterWrite_still (s : State) (w : WReq) : (s.enterWrite w).still = s.still := by
  simp [State.enterWrite, apply_ite State.still]

end Sys2Proof.Machine
end

section
/-! What the directory's waiting requests do to the engine as they go on (07 R214, R215). A request that reaches a home on a slice that
serves is sampled for heat first, and the sample draws a free value (06 R185); every other request leaves the engine as it is. So
where no value has been drawn afterwards, the engine is the one that stood before. -/
namespace Sys2Proof.Machine
open Sys2Proof

/-! ### Answers leave the engine -/

@[simp] theorem State.signalOthers_eng (s : State) (l : Nat) : (s.signalOthers l).eng = s.eng :=
  foldl_keeps State.eng _ (fun s k => State.signal_eng s (.pf0 k) 7) _ s

@[simp] theorem State.freezePort_eng (s : State) (l cause : Nat) : (s.freezePort l cause).eng = s.eng := by
  unfold State.freezePort; dsimp only
  split
  · rfl
  · split <;> simp

@[simp] theorem State.poisonEvent_eng (s : State) (l : Nat) : (s.poisonEvent l).eng = s.eng := by
  have tick : (s.poisonTick l).eng = s.eng := by unfold State.poisonTick; split <;> rfl
  unfold State.poisonEvent; dsimp only
  split <;> simp [tick]

@[simp] theorem State.respondRead_eng (s : State) (r : RReq) (tier : Nat) (data : Option Bytes) :
    (s.respondRead r tier data).eng = s.eng := by
  unfold State.respondRead; dsimp only
  split
  · rfl
  · split <;> simp

@[simp] theorem State.complete_eng (s : State) (w : WReq) (tier : Nat) : (s.complete w tier).eng = s.eng := by
  unfold State.complete State.respondWrite; split <;> simp

theorem State.freeDraws_of_still {s t : State} (h : t.still = s.still) : t.freeDraws = s.freeDraws :=
  show t.still.freeDraws = s.still.freeDraws by rw [h]

/-! ### The engine until the first draw -/

/-- While no free value has been drawn, the engine is `e`. -/
def State.EngineUntilDraw (e : Eng) (s : State) : Prop := s.freeDraws = 0 → s.eng = e

variable {e : Eng} {s : State}

theorem State.EngineUntilDraw.congr {t : State} (h : s.EngineUntilDraw e) (still : t.still = s.still) (eng : t.eng = s.eng) :
    t.EngineUntilDraw e := fun zero => eng.trans (h ((State.freeDraws_of_still still).symm.trans zero))

theorem State.engineUntilDraw_of_drawn {t : State} (still : t.still = (s.draw.2).still) : t.EngineUntilDraw e := fun zero =>
  absurd ((State.freeDraws_of_still still).symm.trans zero) (Nat.succ_ne_zero _)

/-- A sample of heat draws one value (06 R185). -/
theorem State.sampleHeat_still (s : State) (i : Item) (add : Nat) : (s.sampleHeat i add).still = (s.draw.2).still := by
  unfold State.sampleHeat; dsimp only
  split <;> simp

/-- A read of the directory is sampled first, or its slice does not serve and it is answered with poison. -/
theorem State.EngineUntilDraw.dirRead (h : s.EngineUntilDraw e) (q : DReq) (grant : Nat) : (s.dirRead q grant).EngineUntilDraw e := by
  unfold State.dirRead State.serveRead
  split
  next => exact State.engineUntilDraw_of_drawn (s := s) (by rw [State.readAt_still, State.sampleHeat_still])
  next down =>
    have answered : s.readAt (rreq q grant) q.flips = s.respondRead (rreq q grant) 2 none := by simp [State.readAt, down]
    rw [answered]
    exact h.congr (by simp) (by simp)

/-- A write of the directory is sampled first, or its slice does not serve and it completes. -/
theorem State.EngineUntilDraw.dirWrite (h : s.EngineUntilDraw e) (q : DReq) : (s.dirWrite q).EngineUntilDraw e := by
  unfold State.dirWrite State.applyWrite
  split
  next => exact State.engineUntilDraw_of_drawn (s := s) (by rw [State.enterWrite_still, State.sampleHeat_still])
  next down =>
    have completed : s.enterWrite (wreqOf q) = s.complete (wreqOf q) 2 := by simp [State.enterWrite, down]
    rw [completed]
    exact h.congr (by simp) (by simp)

theorem State.EngineUntilDraw.fencedAnswer (h : s.EngineUntilDraw e) (q : DReq) : (s.fencedAnswer q).EngineUntilDraw e := by
  unfold State.fencedAnswer; dsimp only
  split
  · exact h.congr (by rw [State.respondRead_still]; rfl) (by rw [State.respondRead_eng]; rfl)
  · exact h.congr (by rw [State.complete_still]; rfl) (by rw [State.complete_eng]; rfl)

theorem State.EngineUntilDraw.recall (h : s.EngineUntilDraw e) (line : Nat) (d : DEnt) (targets : List Nat) (kind cause : Nat)
    (q : Option DReq) : (s.recall line d targets kind cause q).EngineUntilDraw e :=
  h.congr (State.foldl_still _ (fun s _ => State.send_still s _ _) _ _)
    (foldl_keeps State.eng _ (fun s _ => State.send_eng s _ _) _ _)

theorem State.EngineUntilDraw.setDir (h : s.EngineUntilDraw e) (d : Dir) : (s.setDir d).EngineUntilDraw e := h

theorem State.EngineUntilDraw.setDent (h : s.EngineUntilDraw e) (line : Nat) (d : DEnt) : (s.setDent line d).EngineUntilDraw e := h

theorem State.EngineUntilDraw.delDent (h : s.EngineUntilDraw e) (line : Nat) : (s.delDent line).EngineUntilDraw e := h

theorem State.EngineUntilDraw.modDirReg (h : s.EngineUntilDraw e) (n : Nat) (f : DirSlice → DirSlice) :
    (s.modDirReg n f).EngineUntilDraw e := h

theorem State.EngineUntilDraw.newEntry (h : s.EngineUntilDraw e) (q : DReq) (d : DEnt) (grant : Nat) :
    (s.newEntry q d grant).EngineUntilDraw e := by
  unfold State.newEntry
  extract_lets set
  split
  · exact (h.setDent _ _).dirRead q grant
  · split
    · exact (h.modDirReg _ _).dirRead q 3
    · extract_lets u
      split
      · exact (((h.modDirReg _ _).delDent _).setDent _ _).dirRead q grant
      · exact (h.modDirReg _ _).recall _ _ _ _ _ _

/-- One request served. The branches are those of R215: fenced, not coherent, and by the state of the line's entry. -/
theorem State.EngineUntilDraw.dirServe (h : s.EngineUntilDraw e) (q : DReq) : (s.dirServe q).EngineUntilDraw e := by
  unfold State.dirServe
  extract_lets host
  split
  · exact h.fencedAnswer q
  · split
    · split
      · exact h.dirRead q 0
      · exact h.dirWrite q
    · split
      next q' s' pair =>
      replace h : s'.EngineUntilDraw e := by split at pair <;> (cases pair; exact h)
      extract_lets q
      clear_value q host
      split
      · split
        · exact h.newEntry q _ 1
        · exact h.newEntry q _ 2
        · exact h.dirRead q 3
        · exact h.dirWrite q
      · split
        · split
          · exact (h.setDent _ _).dirRead q 1
          · extract_lets others
            split
            · exact (h.setDent _ _).dirRead q 2
            · exact h.recall _ _ _ _ _ _
          · exact h.dirRead q 3
          · extract_lets sharers
            split
            · exact (h.delDent _).dirWrite q
            · exact h.recall _ _ _ _ _ _
        · split
          · split
            · exact (h.setDent _ _).dirRead q 1
            · exact h.dirRead q 2
            · exact h.dirRead q 3
            · exact (h.delDent _).dirWrite q
          · exact h.recall _ _ _ _ _ _
        · split
          · split
            · exact (h.delDent _).newEntry q _ 1
            · exact (h.delDent _).newEntry q _ 2
            · exact (h.delDent _).dirRead q 3
            · exact (h.modDirReg _ _).congr (State.complete_still _ _ _) (State.complete_eng _ _ _)
          · split
            · exact h.dirRead q 3
            · exact h.dirWrite q
        · exact h

theorem State.EngineUntilDraw.dirPump (line fuel : Nat) (h : s.EngineUntilDraw e) : (s.dirPump line fuel).EngineUntilDraw e := by
  induction fuel generalizing s with
  | zero => exact h
  | succ fuel ih =>
    unfold State.dirPump
    split
    · exact h
    · split
      · exact h
      · exact ih ((h.setDir _).dirServe _)

theorem State.EngineUntilDraw.dirSettle (h : s.EngineUntilDraw e) : s.dirSettle.EngineUntilDraw e := by
  unfold State.dirSettle
  generalize (s.dir.waiting.map (·.line)).eraseDups = lines
  induction lines generalizing s with
  | nil => exact h
  | cons line lines ih => exact ih (h.dirPump line _)

/-- Waiting requests that go on without a drawn value leave the engine as it is. -/
theorem State.eng_of_dirSettle {s t : State} (settled : s.dirSettle = t) (zero : t.freeDraws = 0) : s.eng = t.eng := by
  have kept : s.dirSettle.EngineUntilDraw s.eng := State.EngineUntilDraw.dirSettle fun _ => rfl
  rw [settled] at kept
  exact (kept zero).symm

theorem State.dirSettle_of_waiting_nil {s : State} (h : s.dir.waiting = []) : s.dirSettle = s := by
  simp [State.dirSettle, h]

end Sys2Proof.Machine
end

section
/-! A drain cut that reaches beyond its slice. The cut of slice 0 cancels a demotion (15 R516), and a read that waits goes on. The header
of the block that it reads names a table slot that is EMPTY, so the decode fails and the home is uncorrectable (05 R165, R166). The
home overlaps a suspect: its 256 B unit enters the retire list and brings its logical unit to RETIRE_UNIT_LIMIT (11 R366, R367). The
LPDDR5X channel leaves service with no hot spare to follow it, and what lies on it is lost (10 R341, 11 R358): with it a spilled
buffer of a sequence that slice 1 hosts. -/
namespace Sys2Proof.Machine
open Sys2Proof Sys2Proof.Claims

theorem exec_drainCut (n : Nat) (s : State) : exec (.drainCut n) s = .next (drainCut n s).dirSettle := rfl

namespace CutRetiresChannel

/-- A block whose header names a table slot that is EMPTY. -/
def block : Block := { coder := 2, strength := 2, kind := 0, sectors := 1, logical := 4096, payload := [], check := 0 }

/-- A home of the block in slice 0's T2; addresses 0 and 6,144 lie in one logical unit. -/
def home (ma : Nat) : Home := { tier := 2, ma := ma, blk := some block }

/-- A sequence with a scratch buffer of slice 0 that is spilled to T2. -/
def sequence : Seq :=
  { tenant := 0, handle := 0, acts := [{ slice := 0, buf := 0, blk := 0, ent := { home := some (home 6144) } }] }

/-- Slice 0 drains, and slice 1 serves and hosts the sequence in slot 16. A paired demotion of page 1 is under way and a read of page 0
waits; the logical unit of page 0 has fifteen entries in the retire list. -/
def state : State :=
  { cfg := { slices := 2 }
    pool := { pages := [(0, { ent := { home := some (home 0) } }), (1, { ent := { home := some { tier := 1, ma := 0 } } })]
              moves := [{ item := .page 1, dest := { tier := 2, ma := 512 }, kind := 7, began := 0 }]
              waiting := [{ link := 0, pbr := none, host := 0, dpa := 0, arrival := 0 }] }
    ecc := { regs := [(0, { suspects := [{ tier := 2, ma := 0, len := 256 }], retireLimit := 16,
                            retire := (List.range 15).map fun k => (2, 24 * (k + 2)) })] }
    eng := { seqs := [(16, sequence)] }
    rst := { inService := [0, 1], slices := [(0, { state := 2 }), (1, { state := 1 })] } }

/-- The buffer has lost its home and is poisoned. -/
theorem drainCut_seqs : (drainCut 0 state).eng.seqs =
    [(16, { sequence with acts := [{ slice := 0, buf := 0, blk := 0, ent := { poisoned := true } }] })] := by decide +kernel

theorem drainCut_freeDraws : (drainCut 0 state).freeDraws = 0 := by decide +kernel

theorem drainCut_waiting : (drainCut 0 state).dir.waiting = [] := by decide +kernel

/-- No state that settles to the outcome of the cut holds the sequence as it was. -/
theorem seqs_ne_of_drainCut {u : State} (settled : exec (.drainCut 0) state = .next u.dirSettle) : u.eng.seqs ≠ [(16, sequence)] := by
  rw [exec_drainCut, State.dirSettle_of_waiting_nil drainCut_waiting] at settled
  have same : u.dirSettle = drainCut 0 state := (Host.Outcome.next.inj settled).symm
  rw [State.eng_of_dirSettle same drainCut_freeDraws, drainCut_seqs]
  decide

end CutRetiresChannel
end Sys2Proof.Machine

namespace Sys2Proof.Proofs
open Sys2Proof Sys2Proof.Machine Sys2Proof.Claims

/-- Refutes O57: the clause on the drain cut fails. With no step and one sequence, hosted by another slice, it says that the sequence
stays as it is; but the moves that the cut cancels let waiting reads go on, and a read can retire the channel that holds a buffer of
the sequence. -/
theorem not_resetsReachTheirDomains : ¬ Obligations.ResetsReachTheirDomains := by
  unfold Obligations.ResetsReachTheirDomains
  rintro ⟨-, -, -, -, -, cut, -⟩
  obtain ⟨idle, -⟩ := cut 0 CutRetiresChannel.state rfl rfl
  obtain ⟨u, settled, -, -, -, elsewhere, -⟩ := idle 16 CutRetiresChannel.sequence rfl rfl
  exact CutRetiresChannel.seqs_ne_of_drainCut settled (elsewhere (by decide))

end Sys2Proof.Proofs
end

section
/-! What leaves slices, clocks and links as they are (15 R516, R521-R526; 12 R410). Accesses to memory, requests of the directory, steps,
sequences, cursors and extents that end, and resets of tenant contexts write no record of a slice, no clock and no link's state. `State.still`
holds the counter of free values too, which a sample of heat moves, and holds no link. -/
namespace Sys2Proof.Machine
open Sys2Proof

/-- What a memory access and the reset of a tenant context leave as they are: the records of the slices, the degraded indication, the
clocks, and of each link its state, its reset and whether its port has failed. -/
structure Rig where
  slices : Tab SliceRst
  degraded : Bool
  clk : Clk
  links : Nat → Nat × Bool × Bool

def State.linkRig (s : State) (l : Nat) : Nat × Bool × Bool := ((s.port l).link, (s.port l).perst, (s.port l).failed)

def State.rig (s : State) : Rig := { slices := s.rst.slices, degraded := s.rst.degraded, clk := s.clk, links := s.linkRig }

/-- A change of a port that keeps the link's state, its reset and its failure. -/
@[simp] theorem State.modPort_rig (s : State) (l : Nat) (f : Port → Port) (link : (f (s.port l)).link = (s.port l).link)
    (perst : (f (s.port l)).perst = (s.port l).perst) (failed : (f (s.port l)).failed = (s.port l).failed) :
    (s.modPort l f).rig = s.rig := by
  have links : (s.modPort l f).linkRig = s.linkRig := by
    funext k
    by_cases e : l = k
    · subst e
      simp [State.linkRig, link, perst, failed]
    · simp [State.linkRig, State.port_modPort_other s l k f e]
  simp [State.rig, links]

/-! ### Updates and shared operations -/

@[simp] theorem State.setEcc_rig (s : State) (e : Ecc) : (s.setEcc e).rig = s.rig := rfl
@[simp] theorem State.setFw_rig (s : State) (f : Fw) : (s.setFw f).rig = s.rig := rfl
@[simp] theorem State.setBst_rig (s : State) (b : Bst) : (s.setBst b).rig = s.rig := rfl
@[simp] theorem State.modFn_rig (s : State) (f : Func) (g : Fn → Fn) : (s.modFn f g).rig = s.rig := rfl
@[simp] theorem State.modIface_rig (s : State) (v : Iface) (f : IfaceSt → IfaceSt) : (s.modIface v f).rig = s.rig := rfl
@[simp] theorem State.modPeer_rig (s : State) (p : Nat) (f : Peer → Peer) : (s.modPeer p f).rig = s.rig := rfl
@[simp] theorem State.requeue_rig (s : State) (l : List Instr) : (s.requeue l).rig = s.rig := rfl
@[simp] theorem State.respond_rig (s : State) (v : Iface) (op : Nat) (r : Ret) (p : Bytes) : (s.respond v op r p).rig = s.rig := by
  rw [State.respond_frame]; rfl
@[simp] theorem State.bgDone_rig (s : State) (v : Iface) (op : Nat) (r : Ret) (p : Bytes) : (s.bgDone v op r p).rig = s.rig := by
  rw [State.bgDone_frame]; rfl
@[simp] theorem State.bgDoneOp_rig (s : State) (op : Nat) (r : Ret) (p : Bytes) : (s.bgDoneOp op r p).rig = s.rig := by
  rw [State.bgDoneOp_frame]; rfl
@[simp] theorem State.recordNow_rig (s : State) (l c : Nat) (p : Bytes) : (s.recordNow l c p).rig = s.rig := by
  rw [State.recordNow_frame]; rfl
@[simp] theorem State.setPool_rig (s : State) (p : Pool) : (s.setPool p).rig = s.rig := rfl
@[simp] theorem State.setEng_rig (s : State) (e : Eng) : (s.setEng e).rig = s.rig := rfl
@[simp] theorem State.setDir_rig (s : State) (d : Dir) : (s.setDir d).rig = s.rig := rfl
@[simp] theorem State.setQos_rig (s : State) (q : Qos) : (s.setQos q).rig = s.rig := rfl
@[simp] theorem State.setDrc_rig (s : State) (d : Drc) : (s.setDrc d).rig = s.rig := rfl
@[simp] theorem State.setFab_rig (s : State) (f : Fab) : (s.setFab f).rig = s.rig := rfl
@[simp] theorem State.setMbx_rig (s : State) (m : Mbx) : (s.setMbx m).rig = s.rig := rfl
@[simp] theorem State.modCnd_rig (s : State) (n : Nat) (f : Cnd → Cnd) : (s.modCnd n f).rig = s.rig := rfl
@[simp] theorem State.modMig_rig (s : State) (n : Nat) (f : MigSlice → MigSlice) : (s.modMig n f).rig = s.rig := rfl
@[simp] theorem State.modPage_rig (s : State) (n : Nat) (f : Page → Page) : (s.modPage n f).rig = s.rig := rfl
@[simp] theorem State.modDirReg_rig (s : State) (n : Nat) (f : DirSlice → DirSlice) : (s.modDirReg n f).rig = s.rig := rfl
@[simp] theorem State.modEccReg_rig (s : State) (n : Nat) (f : EccSlice → EccSlice) : (s.modEccReg n f).rig = s.rig := rfl
@[simp] theorem State.modChan_rig (s : State) (c : Ctl) (f : Chan → Chan) : (s.modChan c f).rig = s.rig := rfl
@[simp] theorem State.emit_rig (s : State) (o : Out) : (s.emit o).rig = s.rig := rfl
@[simp] theorem State.send_rig (s : State) (l : Nat) (o : Out) : (s.send l o).rig = s.rig := by rw [State.send_frame]; rfl
@[simp] theorem State.signal_rig (s : State) (f : Func) (v : Nat) : (s.signal f v).rig = s.rig := by rw [State.signal_frame]; rfl
@[simp] theorem State.signalPf0_rig (s : State) (v : Nat) : (s.signalPf0 v).rig = s.rig := by rw [State.signalPf0_frame]; rfl
@[simp] theorem State.record_rig (s : State) (l c : Nat) (p : Bytes) : (s.record l c p).rig = s.rig := by rw [State.record_frame]; rfl
@[simp] theorem State.recordLim_rig (s : State) (l c k g : Nat) (mk : Nat → Bytes) : (s.recordLim l c k g mk).rig = s.rig := by
  rw [State.recordLim_frame]; rfl

/-- A fold of operations that leave the still parts as they are leaves them as they are. -/
theorem State.foldl_rig {β : Type} (g : State → β → State) (h : ∀ s b, (g s b).rig = s.rig) (l : List β) (s : State) :
    (l.foldl g s).rig = s.rig := foldl_keeps State.rig g h l s

/-! ### Poison, items and the Loupe cache -/

@[simp] theorem State.poisonLine_rig (s : State) (line : Nat) : (s.poisonLine line).rig = s.rig := rfl

@[simp] theorem State.loupeDrop_rig (s : State) (n : Nat) : (s.loupeDrop n).rig = s.rig := by
  unfold State.loupeDrop; dsimp only; split <;> rfl

@[simp] theorem State.modEnt_rig (s : State) (i : Item) (f : Ent → Ent) : (s.modEnt i f).rig = s.rig := by
  cases i with
  | page n => rfl
  | tile h x => unfold State.modEnt; dsimp only; split <;> rfl
  | kv h q l hd b => unfold State.modEnt; dsimp only; split <;> rfl
  | act q n i b => unfold State.modEnt; dsimp only; split <;> rfl
  | mapLine n a l => rfl

@[simp] theorem State.poisonTile_rig (s : State) (h x source : Nat) : (s.poisonTile h x source).rig = s.rig := by
  unfold State.poisonTile
  split
  · rfl
  · split
    · rfl
    · split
      · rfl
      · simp

@[simp] theorem State.poisonItem_rig (s : State) (i : Item) (source : Nat) : (s.poisonItem i source).rig = s.rig := by
  cases i <;> simp [State.poisonItem]

@[simp] theorem State.waitRead_rig (s : State) (r : RReq) : (s.waitRead r).rig = s.rig := rfl

@[simp] theorem State.loupeHit_rig (s : State) (n : Nat) : (s.loupeHit n).rig = s.rig := rfl

@[simp] theorem State.loupeMiss_rig (s : State) (slice n tier cls : Nat) : (s.loupeMiss slice n tier cls).rig = s.rig := by
  unfold State.loupeMiss; dsimp only
  split <;> rfl

/-! ### Responses and the poison count of a link -/

@[simp] theorem State.signalOthers_rig (s : State) (l : Nat) : (s.signalOthers l).rig = s.rig :=
  State.foldl_rig _ (fun s k => State.signal_rig s (.pf0 k) 7) _ s

@[simp] theorem State.freezePort_rig (s : State) (l cause : Nat) : (s.freezePort l cause).rig = s.rig := by
  unfold State.freezePort; dsimp only
  split
  · rfl
  · split <;> simp

@[simp] theorem State.poisonTick_rig (s : State) (l : Nat) : (s.poisonTick l).rig = s.rig := by
  unfold State.poisonTick; split <;> simp

@[simp] theorem State.poisonEvent_rig (s : State) (l : Nat) : (s.poisonEvent l).rig = s.rig := by
  unfold State.poisonEvent; dsimp only
  split <;> simp

@[simp] theorem State.respondRead_rig (s : State) (r : RReq) (tier : Nat) (data : Option Bytes) :
    (s.respondRead r tier data).rig = s.rig := by
  unfold State.respondRead; dsimp only
  split
  · rfl
  · split <;> simp

@[simp] theorem State.respondWrite_rig (s : State) (link : Nat) (pbr : Option Nat) (host cls dpa tier : Nat) :
    (s.respondWrite link pbr host cls dpa tier).rig = s.rig := State.send_rig s link _

@[simp] theorem State.complete_rig (s : State) (w : WReq) (tier : Nat) : (s.complete w tier).rig = s.rig := by
  unfold State.complete; split <;> simp

/-! ### Bank queues and host accesses -/

@[simp] theorem State.endJob_rig (s : State) (k : Nat) (poison : Bool) : (s.endJob k poison).rig = s.rig := by
  unfold State.endJob
  split
  · rfl
  · dsimp only; split <;> simp

@[simp] theorem State.jobStep_rig (s : State) (k : Option Nat) : (s.jobStep k).rig = s.rig := by
  unfold State.jobStep
  split
  · rfl
  · split
    · rfl
    · split <;> simp

@[simp] theorem State.issue_rig (s : State) (c : Ctl) (cmd bank row : Nat) : (s.issue c cmd bank row).rig = s.rig := rfl

@[simp] theorem State.leaveSelfRefresh_rig (s : State) (c : Ctl) : (s.leaveSelfRefresh c).rig = s.rig := by
  unfold State.leaveSelfRefresh; split <;> rfl

@[simp] theorem State.enter_rig (s : State) (c : Ctl) (e : QEnt) : (s.enter c e).rig = s.rig := by
  unfold State.enter State.intoQueue; dsimp only
  split <;> simp

@[simp] theorem State.enqueue_rig (s : State) (c : Ctl) (e : QEnt) : (s.enqueue c e).rig = s.rig := by
  unfold State.enqueue; dsimp only
  split
  · simp
  · split <;> simp

@[simp] theorem State.queueJob_rig (s : State) (j : Job) (es : List (Ctl × QEnt)) : (s.queueJob j es).rig = s.rig := by
  unfold State.queueJob State.addJob; dsimp only
  split
  · simp
  · rw [State.foldl_rig _ (fun s e => State.enqueue_rig s _ _)]; rfl

@[simp] theorem State.moved_rig (s : State) (slice tier cls bytes : Nat) : (s.moved slice tier cls bytes).rig = s.rig := rfl

@[simp] theorem State.readJob_rig (s : State) (slice : Nat) (h : Home) (off len : Nat) (r : RReq) (data : Option Bytes) :
    (s.readJob slice h off len r data).rig = s.rig := by
  unfold State.readJob; simp

/-! ### Rebuilds, lost stacks and retired units -/

@[simp] theorem State.rescaleTier_rig (s : State) (slice cause tier : Nat) : (s.rescaleTier slice cause tier).rig = s.rig := by
  unfold State.rescaleTier State.scaledRecord; dsimp only
  split <;> simp

@[simp] theorem State.rescale_rig (s : State) (slice cause : Nat) : (s.rescale slice cause).rig = s.rig := by
  unfold State.rescale; split <;> simp

@[simp] theorem State.rescaleParts_rig (s : State) (own : Nat) (r : Rebuild) (cause : Nat) : (s.rescaleParts own r cause).rig = s.rig :=
  State.foldl_rig _ (fun s n => State.rescale_rig s n cause) _ s

@[simp] theorem State.startRebuild_rig (s : State) (slice : Nat) : (s.startRebuild slice).rig = s.rig := by
  unfold State.startRebuild State.signalError
  split
  · rfl
  · dsimp only; split <;> simp

@[simp] theorem State.addRebuild_rig (s : State) (slice : Nat) (r : Rebuild) : (s.addRebuild slice r).rig = s.rig := by
  unfold State.addRebuild; simp

@[simp] theorem State.lentLost_rig (s : State) (slice tier : Nat) (us : List Nat) : (s.lentLost slice tier us).rig = s.rig := rfl

theorem State.poisonLines_rig (l : List Nat) (p : Nat) (s : State) :
    (l.foldl (fun s j => s.poisonLine (64 * p + j)) s).rig = s.rig :=
  State.foldl_rig _ (fun s _ => State.poisonLine_rig s _) l s

@[simp] theorem State.unitsLost_rig (s : State) (slice tier : Nat) (us : List Nat) (source : Nat) :
    (s.unitsLost slice tier us source).1.rig = s.rig := by
  unfold State.unitsLost
  refine (foldl_keeps (fun a : State × Nat => a.1.rig) _ ?_ _ _).trans (State.lentLost_rig s slice tier us)
  rintro ⟨s, n⟩ i
  dsimp only
  split
  · rfl
  · split
    · rfl
    · split
      · rfl
      · split
        · exact State.poisonLines_rig _ _ s
        · exact State.poisonItem_rig s _ source

@[simp] theorem State.loseUnrebuilt_rig (s : State) (group : Nat) : (s.loseUnrebuilt group).rig = s.rig := by
  refine State.foldl_rig _ (fun s o => ?_) _ s
  split
  · rfl
  · simp only [apply_ite State.rig, State.startRebuild_rig, State.rescaleParts_rig, ite_self]
    refine (State.foldl_rig _ (fun s g => ?_) _ _).trans (State.modEccReg_rig s o _)
    split
    · exact State.poisonLines_rig _ _ s
    · exact State.poisonItem_rig s _ 3

@[simp] theorem State.mapStale_rig (s : State) (c : Ctl) (b : Bool) : (s.mapStale c b).rig = s.rig := by
  unfold State.mapStale
  refine State.foldl_rig _ (fun s x => ?_) _ s
  rfl

@[simp] theorem State.mapRewrite_rig (s : State) (c : Ctl) : (s.mapRewrite c).rig = s.rig := by
  unfold State.mapRewrite
  rw [State.mapStale_rig, State.foldl_rig _ (fun s x => State.moved_rig s _ _ _ _)]

@[simp] theorem State.finishAt_rig (s : State) (c : Ctl) : (s.finishAt c).rig = s.rig := by
  unfold State.finishAt; dsimp only
  refine (State.foldl_rig _ (fun s e => ?_) _ _).trans rfl
  split
  · split
    · split <;> simp
    · simp
  · rfl

@[simp] theorem State.failStack_rig (s : State) (slice stack : Nat) : (s.failStack slice stack).rig = s.rig := by
  have stale (l : List Ctl) (s : State) : (l.foldl (fun s c => s.mapStale c true) s).rig = s.rig :=
    State.foldl_rig _ (fun s c => State.mapStale_rig s c true) l s
  have off (l : List Ctl) (s : State) : (l.foldl (fun s c => s.modChan c fun x => { x with override := some 4 }) s).rig = s.rig :=
    State.foldl_rig _ (fun s c => State.modChan_rig s c _) l s
  unfold State.failStack; dsimp only
  split
  · rfl
  · rw [State.foldl_rig _ State.finishAt_rig]
    split
    · simp [stale, off]
    · split <;> simp [stale, off]

@[simp] theorem State.retireCtl_rig (s : State) (c : Ctl) : (s.retireCtl c).1.rig = s.rig := by
  unfold State.retireCtl; dsimp only
  split
  · simp
  · split
    · split
      · split <;> simp
      · simp
    · split
      · split <;> simp
      · simp

@[simp] theorem State.retireUnit_rig (s : State) (slice : Nat) : (s.retireUnit slice).rig = s.rig := by
  unfold State.retireUnit
  split
  · rfl
  · dsimp only; split <;> simp

@[simp] theorem State.addRetired_rig (s : State) (slice tier m : Nat) : (s.addRetired slice tier m).rig = s.rig := by
  simp [State.addRetired]

/-! ### Trips and uncorrectable homes -/

@[simp] theorem State.suspect_rig (s : State) (slice : Nat) (h : Home) : (s.suspect slice h).rig = s.rig := by
  unfold State.suspect; split <;> rfl

@[simp] theorem State.freeHome_rig (s : State) (slice : Nat) (h : Home) (bad : Bool) : (s.freeHome slice h bad).rig = s.rig := by
  unfold State.freeHome; split <;> simp

@[simp] theorem State.tripRecord_rig (s : State) (i : Item) (h : Home) (log code trigger units newMa : Nat) :
    (s.tripRecord i h log code trigger units newMa).rig = s.rig := State.recordLim_rig s _ _ _ _ _

@[simp] theorem State.retireOverlap_rig (s : State) (i : Item) (h : Home) (trigger : Nat) (units : Option (List Nat)) :
    (s.retireOverlap i h trigger units).rig = s.rig := by
  unfold State.retireOverlap; dsimp only
  split
  · rfl
  · split
    · rfl
    · rw [State.foldl_rig _ (fun s m => State.addRetired_rig s _ _ m)]; simp

@[simp] theorem State.condensePage_rig (s : State) (n : Nat) : (s.condensePage n).2.rig = s.rig := by
  simp only [State.condensePage, State.condenseOn, apply_ite Prod.snd, apply_ite State.rig, State.modCnd_rig, ite_self]

@[simp] theorem State.toT2_rig (s : State) (i : Item) (h : Home) : (s.toT2 i h).2.rig = s.rig := by
  unfold State.toT2
  split
  · dsimp only; split <;> simp
  · simp only [apply_ite Prod.snd, ite_self]

@[simp] theorem State.sendMsg_rig (s : State) (m : Msg) : (s.sendMsg m).rig = s.rig := by
  unfold State.sendMsg; dsimp only
  split <;> rfl

@[simp] theorem State.sendReq_rig (s : State) (r : FReq) : (s.sendReq r).rig = s.rig := by
  unfold State.sendReq; dsimp only
  split
  · rfl
  · split <;> simp

@[simp] theorem State.farRead_rig (s : State) (i : Item) (h : Home) : (s.farRead i h).rig = s.rig := by
  unfold State.farRead
  split
  · rfl
  · split
    · exact State.foldl_rig _ (fun s c => State.sendReq_rig s _) _ s
    · split <;> rfl

@[simp] theorem State.farWrite_rig (s : State) (i : Item) (h : Home) : (s.farWrite i h).rig = s.rig := by
  unfold State.farWrite
  split
  · rfl
  · dsimp only
    split
    · exact State.foldl_rig _ (fun s c => State.sendReq_rig s _) _ s
    · rfl

@[simp] theorem State.beginMove_rig (s : State) (i : Item) (d : Home) (kind : Nat) : (s.beginMove i d kind).rig = s.rig := by
  have read (s : State) : (match s.homeOf i with
      | some h => if 2 < h.tier then s.farRead i h else s
      | none => s).rig = s.rig := by
    split
    · split <;> simp
    · rfl
  unfold State.beginMove; dsimp only
  split
  · rw [State.farWrite_rig]; exact read _
  · exact read _

@[simp] theorem State.trip_rig (s : State) (i : Item) (units : List Nat) : (s.trip i units).rig = s.rig := by
  unfold State.trip
  split
  case h_1 e h _ _ =>
    dsimp only
    split
    · rfl
    · rw [State.retireOverlap_rig, State.tripRecord_rig]
      cases s.sameTier (s.itemSlice i) h with
      | some d => simp
      | none =>
        by_cases k : (h.tier != 2 && (s.itemPlace i).1 != 0) = true
        · simp only [k, if_true]
          split <;> simp
        · simp [k]
  case h_2 => rfl

@[simp] theorem State.corrected_rig (s : State) (i : Item) (heavy : Bool) (units : List Nat) :
    (s.corrected i heavy units).rig = s.rig := by
  simp [State.corrected]

@[simp] theorem State.uncorrectable_rig (s : State) (i : Item) (source : Nat) : (s.uncorrectable i source).rig = s.rig := by
  unfold State.uncorrectable
  split
  · rfl
  · dsimp only
    rw [State.retireOverlap_rig]
    split <;> simp

@[simp] theorem State.uncorrectableLine_rig (s : State) (line : Nat) : (s.uncorrectableLine line).rig = s.rig := by
  unfold State.uncorrectableLine; dsimp only
  split <;> simp

/-! ### Reads of blocks and lines -/

@[simp] theorem State.decodeFailed_rig (s : State) (i : Item) (b : Block) (r : DecRes) (source unit wsource : Nat) :
    (s.decodeFailed i b r source unit wsource).rig = s.rig := by
  cases r <;> simp [State.decodeFailed]

@[simp] theorem State.decodeItem_rig (s : State) (i : Item) (b : Block) (source unit wsource : Nat) :
    (s.decodeItem i b source unit wsource).2.rig = s.rig := by
  unfold State.decodeItem; split <;> simp

@[simp] theorem State.blockRead_rig (s : State) (i : Item) (h : Home) (b : Block) (bs : List Nat) (wsource : Nat) :
    (s.blockRead i h b bs wsource).2.rig = s.rig := by
  unfold State.blockRead; dsimp only
  split
  · rfl
  · split
    · simp
    · split <;> simp

@[simp] theorem State.readItem_rig (s : State) (i : Item) (h : Home) (b : Block) (bs : List Nat) (source unit wsource : Nat) :
    (s.readItem i h b bs source unit wsource).2.rig = s.rig := by
  have read := State.blockRead_rig s i h b bs wsource
  unfold State.readItem
  split
  · next t e => rwa [e] at read
  · next n t e => rw [State.decodeItem_rig]; rwa [e] at read

theorem State.rig_of_readItem {s t : State} {i : Item} {h : Home} {b : Block} {bs : List Nat} {source unit wsource : Nat} {o : Option Bytes}
    (e : s.readItem i h b bs source unit wsource = (o, t)) : t.rig = s.rig := by
  rw [← State.readItem_rig s i h b bs source unit wsource, e]

@[simp] theorem State.readT1_rig (s : State) (r : RReq) (h : Home) (flips : List Flip) : (s.readT1 r h flips).rig = s.rig := by
  unfold State.readT1; dsimp only
  split
  · split <;> simp
  · split
    · simp
    · split <;> simp

@[simp] theorem State.readBlock_rig (s : State) (r : RReq) (h : Home) (flips : List Flip) : (s.readBlock r h flips).rig = s.rig := by
  unfold State.readBlock; dsimp only
  split
  · simp
  · split
    · split
      · split <;> simp
      · split
        · simp
        next b _ =>
          split
          · next _ t e => rw [State.readJob_rig, State.rig_of_readItem e, State.loupeMiss_rig]
          · next t e => rw [State.readJob_rig, State.rig_of_readItem e, State.loupeMiss_rig]
    · split <;> simp

@[simp] theorem State.readAt_rig (s : State) (r : RReq) (flips : List Flip) : (s.readAt r flips).rig = s.rig := by
  unfold State.readAt; dsimp only
  split
  · simp
  · split
    · simp
    · split
      · simp
      · split
        · simp
        · split <;> simp

/-! ### Charges of an extent -/

@[simp] theorem State.modDraw_rig (s : State) (t slice : Nat) (f : Draw → Draw) : (s.modDraw t slice f).rig = s.rig := rfl

@[simp] theorem State.stage_rig (s : State) (t slice stage base : Nat) : (s.stage t slice stage base).rig = s.rig := by
  simp [State.stage]

@[simp] theorem State.relieved_rig (s : State) (t slice base : Nat) : (s.relieved t slice base).rig = s.rig := by
  unfold State.relieved; dsimp only
  split <;> simp

theorem State.rig_of_drawFor {s t : State} {base : Nat} {e : Extent} {slice old new : Nat}
    (drawn : s.drawFor base e slice old new = some t) : t.rig = s.rig := by
  unfold State.drawFor at drawn
  dsimp only at drawn
  split at drawn
  · cases drawn; rfl
  · split at drawn
    · cases drawn
    · cases drawn
      split <;> split <;> simp

theorem repayPass_rig (t base : Nat) (reserve : Bool) (a : State × Nat × Tab Nat) :
    (repayPass t base reserve a).1.rig = a.1.rig :=
  foldl_keeps (fun b : State × Nat × Tab Nat => b.1.rig) _ (by intros; simp) a.2.2 (a.1, a.2.1, [])

@[simp] theorem State.repay_rig (s : State) (base : Nat) : (s.repay base).rig = s.rig := by
  unfold State.repay
  split
  · rfl
  next e _ =>
    dsimp only
    split
    · rfl
    · have pass := fun n => (repayPass_rig e.owner base false (repayPass e.owner base true (s, n, e.drawn))).trans
        (repayPass_rig e.owner base true (s, n, e.drawn))
      split <;> simp [pass]

/-! ### Homes and stored writes -/

@[simp] theorem State.mapTraffic_rig (s : State) (slice : Nat) : (s.mapTraffic slice).rig = s.rig := rfl

@[simp] theorem State.storeHome_rig (s : State) (i : Item) (h : Home) (tripped : Bool) : (s.storeHome i h tripped).rig = s.rig := by
  unfold State.storeHome; dsimp only
  split
  · split <;> simp
  · simp

@[simp] theorem State.countBlock_rig (s : State) (slice : Nat) (b : Block) : (s.countBlock slice b).rig = s.rig := rfl

@[simp] theorem State.published_rig (s : State) (w : WReq) : (s.published w).rig = s.rig := by
  unfold State.published
  split <;> rfl

@[simp] theorem State.touchLine_rig (s : State) (w : WReq) : (s.touchLine w).rig = s.rig := by
  unfold State.touchLine; split <;> rfl

@[simp] theorem State.land_rig (s : State) (w : WReq) : (s.land w).rig = s.rig := by
  unfold State.land; dsimp only
  split
  · simp
  · split <;> simp

@[simp] theorem State.wrote_rig (s : State) (slice : Nat) (h : Home) (off len cls : Nat) :
    (s.wrote slice h off len cls).rig = s.rig := by
  unfold State.wrote; dsimp only
  split
  · simp
  · refine State.foldl_rig _ (fun s p => ?_) _ s
    split <;> simp

@[simp] theorem State.writeJob_rig (s : State) (slice : Nat) (h : Home) (off len : Nat) (w : WReq) :
    (s.writeJob slice h off len w).rig = s.rig := by
  simp [State.writeJob]

@[simp] theorem State.writeT1_rig (s : State) (w : WReq) (h : Home) : (s.writeT1 w h).rig = s.rig := by
  unfold State.writeT1; dsimp only
  split
  · split <;> simp
  · split <;> simp

theorem State.rig_of_storeCoded {s t : State} {w : WReq} {base : Nat} {e : Extent} {strict : Bool}
    (stored : s.storeCoded w base e strict = some t) : t.rig = s.rig := by
  unfold State.storeCoded at stored
  dsimp only at stored
  split at stored
  · cases stored
  next u drawn =>
    split at stored
    · cases stored
    · have kept : u.rig = s.rig := by
        split at drawn
        · cases drawn
        · rw [State.rig_of_drawFor drawn]; simp
      cases stored
      split
      · simp [kept]
      · split <;> simp [kept]

theorem State.rig_of_tryStore {s t : State} {w : WReq} {strict : Bool} (stored : s.tryStore w strict = some t) : t.rig = s.rig := by
  unfold State.tryStore at stored
  dsimp only at stored
  split at stored
  · cases stored; simp
  · split at stored
    · cases stored; simp
    · split at stored
      · split at stored
        · cases stored; simp
        · split at stored
          · split at stored <;> (cases stored; simp)
          · split at stored
            · cases stored; simp
            · exact State.rig_of_storeCoded stored
      · split at stored
        · cases stored; simp
        · split at stored
          · cases stored
          · exact State.rig_of_storeCoded stored

@[simp] theorem State.hold_rig (s : State) (w : WReq) : (s.hold w).rig = s.rig := by
  unfold State.hold; dsimp only
  split <;> simp

@[simp] theorem State.holdAtMove_rig (s : State) (w : WReq) : (s.holdAtMove w).rig = s.rig := by
  unfold State.holdAtMove; dsimp only
  split <;> rfl

@[simp] theorem State.storeOrHold_rig (s : State) (w : WReq) : (s.storeOrHold w).rig = s.rig := by
  unfold State.storeOrHold
  split
  next stored => exact State.rig_of_tryStore stored
  · simp

@[simp] theorem State.enterWrite_rig (s : State) (w : WReq) : (s.enterWrite w).rig = s.rig := by
  simp [State.enterWrite, apply_ite State.rig]

/-! ### Requests of the directory and moves -/

@[simp] theorem State.draw_rig (s : State) : (s.draw.2).rig = s.rig := rfl

@[simp] theorem State.sampleHeat_rig (s : State) (i : Item) (add : Nat) : (s.sampleHeat i add).rig = s.rig := by
  unfold State.sampleHeat; dsimp only
  split <;> simp

@[simp] theorem State.serveRead_rig (s : State) (r : RReq) (flips : List Flip) : (s.serveRead r flips).rig = s.rig := by
  unfold State.serveRead; split <;> simp

@[simp] theorem State.applyWrite_rig (s : State) (w : WReq) : (s.applyWrite w).rig = s.rig := by
  unfold State.applyWrite; split <;> simp

@[simp] theorem State.dirRead_rig (s : State) (q : DReq) (grant : Nat) : (s.dirRead q grant).rig = s.rig := State.serveRead_rig s _ _

@[simp] theorem State.dirWrite_rig (s : State) (q : DReq) : (s.dirWrite q).rig = s.rig := State.applyWrite_rig s _

@[simp] theorem State.wake_rig (s : State) : s.wake.rig = s.rig := by
  refine State.foldl_rig _ (fun s r => ?_) _ s
  split <;> simp

@[simp] theorem State.endMove_rig (s : State) (m : Move) : (s.endMove m).rig = s.rig := by
  unfold State.endMove
  rw [State.wake_rig, State.foldl_rig _ (fun s w => State.enterWrite_rig s w)]
  rfl

@[simp] theorem State.setDent_rig (s : State) (line : Nat) (d : DEnt) : (s.setDent line d).rig = s.rig := rfl
@[simp] theorem State.delDent_rig (s : State) (line : Nat) : (s.delDent line).rig = s.rig := rfl
@[simp] theorem State.uncached_rig (s : State) (line : Nat) : (s.uncached line).rig = s.rig := rfl

@[simp] theorem State.fencedAnswer_rig (s : State) (q : DReq) : (s.fencedAnswer q).rig = s.rig := by
  unfold State.fencedAnswer State.countFence; dsimp only
  split <;> simp

@[simp] theorem State.recall_rig (s : State) (line : Nat) (d : DEnt) (targets : List Nat) (kind cause : Nat) (q : Option DReq) :
    (s.recall line d targets kind cause q).rig = s.rig :=
  State.foldl_rig _ (fun s _ => State.send_rig s _ _) _ _

@[simp] theorem State.newEntry_rig (s : State) (q : DReq) (d : DEnt) (grant : Nat) : (s.newEntry q d grant).rig = s.rig := by
  unfold State.newEntry; dsimp only
  split
  · simp
  · split
    · simp
    · simp only [apply_ite State.rig, State.dirRead_rig, State.setDent_rig, State.delDent_rig, State.recall_rig, State.modDirReg_rig, ite_self]

/-- One request served. The branches are those of R215: fenced, not coherent, and by the state of the line's entry. -/
@[simp] theorem State.dirServe_rig (s : State) (q : DReq) : (s.dirServe q).rig = s.rig := by
  unfold State.dirServe
  extract_lets host
  split
  · simp
  · split
    · split <;> simp
    · split
      next q' s' pair =>
      have kept : s'.rig = s.rig := by split at pair <;> (cases pair; simp)
      rw [← kept]
      extract_lets q
      clear_value q host
      split
      · split <;> simp
      · split
        · split
          · simp
          · dsimp only; split <;> simp
          · simp
          · dsimp only; split <;> simp
        · split
          · split <;> simp
          · simp
        · split
          · split <;> simp
          · split <;> simp
        · rfl

@[simp] theorem State.dirPump_rig (s : State) (line fuel : Nat) : (s.dirPump line fuel).rig = s.rig := by
  induction fuel generalizing s with
  | zero => rfl
  | succ fuel ih =>
    unfold State.dirPump
    split
    · rfl
    · split
      · rfl
      · rw [ih]; simp

@[simp] theorem State.dirNext_rig (s : State) (line : Nat) : (s.dirNext line).rig = s.rig := State.dirPump_rig s line _

/-! ### Loads, steps and sequences -/

@[simp] theorem State.modSlotT_rig (s : State) (n k : Nat) (f : TSlot → TSlot) : (s.modSlotT n k f).rig = s.rig := rfl
@[simp] theorem State.emptySlot_rig (s : State) (n k : Nat) : (s.emptySlot n k).rig = s.rig := rfl

@[simp] theorem State.tabLoadDone_rig (s : State) : s.tabLoadDone.rig = s.rig := by
  refine State.foldl_rig _ (fun s l => ?_) _ s
  split
  · dsimp only; rw [State.respond_rig]; rfl
  · rfl

@[simp] theorem State.loadSlots_rig (s : State) (l : Load) (h : Option Nat) : (s.loadSlots l h).rig = s.rig := by
  refine State.foldl_rig _ (fun s x => ?_) _ s
  split <;> rfl

@[simp] theorem State.abandonLoad_rig (s : State) (t : Nat) (r : Ret) : (s.abandonLoad t r).rig = s.rig := by
  unfold State.abandonLoad State.keepOutcome State.dropLoad
  split
  · rfl
  · simp

@[simp] theorem State.modCur_rig (s : State) (c : Nat) (f : Cursor → Cursor) : (s.modCur c f).rig = s.rig := by
  unfold State.modCur; split <;> rfl

@[simp] theorem State.modQueue_rig (s : State) (cu q : Nat) (f : Queue → Queue) : (s.modQueue cu q f).rig = s.rig := State.modCur_rig s _ _

@[simp] theorem State.setStep_rig (s : State) (id : Nat) (x : StepSt) : (s.setStep id x).rig = s.rig := rfl

@[simp] theorem State.devWrite_rig (s : State) (cls a : Nat) (b : Bytes) (poison : Bool) : (s.devWrite cls a b poison).rig = s.rig := by
  unfold State.devWrite
  split
  · rfl
  · exact State.foldl_rig _ (fun s k => State.applyWrite_rig s _) _ s

@[simp] theorem State.readHead_rig (s : State) (cu q : Nat) : (s.readHead cu q).rig = s.rig := by
  unfold State.readHead
  split
  · dsimp only; split <;> simp
  · rfl

@[simp] theorem State.freeOld_rig (s : State) : s.freeOld.rig = s.rig := by
  refine State.foldl_rig _ (fun s o => ?_) _ s
  split
  · rfl
  · dsimp only; split <;> simp

@[simp] theorem State.closeSeq_rig (s : State) (q : Nat) : (s.closeSeq q).rig = s.rig := by
  unfold State.closeSeq
  split
  · rfl
  · dsimp only
    simp only [State.setEng_rig, State.setPool_rig]
    refine State.foldl_rig _ (fun s k => ?_) _ s
    split <;> simp

@[simp] theorem State.unopen_rig (s : State) (x : StepSt) : (s.unopen x).rig = s.rig := by
  refine State.foldl_rig _ (fun s n => ?_) _ s
  split <;> simp

@[simp] theorem State.restore_rig (s : State) (x : StepSt) : (s.restore x).rig = s.rig := by
  refine State.foldl_rig _ (fun s z => ?_) _ s
  split
  · rfl
  · split
    · rfl
    · dsimp only
      rw [State.setEng_rig]
      refine State.foldl_rig _ (fun s k => ?_) _ s
      split <;> simp

@[simp] theorem State.unloadDone_rig (s : State) (h : Nat) : (s.unloadDone h).rig = s.rig := by
  unfold State.unloadDone
  split
  · rfl
  · split
    · rfl
    · split
      · rfl
      · dsimp only
        rw [State.bgDone_rig, State.signal_rig, State.setEng_rig, State.setPool_rig]
        exact State.foldl_rig _ (fun s x => State.freeHome_rig s _ _ _) _ s

@[simp] theorem State.endStep_rig (s : State) (id conds : Nat) : (s.endStep id conds).rig = s.rig := by
  unfold State.endStep; split <;> simp

@[simp] theorem State.abortStep_rig (s : State) (id cond : Nat) (lastDone : Nat → Nat) : (s.abortStep id cond lastDone).rig = s.rig := by
  unfold State.abortStep
  split
  · rfl
  · dsimp only
    rw [State.foldl_rig _ (fun s e => by simp), State.endStep_rig, State.setStep_rig]
    split <;> simp

@[simp] theorem State.resetStep_rig (s : State) (cond id : Nat) : (s.resetStep cond id).rig = s.rig := by
  unfold State.resetStep
  split
  · rfl
  · split
    · simp
    · split <;> rfl

@[simp] theorem State.quietStep_rig (s : State) (id : Nat) : (s.quietStep id).rig = s.rig := by
  unfold State.quietStep; split <;> rfl

@[simp] theorem State.completed_rig (s : State) (x : StepSt) : (s.completed x).rig = s.rig := by
  unfold State.completed; dsimp only
  simp only [apply_ite State.rig, State.signal_rig, State.modCur_rig, State.modFn_rig, ite_self]

@[simp] theorem stepComplete_rig (cu q : Nat) (s : State) : (stepComplete cu q s).rig = s.rig := by
  unfold stepComplete
  split
  · split
    · rfl
    · extract_lets u
      have head : u.rig = s.rig := by unfold u; split <;> simp
      clear_value u
      split
      · split
        · exact head
        · dsimp only
          rw [State.completed_rig]
          split
          · rw [State.foldl_rig _ (fun s n => by split <;> simp)]; simp [head]
          · simp [head]
      · exact head
  · rfl

/-! ### Cursors and extents -/

@[simp] theorem State.stopCursor_rig (s : State) (cu : Nat) : (s.stopCursor cu).rig = s.rig := by
  unfold State.stopCursor State.dropPlans State.mapPlans; simp

@[simp] theorem State.removeCursor_rig (s : State) (cu : Nat) : (s.removeCursor cu).rig = s.rig := by
  unfold State.removeCursor; split <;> simp

@[simp] theorem State.modSlot_rig (s : State) (h : Nat) (f : PubSlot → PubSlot) : (s.modSlot h f).rig = s.rig := rfl

@[simp] theorem State.leaveRegion_rig (s : State) (base : Nat) : (s.leaveRegion base).rig = s.rig := by
  unfold State.leaveRegion
  split
  · rfl
  · split
    · rfl
    · dsimp only
      split
      · split <;> rfl
      · rw [State.foldl_rig _ (fun s p => by split <;> simp)]; rfl

@[simp] theorem State.dropRequestsIf_rig (s : State) (on : Nat → Bool) : (s.dropRequestsIf on).rig = s.rig := by
  unfold State.dropRequestsIf; dsimp only
  rw [State.foldl_rig _ (fun s r => State.respondRead_rig s r 2 none), State.foldl_rig _ (fun s w => State.complete_rig s w 2),
    State.foldl_rig _ (fun s (j : Nat × Job) => State.endJob_rig s j.1 true)]
  rfl

@[simp] theorem State.dropLinesIf_rig (s : State) (on : Nat → Bool) : (s.dropLinesIf on).rig = s.rig := by
  unfold State.dropLinesIf; dsimp only
  rw [State.foldl_rig _ (fun s q => by simp), State.foldl_rig _ (fun s q => by split <;> simp)]
  rfl

@[simp] theorem State.freeExtent_rig (s : State) (base : Nat) : (s.freeExtent base).rig = s.rig := by
  unfold State.freeExtent State.dropRequests State.dropLines
  split
  · rfl
  · dsimp only
    simp only [State.setPool_rig, apply_ite State.rig, State.bgDoneOp_rig, State.setDir_rig, repayPass_rig, State.leaveRegion_rig, ite_self]
    rw [State.foldl_rig _ (fun s p => by split <;> simp)]
    simp

@[simp] theorem State.releaseEnds_rig (s : State) : s.releaseEnds.rig = s.rig := by
  refine State.foldl_rig _ (fun s r => ?_) _ s
  dsimp only
  split <;> simp

/-! ### Tenant contexts and links -/

@[simp] theorem State.dropIdleCursors_rig (s : State) (cs : List Nat) : (s.dropIdleCursors cs).rig = s.rig := by
  unfold State.dropIdleCursors
  rw [State.releaseEnds_rig, State.foldl_rig _ (fun s c => by split <;> simp)]

@[simp] theorem State.setTenants_rig (s : State) (l : List (Nat × Nat)) : (s.setRst { s.rst with tenants := l }).rig = s.rig := rfl

@[simp] theorem State.resetTenantNow_rig (s : State) (t : Nat) : (s.resetTenantNow t).rig = s.rig := by
  unfold State.resetTenantNow
  extract_lets s1 cs s2 qs s3 s4
  calc _ = s4.rig := State.setTenants_rig s4 _
    _ = s3.rig := by simp [s4]
    _ = s2.rig := by simp only [s3, State.abandonLoad_rig]; exact State.foldl_rig _ State.closeSeq_rig _ _
    _ = s1.rig := by simp only [s2, State.dropIdleCursors_rig]; exact State.foldl_rig _ State.stopCursor_rig _ _
    _ = s.rig := State.foldl_rig _ (fun s e => by simp) _ _

@[simp] theorem tenantReset_rig (t : Nat) (s : State) : (tenantReset t s).rig = s.rig := by
  unfold tenantReset
  split
  · rfl
  · split
    · split <;> simp
    · simp

@[simp] theorem State.resetWaiting_rig (s : State) : s.resetWaiting.rig = s.rig := by
  unfold State.resetWaiting
  split
  · rfl
  · exact State.foldl_rig _ (fun s (t : Nat × Nat) => State.resetTenantNow_rig s t.1) _ s

@[simp] theorem State.resetPf1_rig (s : State) (p : Nat) (keep : Bool) : (s.resetPf1 p keep).rig = s.rig := by
  unfold State.resetPf1; dsimp only
  rw [State.modIface_rig, State.modFn_rig, State.foldl_rig _ (fun s t => State.modFn_rig s (.vf t) _),
    State.foldl_rig _ (fun s t => tenantReset_rig t s)]

@[simp] theorem State.resetLink_rig (s : State) (l : Nat) (keep : Bool) : (s.resetLink l keep).rig = s.rig := by
  unfold State.resetLink; dsimp only
  split <;> simp

end Sys2Proof.Machine
end

section
/-! What a lost slice takes with it (15 R521-R525; 14 R487; 18 R576): tray accesses, a handover, a self-test, homes, queues and rebuilds. None
of it writes a record of a slice, a clock or a link's state. -/
namespace Sys2Proof.Machine
open Sys2Proof

/-! ### Trays, handovers and self-test -/

@[simp] theorem State.answerReads_rig (s : State) (n : Nat) : (s.answerReads n).rig = s.rig := by
  refine State.foldl_rig _ (fun s r => ?_) _ s
  split <;> simp

@[simp] theorem State.farFailed_rig (s : State) (i : Item) : (s.farFailed i).rig = s.rig := by
  have answer (s : State) : (s.answerItem i).rig = s.rig := by unfold State.answerItem; split <;> simp
  unfold State.farFailed
  rw [answer]
  split <;> simp

@[simp] theorem State.tagFails_rig (s : State) (e : Nat) : (s.tagFails e).rig = s.rig := by
  unfold State.tagFails State.setTag
  dsimp only
  split <;> simp

@[simp] theorem tp0Error_rig (mask : Nat) (s : State) : (tp0Error mask s).rig = s.rig :=
  State.foldl_rig _ State.tagFails_rig _ _

@[simp] theorem State.releaseHeld_rig (s : State) : s.releaseHeld.rig = s.rig := rfl

@[simp] theorem State.pauseEnds_rig (s : State) (h : Handover) : (s.pauseEnds h).rig = s.rig := by
  unfold State.pauseEnds State.flushRecords
  dsimp only
  rw [State.releaseHeld_rig, State.foldl_rig _ (fun s r => State.recordNow_rig s _ _ _)]
  rfl

@[simp] theorem State.fwTo_rig (s : State) (new result : Nat) (version : Bytes) (kind scope detail offset : Nat) (mask : Option Nat) :
    (s.fwTo new result version kind scope detail offset mask).rig = s.rig := by
  unfold State.fwTo State.fwRecord
  dsimp only
  split <;> simp

@[simp] theorem State.activationEnds_rig (s : State) (h : Handover) (result : Nat) : (s.activationEnds h result).rig = s.rig := by
  unfold State.activationEnds
  split
  · simp
  · rfl

@[simp] theorem State.handoverHit_rig (s : State) : s.handoverHit.rig = s.rig := by
  unfold State.handoverHit State.handoverFails State.handoverEnds
  split
  · rfl
  · split
    · rfl
    · dsimp only; split <;> simp

@[simp] theorem State.putRun_rig (s : State) (r : BistRun) : (s.putRun r).rig = s.rig := rfl

@[simp] theorem State.suiteBegins_rig (s : State) (n k : Nat) : (s.suiteBegins n k).rig = s.rig := by
  unfold State.suiteBegins; split <;> rfl

@[simp] theorem State.bistAdvance_rig (s : State) (num : Nat) : (s.bistAdvance num).rig = s.rig := by
  unfold State.bistAdvance
  split
  · rfl
  · extract_lets u
    have begun : u.rig = s.rig := by
      refine State.foldl_rig _ (fun s n => ?_) _ s
      split
      · rfl
      · split
        · rfl
        · split <;> simp
    rw [← begun]
    split
    · rfl
    · split
      · rfl
      · split <;> simp

@[simp] theorem State.bistInterrupt_rig (s : State) (n : Nat) : (s.bistInterrupt n).rig = s.rig := by
  unfold State.bistInterrupt
  split
  · rfl
  · dsimp only; split <;> simp

/-! ### What a lost slice held -/

@[simp] theorem State.dropRangefinder_rig (s : State) (n : Nat) : (s.dropRangefinder n).rig = s.rig := by
  unfold State.dropRangefinder
  dsimp only
  rw [State.setEng_rig, State.foldl_rig _ (fun s m => by simp)]

@[simp] theorem State.endRebuild_rig (s : State) (o : Nat) (r : Rebuild) : (s.endRebuild o r).rig = s.rig := by
  unfold State.endRebuild; dsimp only
  split <;> simp

@[simp] theorem State.loseSpares_rig (s : State) (n : Nat) : (s.loseSpares n).rig = s.rig := by
  have degrade (s : State) (l : List Nat) (g : Nat) :
      (l.foldl (fun s k => s.modEccReg k fun e => { e with degraded := setBit e.degraded g true }) s).rig = s.rig :=
    State.foldl_rig _ (fun s k => State.modEccReg_rig s k _) l s
  have ended (s : State) (l : List Rebuild) (o : Nat) : (l.foldl (fun s r => s.endRebuild o r) s).rig = s.rig :=
    State.foldl_rig _ (fun s r => State.endRebuild_rig s o r) l s
  unfold State.loseSpares; dsimp only
  rw [State.foldl_rig _ (fun s e => by simp [ended]), ended]
  split
  · exact State.foldl_rig _ (fun s g => by simp [degrade]) _ s
  · rfl

@[simp] theorem State.loseQueues_rig (s : State) (n : Nat) : (s.loseQueues n).rig = s.rig :=
  State.foldl_rig _ (fun s (e : QEnt) => State.jobStep_rig s e.job) _ _

@[simp] theorem State.loseHomes_rig (s : State) (n : Nat) : (s.loseHomes n).rig = s.rig := by
  unfold State.loseHomes; dsimp only
  rw [State.foldl_rig _ (fun s i => State.modEnt_rig s i _)]
  simp

@[simp] theorem State.flushEntries_rig (s : State) (cu q k : Nat) : (s.flushEntries cu q k).rig = s.rig := by
  induction k generalizing s with
  | zero => rfl
  | succ k ih =>
    unfold State.flushEntries
    split
    · rfl
    · dsimp only
      rw [ih]
      split <;> simp

@[simp] theorem State.unbindLost_rig (s : State) (cu : Nat) : (s.unbindLost cu).rig = s.rig := by
  unfold State.unbindLost
  split
  · rfl
  · have flushed (c : Cursor) (s : State) (k : State → Nat) : (c.queues.foldl (fun s q => s.flushEntries cu q.1 (k s)) s).rig = s.rig :=
      State.foldl_rig _ (fun s (q : Nat × Queue) => State.flushEntries_rig s cu q.1 _) _ s
    dsimp only
    split <;> simp [flushed]

@[simp] theorem State.loseModels_rig (s : State) (n : Nat) : (s.loseModels n).rig = s.rig := rfl

@[simp] theorem State.signalAffected_rig (s : State) (ended closed : List Nat) : (s.signalAffected ended closed).rig = s.rig := by
  unfold State.signalAffected; dsimp only
  rw [State.foldl_rig _ (fun s t => State.signal_rig s (.vf t) 1), State.foldl_rig _ (fun s p => State.signal_rig s (.pf1 p) 1)]

@[simp] theorem State.signalError_rig (s : State) : s.signalError.rig = s.rig := State.signalPf0_rig s 5

end Sys2Proof.Machine
end

section
/-! Links that go down and slices that are lost: what becomes of the states of links and of the records of slices (12 R410; 15 R521-R525). -/
namespace Sys2Proof.Machine
open Sys2Proof

/-! ### Clocks -/

@[simp] theorem State.freqDone_rst (s : State) : s.freqDone.rst = s.rst := by
  unfold State.freqDone
  split
  · rfl
  · split <;> simp

@[simp] theorem State.freqPart_rst (s : State) (n reason : Nat) : (s.freqPart n reason).rst = s.rst := by
  unfold State.freqPart
  split
  · rfl
  · split <;> simp

@[simp] theorem State.freqCancel_rst (s : State) (n reason : Nat) : (s.freqCancel n reason).rst = s.rst := by
  unfold State.freqCancel; split <;> simp

/-! ### Links -/

/-- The links' states, resets and failures with link `l` down. -/
def State.linkRigDown (s : State) (l k : Nat) : Nat × Bool × Bool :=
  if k = l then (3, (s.port l).perst, (s.port l).failed) else s.linkRig k

/-- A link that goes down is down, and no other link changes its state. -/
theorem State.linkLost_rig (s : State) (l : Nat) : (s.linkLost l).rig =
    if (s.port l).link = 1 ∨ (s.port l).link = 2 then
      { s.rig with links := s.linkRigDown l } else s.rig := by
  by_cases up : (s.port l).link = 1 ∨ (s.port l).link = 2
  · have unfolded : s.linkLost l = (s.modPort l fun p => { p with link := 3, speed := 0, width := 0, linkDowns := p.linkDowns + 1 }).resetLink l true := by
      unfold State.linkLost
      rcases up with up | up <;> simp [up]
    have links : (s.modPort l fun p => { p with link := 3, speed := 0, width := 0, linkDowns := p.linkDowns + 1 }).linkRig =
        s.linkRigDown l := by
      funext k
      by_cases e : k = l
      · subst e; simp [State.linkRig, State.linkRigDown]
      · simp [State.linkRig, State.linkRigDown, State.port_modPort_other s l k _ (Ne.symm e), e]
    rw [unfolded, State.resetLink_rig, if_pos up, ← links]
    rfl
  · have unfolded : s.linkLost l = s := by
      unfold State.linkLost
      rw [not_or] at up
      simp [up]
    rw [unfolded, if_neg up]

/-! ### The loss of a slice (15 R521-R525) -/

/-- The records of the slices and the degraded indication. -/
def State.standing (s : State) : Tab SliceRst × Bool := (s.rst.slices, s.rst.degraded)

theorem State.standing_of_rig {s t : State} (h : t.rig = s.rig) : t.standing = s.standing :=
  show (t.rig.slices, t.rig.degraded) = (s.rig.slices, s.rig.degraded) by rw [h]

theorem State.standing_of_rst {s t : State} (h : t.rst = s.rst) : t.standing = s.standing := by
  simp [State.standing, h]

theorem State.linkLost_standing (s : State) (l : Nat) : (s.linkLost l).standing = s.standing := by
  have rig := State.linkLost_rig s l
  split at rig
  · show ((s.linkLost l).rig.slices, (s.linkLost l).rig.degraded) = _
    rw [rig]; rfl
  · exact State.standing_of_rig rig

/-- The ports of a lost slice go down; the records of the slices stay. -/
theorem State.losePorts_standing (s : State) (n : Nat) : (s.losePorts n).standing = s.standing := by
  unfold State.losePorts
  extract_lets s1 ps s2 s3
  have hosts : s1.standing = s.standing := foldl_keeps State.standing _ State.linkLost_standing _ s
  have peers : s2.rig = s1.rig := State.foldl_rig _ (fun s p => State.modPeer_rig s p _) _ _
  have signalled : s3.rig = s2.rig := by unfold s3; split <;> simp
  have tray : (if n = 1 && hasTp s3.cfg then
      (tp0Error 0xFFFF s3).setFab { (tp0Error 0xFFFF s3).fab with tpLink := 3, tpSpeed := 0, tpWidth := 0 } else s3).rig = s3.rig := by
    split <;> simp
  rw [State.standing_of_rig (tray.trans (signalled.trans peers)), hosts]

/-- The record of a lost slice. -/
def lostRec (cause : Nat) (r : SliceRst) : SliceRst := { r with state := 4, lastCause := cause, parked := false }

/-- The loss of a slice writes its own record and the degraded indication; all that follows from it writes neither. -/
theorem sliceLost_standing {n : Nat} {s : State} (cause : Nat) (up : s.up n = true) :
    (sliceLost n cause s).standing = (tabMod {} s.rst.slices n (lostRec cause), true) := by
  unfold sliceLost
  rw [if_neg (by simp [up])]
  extract_lets hit was writers gone ended also closed marked _ lost _ mastered cancelled stopped stepped closedSeqs abandoned unbound
    planless _ unadvanced emptied tabled frozen ported settled
  have before : marked.rig = s.rig := by simp [marked, hit]
  have at_loss : lost.standing = (tabMod {} s.rst.slices n (lostRec cause), true) := by
    show (tabMod {} marked.rig.slices n (lostRec cause), true) = _
    rw [before]; rfl
  have clocks : stopped.standing = lost.standing := by
    show cancelled.standing = mastered.standing
    exact State.standing_of_rst (by simp [cancelled])
  have engine : unadvanced.rig = stopped.rig := calc
    unadvanced.rig = abandoned.rig := by
      simp only [unadvanced, planless, unbound, State.setEng_rig, State.dropRangefinder_rig, State.releaseEnds_rig]
      exact State.foldl_rig _ State.unbindLost_rig _ _
    _ = closedSeqs.rig := State.foldl_rig _ (fun s l => State.abandonLoad_rig s _ _) _ _
    _ = stepped.rig := State.foldl_rig _ (fun s q => State.closeSeq_rig s _) _ _
    _ = stopped.rig := State.foldl_rig _ (fun s e => State.resetStep_rig s 9 _) _ _
  have memory : frozen.rig = unadvanced.rig := by
    simp only [frozen, tabled, emptied]
    rw [State.foldl_rig _ (fun s l => State.freezePort_rig s l 5)]
    simp
  have ports : ported.standing = frozen.standing := by
    rw [State.standing_of_rig (State.signalError_rig _), State.losePorts_standing]
  have rest : settled.rig = ported.rig := by simp [settled]
  have held : (if was then settled.releaseHeld else settled).rig = settled.rig := by split <;> simp
  rw [State.standing_of_rig (held.trans rest), ports, State.standing_of_rig (memory.trans engine), clocks, at_loss]

theorem sliceLost_sl {n : Nat} {s : State} (cause : Nat) (up : s.up n = true) : (sliceLost n cause s).sl n = lostRec cause (s.sl n) := by
  have slices : (sliceLost n cause s).rst.slices = _ := congrArg Prod.fst (sliceLost_standing cause up)
  simp [State.sl, slices]

theorem sliceLost_sl_other {n k : Nat} {s : State} (cause : Nat) (up : s.up n = true) (h : n ≠ k) : (sliceLost n cause s).sl k = s.sl k := by
  have slices : (sliceLost n cause s).rst.slices = _ := congrArg Prod.fst (sliceLost_standing cause up)
  simp only [State.sl, slices]
  exact tabGet_tabMod_other _ _ _ _ _ _ h

theorem sliceLost_degraded {n : Nat} {s : State} (cause : Nat) (up : s.up n = true) : (sliceLost n cause s).rst.degraded = true :=
  congrArg Prod.snd (sliceLost_standing cause up)

end Sys2Proof.Machine
end

section
/-! Changes of the engine clock of one slice: FREQ_SET, what defers a change, and its completion (16 R548-R552). -/
namespace Sys2Proof.Machine
open Sys2Proof Sys2Proof.Claims

/-! ### Bits -/

theorem bit_two_pow (n k : Nat) : bit (2 ^ n) k = decide (n = k) := by rw [bit_eq_testBit, Nat.testBit_two_pow]

theorem bit_zero (k : Nat) : bit 0 k = false := by rw [bit_eq_testBit, Nat.zero_testBit]

theorem setBit_zero (k : Nat) : setBit 0 k true = 2 ^ k := by simp [setBit, bit_zero]

theorem setBit_false_of_bit {m k : Nat} (h : bit m k = true) : setBit m k false = m - 2 ^ k := by simp [setBit, h]

theorem bit_setBit_false (m k : Nat) : bit (setBit m k false) k = false := by
  cases h : bit m k with
  | false => simp [setBit, h]
  | true =>
    rw [setBit_false_of_bit h]
    simp only [bit, Nat.shiftRight_eq_div_pow, beq_iff_eq, beq_eq_false_iff_ne] at h ⊢
    have less : (m - 2 ^ k) / 2 ^ k = m / 2 ^ k - 1 := by simpa using Nat.sub_mul_div m (2 ^ k) 1
    omega

/-- Only the mask of one bit is empty without it. -/
theorem setBit_false_eq_zero {m k : Nat} (h : bit m k = true) : setBit m k false = 0 ↔ m = 2 ^ k := by
  have low : 2 ^ k ≤ m := Nat.ge_two_pow_of_testBit (by rw [← bit_eq_testBit, h])
  rw [setBit_false_of_bit h]
  omega

theorem filter_bit_two_pow {n : Nat} (h : n < 8) : (List.range 8).filter (bit (2 ^ n)) = [n] := by
  have all : ∀ m < 8, (List.range 8).filter (bit (2 ^ m)) = [m] := by decide
  exact all n h

/-! ### A FREQ_SET of one slice (16 R552) -/

theorem State.iface_bgDone {s : State} {v : Iface} {op : Nat} (r : Ret) (p : Bytes) (runs : (s.iface v).bg.map (·.opcode) = some op) :
    (s.bgDone v op r p).iface v = { s.iface v with bg := none, lastBg := some (op, r), ret := r, opcode := op, payload := p } := by
  unfold State.bgDone
  rw [if_pos (by simp [runs]), State.iface_respond, State.iface_modIface]

@[simp] theorem State.iface_setClk (s : State) (c : Clk) (v : Iface) : (s.setClk c).iface v = s.iface v := rfl
@[simp] theorem State.iface_modCk (s : State) (n : Nat) (f : ClkSlice → ClkSlice) (v : Iface) : (s.modCk n f).iface v = s.iface v := rfl

/-- The only slice of a FREQ_SET ends its part, and the command completes with it applied, or cancelled for a reason. -/
theorem State.freqPart_only {s : State} {v : Iface} {n : Nat} (reason : Nat) (op : s.clk.op = some { via := v, mask := 2 ^ n }) :
    s.freqPart n reason = (s.setClk { s.clk with op := none }).bgDone v 0xC068 .success
      (flds (if reason = 0 then [(1, 2 ^ n), (1, 0), (1, 0)] else [(1, 0), (1, 2 ^ n), (1, reason)])) := by
  unfold State.freqPart
  rw [op]
  by_cases r : reason = 0
  · simp [r, bit_two_pow, bit_zero, State.freqDone, setBit_zero]
    rfl
  · simp [r, bit_two_pow, bit_zero, State.freqDone, setBit_zero, tabSet]
    rfl

/-- A change of the only slice's clock that ends its part: the clock as changed, no FREQ_SET, and the answer. -/
theorem State.modCk_freqPart {s t : State} {v : Iface} {n reason : Nat} {f : ClkSlice → ClkSlice}
    (op : s.clk.op = some { via := v, mask := 2 ^ n }) (runs : (s.iface v).bg.map (·.opcode) = some 0xC068)
    (ends : t = (s.modCk n f).freqPart n reason) :
    t.ck n = f (s.ck n) ∧ t.clk.op = none ∧ (t.iface v).bg = none ∧ (t.iface v).ret = .success ∧
    (t.iface v).payload = flds (if reason = 0 then [(1, 2 ^ n), (1, 0), (1, 0)] else [(1, 0), (1, 2 ^ n), (1, reason)]) := by
  rw [State.freqPart_only (s := s.modCk n f) reason op] at ends
  have ck : t.ck n = (s.modCk n f).ck n := by rw [ends]; simp [State.ck]
  rw [ck, State.ck_modCk, ends, State.iface_bgDone _ _ (by simpa using runs)]
  simp

/-! ### A change of the step in force (16 R550, R551) -/

theorem State.retarget_same {s : State} {n : Nat} (same : max (s.ck n).reqStep (s.ck n).thrStep = (s.ck n).effStep) :
    s.retarget n = (s.modCk n fun c => { c with pending := false, deferCause := 0, relock := false }).freqPart n 0 := by
  simp [State.retarget, State.wantedStep, same]

theorem State.retarget_parked {s : State} {n : Nat} (change : max (s.ck n).reqStep (s.ck n).thrStep ≠ (s.ck n).effStep)
    (free : s.deferral n = 0) (parked : (s.sl n).parked = true) :
    s.retarget n = (s.modCk n fun c => { c with effStep := max (s.ck n).reqStep (s.ck n).thrStep, changes := c.changes + 1,
                                                 pending := false, deferCause := 0 }).freqPart n 0 := by
  simp [State.retarget, State.wantedStep, change, free, parked]

theorem State.retarget_running {s : State} {n : Nat} (change : max (s.ck n).reqStep (s.ck n).thrStep ≠ (s.ck n).effStep)
    (free : s.deferral n = 0) (running : (s.sl n).parked = false) :
    s.retarget n = s.modCk n fun c => { c with pending := true, deferCause := 0 } := by
  simp [State.retarget, State.wantedStep, change, free, running]

/-- What defers a change is read from the resets and the controllers. -/
theorem State.deferral_congr {s t : State} (rst : t.rst = s.rst) (drc : t.drc = s.drc) (n : Nat) : t.deferral n = s.deferral n := by
  have training : t.training n = s.training n := by simp only [State.training, drc]
  have sl : t.sl n = s.sl n := by simp only [State.sl, rst]
  unfold State.deferral
  rw [training, sl]

/-! ### FREQ_SET -/

/-- FREQ_SET of one slice is started: its response, its background operation and its record among the clocks. -/
def State.freqStarted (s : State) (via : Iface) (n : Nat) : State :=
  let t := (s.modIface via fun x => { x with bg := some { opcode := 0xC068, args := [] } }).respond via 0xC068 .backgroundStarted []
  t.setClk { t.clk with op := some { via := via, mask := 2 ^ n } }

/-- FREQ_SET of one slice has named its step. -/
def State.freqAsked (s : State) (via : Iface) (n st : Nat) : State :=
  (s.freqStarted via n).modCk n fun c => { c with priorStep := if c.pending then c.priorStep else c.reqStep, reqStep := st }

variable {via : Iface} {inp : Bytes} {n st : Nat} {s : State}

@[simp] theorem State.freqAsked_rst : (s.freqAsked via n st).rst = s.rst := by simp [State.freqAsked, State.freqStarted]
@[simp] theorem State.freqAsked_sl : (s.freqAsked via n st).sl n = s.sl n := by simp [State.sl]
@[simp] theorem State.freqAsked_drc : (s.freqAsked via n st).drc = s.drc := by simp [State.freqAsked, State.freqStarted]
@[simp] theorem State.freqAsked_deferral : (s.freqAsked via n st).deferral n = s.deferral n :=
  State.deferral_congr State.freqAsked_rst State.freqAsked_drc n

@[simp] theorem State.freqAsked_ck : (s.freqAsked via n st).ck n =
    { s.ck n with priorStep := if (s.ck n).pending then (s.ck n).priorStep else (s.ck n).reqStep, reqStep := st } := by
  have kept : (s.freqStarted via n).ck n = s.ck n := by simp [State.freqStarted, State.ck]
  rw [State.freqAsked, State.ck_modCk, kept]

@[simp] theorem State.freqAsked_op : (s.freqAsked via n st).clk.op = some { via := via, mask := 2 ^ n } := rfl

@[simp] theorem State.freqAsked_iface : (s.freqAsked via n st).iface via =
    { s.iface via with bg := some { opcode := 0xC068, args := [] }, ret := .backgroundStarted, opcode := 0xC068, payload := [] } := by
  show ((s.modIface via _).respond via 0xC068 .backgroundStarted []).iface via = _
  rw [State.iface_respond, State.iface_modIface]

/-- FREQ_SET of one slice that serves, on an interface that takes it. -/
theorem exec_freqSet (accepted : Accepted rowFreqSet via inp.length s) (mask : fld inp 0 1 = 2 ^ n) (small : n < 8) (there : n < s.cfg.slices)
    (step : fld inp 1 1 = st) (inRange : st ≤ 4) (free : s.bgBusy via 0xC068 [] = false) (up : s.up n = true) :
    exec (.freqSet via inp) s = .next ((s.freqAsked via n st).retarget n).freqDone := by
  obtain ⟨open_, running, taken⟩ := accepted
  have fits : ¬ (4 < st || 2 ^ s.cfg.slices ≤ 2 ^ n) = true := by
    have := Nat.pow_lt_pow_right (a := 2) (by decide) there
    simp; omega
  have effect : freqSetCmd via inp s = { ret := .backgroundStarted, st := s, after := fun s =>
      (((List.range 8).filter (bit (2 ^ n))).foldl (fun s n =>
        if s.up n then
          (s.modCk n fun c => { c with priorStep := if c.pending then c.priorStep else c.reqStep, reqStep := st }).retarget n
        else s.freqPart n 2) (s.setClk { s.clk with op := some { via := via, mask := 2 ^ n } })).freqDone } := by
    simp only [freqSetCmd, mask, step, if_neg fits]
  have serves : (s.freqStarted via n).up n = true := by simpa [State.up, State.sl, State.freqStarted] using up
  show Host.Outcome.next (mbxCall rowFreqSet (.freqSet via inp) via inp.length s (freqSetCmd via inp)) = _
  rw [mbxCall_background rowFreqSet _ via inp.length s _ open_ running taken (by rw [effect]) (by rw [effect]) (by rw [effect]; exact free) rfl,
    effect]
  simp only [filter_bit_two_pow small, List.foldl_cons, List.foldl_nil]
  exact congrArg (fun t : State => Host.Outcome.next t.freqDone) (if_pos serves)

theorem exec_freqSet_invalid (accepted : Accepted rowFreqSet via inp.length s) (bad : 4 < fld inp 1 1 ∨ 2 ^ s.cfg.slices ≤ fld inp 0 1) :
    exec (.freqSet via inp) s = .next (s.respond via 0xC068 .invalidInput []) := by
  obtain ⟨open_, running, taken⟩ := accepted
  have effect : freqSetCmd via inp s = fail s .invalidInput := by simp [freqSetCmd, bad]
  show Host.Outcome.next (mbxCall rowFreqSet (.freqSet via inp) via inp.length s (freqSetCmd via inp)) = _
  rw [mbxCall_foreground rowFreqSet _ via inp.length s _ open_ running taken (by rw [effect]; rfl) (by rw [effect]; simp [fail]) rfl, effect]
  rfl

theorem State.freqDone_of_none (h : s.clk.op = none) : s.freqDone = s := by simp [State.freqDone, h]

/-- A FREQ_SET of which no part has ended does not complete. -/
theorem State.freqDone_of_waiting (h : s.clk.op = some { via := via, mask := 2 ^ n }) : s.freqDone = s := by
  have nonzero : 0 ≠ 2 ^ n := Nat.ne_of_lt (Nat.two_pow_pos n)
  simp [State.freqDone, h, nonzero]

/-- What a FREQ_SET of one slice gives, on an interface that takes it and a slice that serves and that nothing defers: a slice that
runs relocks, one that is parked changes its step at once, and a step in force is kept. -/
theorem freqSet_gives (accepted : Accepted rowFreqSet via inp.length s) (mask : fld inp 0 1 = 2 ^ n) (small : n < 8) (there : n < s.cfg.slices)
    (step : fld inp 1 1 = st) (free : s.bgBusy via 0xC068 [] = false) (up : s.up n = true) (released : s.deferral n = 0)
    (inRange : st ≤ 4) (slow : (s.ck n).thrStep ≤ st) :
    (st ≠ (s.ck n).effStep → (s.sl n).parked = false → Gives (.freqSet via inp) s fun t => (t.ck n).pending = true ∧
      (t.ck n).deferCause = 0 ∧ (t.ck n).reqStep = st ∧ (t.ck n).effStep = (s.ck n).effStep ∧ (t.iface via).ret = .backgroundStarted ∧
      (t.iface via).bg.map (·.opcode) = some 0xC068 ∧ t.clk.op = some { via := via, mask := 2 ^ n }) ∧
    (st ≠ (s.ck n).effStep → (s.sl n).parked = true → Gives (.freqSet via inp) s fun t => (t.ck n).effStep = st ∧
      (t.ck n).changes = (s.ck n).changes + 1 ∧ t.clk.op = none ∧ (t.iface via).bg = none ∧ (t.iface via).ret = .success ∧
      (t.iface via).payload = flds [(1, 2 ^ n), (1, 0), (1, 0)]) ∧
    (st = (s.ck n).effStep → Gives (.freqSet via inp) s fun t => (t.ck n).effStep = st ∧ (t.ck n).changes = (s.ck n).changes ∧
      t.clk.op = none ∧ (t.iface via).ret = .success ∧ (t.iface via).payload = flds [(1, 2 ^ n), (1, 0), (1, 0)]) := by
  have taken := exec_freqSet accepted mask small there step inRange free up
  have wanted : max ((s.freqAsked via n st).ck n).reqStep ((s.freqAsked via n st).ck n).thrStep = st := by simp [slow]
  have runs : ((s.freqAsked via n st).iface via).bg.map (·.opcode) = some 0xC068 := by simp
  refine ⟨fun change running => ⟨_, taken, ?_⟩, fun change parked => ⟨_, taken, ?_⟩, fun same => ⟨_, taken, ?_⟩⟩
  · rw [State.retarget_running (by rwa [wanted, State.freqAsked_ck]) (by simp [released]) (by simp [running]),
      State.freqDone_of_waiting (via := via) (n := n) rfl]
    simp
  · obtain ⟨ck, op, bg, ret, payload⟩ := State.modCk_freqPart State.freqAsked_op runs
      (State.retarget_parked (by rwa [wanted, State.freqAsked_ck]) (by simp [released]) (by simp [parked]))
    rw [State.freqDone_of_none op, ck]
    exact ⟨wanted, by simp, op, bg, ret, payload⟩
  · obtain ⟨ck, op, -, ret, payload⟩ := State.modCk_freqPart State.freqAsked_op runs
      (State.retarget_same (by rwa [wanted, State.freqAsked_ck]))
    rw [State.freqDone_of_none op, ck]
    exact ⟨by simp [same], by simp, op, ret, payload⟩

/-! ### Deferral and completion (16 R549-R552) -/

theorem exec_engFreqChange (pending : (s.ck n).pending = true) (free : (s.ck n).deferCause = 0) (runs : (s.ck n).relock = false)
    (released : s.deferral n = 0) : exec (.engFreqChange n) s = .next (s.modCk n fun c => { c with relock := true }) := by
  show Host.Outcome.next (freqChange n s) = _
  simp [freqChange, pending, free, runs, released]

theorem exec_freqChangeDeferEnd_running (pending : (s.ck n).pending = true) (deferred : (s.ck n).deferCause ≠ 0) (up : s.up n = true)
    (released : s.deferral n = 0) (running : (s.sl n).parked = false) (change : max (s.ck n).reqStep (s.ck n).thrStep ≠ (s.ck n).effStep) :
    exec (.freqChangeDeferEnd n) s = .next (s.modCk n fun c => { c with pending := true, deferCause := 0 }) := by
  show Host.Outcome.next (freqDeferEnd n s) = _
  rw [freqDeferEnd, if_pos (by simp [pending, deferred]), if_pos up, State.retarget_running change released running]

/-- A change that waits on a slice that serves no longer is cancelled with reason 2. -/
theorem freqChangeDeferEnd_cancels {v : Iface} (pending : (s.ck n).pending = true) (deferred : (s.ck n).deferCause ≠ 0)
    (waits : (s.ck n).relock = false) (down : s.up n = false) (op : s.clk.op = some { via := v, mask := 2 ^ n })
    (runs : (s.iface v).bg.map (·.opcode) = some 0xC068) : Gives (.freqChangeDeferEnd n) s fun t => (t.ck n).pending = false ∧
      (t.ck n).reqStep = (s.ck n).priorStep ∧ (t.ck n).effStep = (s.ck n).effStep ∧ (t.iface v).ret = .success ∧
      (t.iface v).payload = flds [(1, 0), (1, 2 ^ n), (1, 2)] := by
  have cancels : freqDeferEnd n s = (s.modCk n fun c => { c with pending := false, deferCause := 0, reqStep := c.priorStep }).freqPart n 2 := by
    simp [freqDeferEnd, State.freqCancel, pending, deferred, waits, down]
  obtain ⟨ck, -, -, ret, payload⟩ := State.modCk_freqPart op runs cancels
  refine ⟨freqDeferEnd n s, rfl, ?_⟩
  dsimp only
  rw [ck]
  exact ⟨rfl, rfl, rfl, ret, payload⟩

/-- The clock runs again, and with nothing that waited for it the FREQ_SET completes. -/
theorem engFreqChangeDone_applies {v : Iface} (relock : (s.ck n).relock = true) (quiet : (s.ck n).busyGroups = []) (idle : (s.ck n).latest = [])
    (op : s.clk.op = some { via := v, mask := 2 ^ n }) (runs : (s.iface v).bg.map (·.opcode) = some 0xC068) :
    Gives (.engFreqChangeDone n) s fun t => (t.ck n).effStep = max (s.ck n).reqStep (s.ck n).thrStep ∧
      (t.ck n).changes = (s.ck n).changes + 1 ∧ (t.ck n).pending = false ∧ (t.ck n).relock = false ∧ t.clk.op = none ∧
      (t.iface v).bg = none ∧ (t.iface v).ret = .success ∧ (t.iface v).payload = flds [(1, 2 ^ n), (1, 0), (1, 0)] := by
  have applies : freqChangeDone n s = (s.modCk n fun c => { c with
      effStep := s.wantedStep n, changes := c.changes + 1, pending := false, relock := false, priorStep := c.reqStep }).freqPart n 0 := by
    simp [freqChangeDone, relock]
  obtain ⟨ck, noOp, bg, ret, payload⟩ := State.modCk_freqPart op runs applies
  have lines : (freqChangeDone n s).deliverLines n = (freqChangeDone n s).modCk n fun k => { k with latest := [] } := by
    simp [State.deliverLines, ck, idle]
  have events : ((freqChangeDone n s).deliverLines n).deliverEvents n = (freqChangeDone n s).deliverLines n := by
    simp [lines, State.deliverEvents, ck, quiet]
  refine ⟨_, congrArg Host.Outcome.next (events.trans lines), ?_⟩
  dsimp only
  rw [State.ck_modCk, ck]
  exact ⟨rfl, rfl, rfl, rfl, noOp, bg, ret, payload⟩

end Sys2Proof.Machine
end

section
/-! References that are lost and the next present source (16 R532, R533; 12 R385, R410, R416). -/
namespace Sys2Proof.Machine
open Sys2Proof Sys2Proof.Claims

/-! ### An idle engine (15 R526) -/

theorem engineIdle_congr {s t : State} (idle : EngineIdle s) (eng : t.eng = s.eng) (pool : t.pool = s.pool)
    (slices : t.rst.slices = s.rst.slices) : EngineIdle t := by
  obtain ⟨steps, cursors, seqs, loads, releasing, drains⟩ := idle
  exact ⟨by rw [eng, steps], by rw [eng, cursors], by rw [eng, seqs], by rw [eng, loads], by rw [pool, releasing],
    fun n h => by rw [State.sl, slices]; exact drains n h⟩

/-- With an idle engine the reset of a tenant context reaches its function and the list of waiting resets alone. -/
theorem State.resetTenantNow_of_idle {s : State} (idle : EngineIdle s) (t : Nat) : s.resetTenantNow t =
    (((s.signal (.vf t) 1).modFn (.vf t) fun f => { f with vecs := [], sticky := 0, curSel := 0, curSnap := none }).setRst
      { s.rst with tenants := s.rst.tenants.filter fun x => x.1 != t }) := by
  obtain ⟨steps, cursors, seqs, loads, releasing, -⟩ := idle
  have ends : s.releaseEnds = s := by simp [State.releaseEnds, releasing]
  have load : s.abandonLoad t .aborted = s := by simp [State.abandonLoad, State.loadOf, loads]
  simp [State.resetTenantNow, State.stepsIf, State.dropIdleCursors, steps, cursors, seqs, ends, load]

theorem tenantReset_of_idle {s : State} (idle : EngineIdle s) (t : Nat) : (tenantReset t s).ports = s.ports ∧ EngineIdle (tenantReset t s) := by
  have ⟨_, _, _, _, _, undrained⟩ := idle
  have drains : ((List.range 8).any fun n => (s.sl n).state == 2) = false := by simpa [List.any_eq_false] using undrained
  unfold tenantReset
  split
  · exact ⟨rfl, idle⟩
  · rw [drains, if_neg (by decide), State.resetTenantNow_of_idle idle]
    exact ⟨by simp, engineIdle_congr idle (by simp) (by simp) (by simp)⟩

theorem foldl_tenantReset_of_idle {s : State} (idle : EngineIdle s) (ts : List Nat) :
    (ts.foldl (fun s t => tenantReset t s) s).ports = s.ports := by
  induction ts generalizing s with
  | nil => rfl
  | cons t ts ih =>
    obtain ⟨ports, idle⟩ := tenantReset_of_idle idle t
    rw [List.foldl_cons, ih idle, ports]

theorem State.resetPf1_port_of_idle {s : State} (idle : EngineIdle s) (p : Nat) (keep : Bool) (k : Nat) :
    (s.resetPf1 p keep).port k = s.port k := by
  have ports : (s.resetPf1 p keep).ports = s.ports := by
    unfold State.resetPf1; dsimp only
    rw [State.modIface_ports, State.modFn_ports, foldl_keeps State.ports _ (fun s t => State.modFn_ports s (.vf t) _),
      foldl_tenantReset_of_idle idle]
  rw [State.port, ports, State.port]

/-! ### A link that goes down leaves the other links (12 R410) -/

/-- A reset of a link of half 1, or with an idle engine, reaches no other link. -/
theorem State.resetLink_port_other {s : State} {l k : Nat} (keep : Bool) (alone : l % 2 = 1 ∨ EngineIdle s) (other : l ≠ k) :
    (s.resetLink l keep).port k = s.port k := by
  unfold State.resetLink
  extract_lets changed masked
  have own : masked.port k = s.port k := by
    show changed.port k = _
    exact State.port_modPort_other s l k _ other
  have idle : EngineIdle s → EngineIdle masked := fun idle => engineIdle_congr idle rfl rfl rfl
  clear_value masked
  split
  next even => rw [State.resetPf1_port_of_idle (idle (alone.resolve_left (by omega))), own]
  · exact own

theorem State.linkLost_port_other {s : State} {l k : Nat} (alone : l % 2 = 1 ∨ EngineIdle s) (other : l ≠ k) :
    (s.linkLost l).port k = s.port k := by
  unfold State.linkLost
  extract_lets p
  split
  · rfl
  · generalize down : (s.modPort l _) = t
    have alone : l % 2 = 1 ∨ EngineIdle t := by
      subst down
      exact alone.imp_right fun idle => engineIdle_congr idle rfl rfl rfl
    rw [State.resetLink_port_other true alone other, ← down, State.port_modPort_other s l k _ other]

theorem State.linkLost_linkRig (s : State) (l k : Nat) : (s.linkLost l).linkRig k =
    if k = l ∧ ((s.port l).link = 1 ∨ (s.port l).link = 2) then (3, (s.port l).perst, (s.port l).failed) else s.linkRig k := by
  have rig : (s.linkLost l).linkRig = (s.linkLost l).rig.links := rfl
  rw [rig, State.linkLost_rig]
  by_cases up : (s.port l).link = 1 ∨ (s.port l).link = 2
  · by_cases e : k = l
    · simp [up, e, State.linkRigDown]
    · simp [up, e, State.linkRigDown]
  · simp [up, State.rig]

theorem State.linkLost_link (s : State) (l k : Nat) : ((s.linkLost l).port k).link =
    if k = l ∧ ((s.port l).link = 1 ∨ (s.port l).link = 2) then 3 else (s.port k).link := by
  have link := congrArg Prod.fst (State.linkLost_linkRig s l k)
  rw [apply_ite Prod.fst] at link
  exact link

/-- A link that is down stays down as links go down. -/
theorem State.foldl_linkLost_down {s : State} {k : Nat} (ls : List Nat) (down : (s.port k).link = 3) :
    ((ls.foldl (fun s l => s.linkLost l) s).port k).link = 3 := by
  induction ls generalizing s with
  | nil => exact down
  | cons l ls ih => exact ih (by rw [State.linkLost_link]; split <;> simp [down])

/-- Every link of a list that is up goes down. -/
theorem State.foldl_linkLost_up {s : State} {k : Nat} {ls : List Nat} (mem : k ∈ ls) (up : (s.port k).link = 2) :
    ((ls.foldl (fun s l => s.linkLost l) s).port k).link = 3 := by
  induction ls generalizing s with
  | nil => simp at mem
  | cons l ls ih =>
    by_cases e : k = l
    · exact State.foldl_linkLost_down ls (by rw [State.linkLost_link, ← e]; simp [up])
    · exact ih (List.mem_of_ne_of_mem e mem) (by rw [State.linkLost_link]; simp [e, up])

/-! ### References (16 R532, R533) -/

/-- A link that loses its reference: it goes down, and shows that its reference is gone. -/
def State.linkUnclocked (s : State) (l : Nat) : State :=
  (s.linkLost l).modPort l fun p => { p with noRefclk := true, link := if p.perst || p.failed then p.link else 3 }

theorem State.linkUnclocked_clk (s : State) (l : Nat) : (s.linkUnclocked l).clk = s.clk := by
  show (s.linkLost l).rig.clk = _
  rw [State.linkLost_rig]
  split <;> rfl

theorem State.linkUnclocked_port {s : State} {l : Nat} (perst : (s.port l).perst = false) (failed : (s.port l).failed = false) :
    ((s.linkUnclocked l).port l).noRefclk = true ∧ ((s.linkUnclocked l).port l).link = 3 := by
  have kept : ((s.linkLost l).linkRig l).2 = (false, false) := by
    rw [State.linkLost_linkRig]
    split <;> simp [State.linkRig, perst, failed]
  have perst' : ((s.linkLost l).port l).perst = false := congrArg Prod.fst kept
  have failed' : ((s.linkLost l).port l).failed = false := congrArg Prod.snd kept
  simp [State.linkUnclocked, perst', failed']

theorem State.linkUnclocked_port_other {s : State} {l k : Nat} (alone : l % 2 = 1 ∨ EngineIdle s) (other : l ≠ k) :
    (s.linkUnclocked l).port k = s.port k :=
  (State.port_modPort_other _ l k _ other).trans (State.linkLost_port_other alone other)

/-- The clocks as the core PLLs lose the reference of a host port and hold over. -/
def State.heldOver (s : State) (p : Nat) : State :=
  s.setClk { s.clk with holdover := some s.tbc, hpRef := setBit s.clk.hpRef p false }

variable {s : State}

/-- From step 5 on, and out of holdover, a lost reference takes effect. -/
theorem not_refIgnored (started : 5 ≤ s.rst.phase) (locked : s.clk.holdover = none) :
    ¬ (decide (s.rst.phase < 5) || s.clk.holdover.isSome) = true := by
  simp [locked]; omega

/-- A lost reference of a host port takes the port's links down, half 0 first. -/
theorem refLost_of_hostPort {p : Nat} (started : 5 ≤ s.rst.phase) (locked : s.clk.holdover = none) (ref : s.clk.coreRef = p) (small : p < 4)
    (fitted : linkFitted s.cfg (2 * p) = true) : refLost s =
      if linkFitted s.cfg (2 * p + 1) then ((s.heldOver p).linkUnclocked (2 * p)).linkUnclocked (2 * p + 1)
      else (s.heldOver p).linkUnclocked (2 * p) := by
  have clk : ({ s.clk with holdover := some s.tbc, hpRef := if s.clk.coreRef < 4 then setBit s.clk.hpRef s.clk.coreRef false else s.clk.hpRef,
                           tpRef := s.clk.tpRef && s.clk.coreRef != 4, mgRef := s.clk.mgRef && s.clk.coreRef != 5 } : Clk) =
      (s.heldOver p).clk := by
    have tp : (p != 4) = true := by simp; omega
    have mg : (p != 5) = true := by simp; omega
    simp [State.heldOver, ref, small, tp, mg]
  unfold refLost
  rw [if_neg (not_refIgnored started locked)]
  dsimp only
  rw [clk, if_pos (ref ▸ small), ref]
  change ([2 * p, 2 * p + 1].filter (linkFitted s.cfg)).foldl State.linkUnclocked (s.heldOver p) = _
  cases half : linkFitted s.cfg (2 * p + 1) <;> simp [fitted, half]

/-- A lost core reference of a host port: the PLLs hold over, the port's own links are down without a reference, and with an idle
engine every other link stays as it is. -/
theorem refLost_gives {p : Nat} (started : 5 ≤ s.rst.phase) (locked : s.clk.holdover = none) (ref : s.clk.coreRef = p) (small : p < 4)
    (fitted : linkFitted s.cfg (2 * p) = true) (perst : (s.port (2 * p)).perst = false) (failed : (s.port (2 * p)).failed = false) :
    Gives .refLost s fun t => t.clk.holdover = some s.tbc ∧ t.clk.coreRef = p ∧ bit t.clk.hpRef p = false ∧
      (t.port (2 * p)).noRefclk = true ∧ (t.port (2 * p)).link = 3 ∧ (EngineIdle s → ∀ l, l / 2 ≠ p → t.port l = s.port l) := by
  have first := State.linkUnclocked_port (s := s.heldOver p) perst failed
  have rest (idle : EngineIdle s) (l : Nat) (other : 2 * p ≠ l) : ((s.heldOver p).linkUnclocked (2 * p)).port l = s.port l :=
    State.linkUnclocked_port_other (.inr (engineIdle_congr idle rfl rfl rfl)) other
  have half {l : Nat} (other : 2 * p + 1 ≠ l) :
      (((s.heldOver p).linkUnclocked (2 * p)).linkUnclocked (2 * p + 1)).port l = ((s.heldOver p).linkUnclocked (2 * p)).port l :=
    State.linkUnclocked_port_other (.inl (by omega)) other
  have clk : (refLost s).clk = (s.heldOver p).clk := by
    rw [refLost_of_hostPort started locked ref small fitted]
    split <;> simp only [State.linkUnclocked_clk]
  have own : (refLost s).port (2 * p) = ((s.heldOver p).linkUnclocked (2 * p)).port (2 * p) := by
    rw [refLost_of_hostPort started locked ref small fitted]
    split
    · exact half (by omega)
    · rfl
  refine ⟨_, rfl, by rw [clk]; rfl, by rw [clk]; exact ref, by rw [clk]; exact bit_setBit_false _ _, by rw [own]; exact first.1,
    by rw [own]; exact first.2, fun idle l other => ?_⟩
  rw [refLost_of_hostPort started locked ref small fitted]
  split
  · rw [half (by omega), rest idle l (by omega)]
  · exact rest idle l (by omega)

theorem exec_refLost_management (started : 5 ≤ s.rst.phase) (locked : s.clk.holdover = none) (ref : s.clk.coreRef = 5) :
    exec .refLost s = .next (s.setClk { s.clk with holdover := some s.tbc, mgRef := false }) := by
  show Host.Outcome.next (refLost s) = _
  rw [refLost, if_neg (not_refIgnored started locked)]
  simp [ref]

/-- The core PLLs lock to the first present source. -/
theorem exec_refSwitch {t0 c : Nat} (held : s.clk.holdover = some t0) (source : refSource s.clk.hpRef s.clk.tpRef s.clk.mgRef = some c) :
    exec .refSwitch s = .next (s.setClk { s.clk with holdover := none, coreRef := c, switches := s.clk.switches + 1 }) := by
  show Host.Outcome.next (refSwitch s) = _
  rw [refSwitch, held, source]

theorem refSource_hostPort {p hp : Nat} {tp mg : Bool} (small : p < 4) (here : bit hp p = true) (first : ∀ j, j < p → bit hp j = false) :
    refSource hp tp mg = some p := by
  have found : (List.range 4).find? (bit hp) = some p := by
    rw [List.find?_range_eq_some]
    exact ⟨here, by simpa using small, fun j h => by simp [first j h]⟩
  rw [refSource, found]

theorem refSource_noHostPort {hp : Nat} {tp mg : Bool} (absent : ∀ j, j < 4 → bit hp j = false) :
    refSource hp tp mg = if tp then some 4 else if mg then some 5 else none := by
  have found : (List.range 4).find? (bit hp) = none := by
    rw [List.find?_eq_none]
    exact fun j h => by simp [absent j (by simpa using h)]
  rw [refSource, found]

end Sys2Proof.Machine
end

section
/-! Stopped clocks, one-sided resets of crossings, and UCIe (16 R544-R547; 15 R522; 11 R381). -/
namespace Sys2Proof.Machine
open Sys2Proof Sys2Proof.Claims

variable {n : Nat} {s : State}

/-! ### Stopped clocks (16 R544) -/

theorem exec_clockFault_eng (up : s.up n = true) (i : Nat) (runs : (s.ck n).relock = false) (awake : (s.sl n).parked = false) :
    exec (.clockFault n .eng i) s = exec (.sliceReset n 5) s := by
  show Host.Outcome.next (clockFault n .eng i s).dirSettle = .next (sliceReset n 5 s).dirSettle
  simp [clockFault, up, runs, awake]

/-- Without its NOC, HBM, LP or MGMT clock a slice is lost, with a free cause. -/
theorem clockFault_loses (up : s.up n = true) {d : ClkDomain} (lossy : d ∈ [ClkDomain.noc, .hbm, .lp, .mgmt]) (i : Nat) :
    clockFault n d i s = sliceLost n (1 + s.draw.1 % 8) s.draw.2 := by
  have serves : ¬ (!s.up n) = true := by simp [up]
  simp only [List.mem_cons, List.not_mem_nil, or_false] at lossy
  unfold clockFault
  rw [if_neg serves]
  rcases lossy with rfl | rfl | rfl | rfl <;> rfl

theorem clockFault_lost (up : s.up n = true) (i : Nat) {d : ClkDomain} (lossy : d ∈ [ClkDomain.noc, .hbm, .lp, .mgmt]) :
    Settles (.clockFault n d i) s fun t => (t.sl n).state = 4 ∧ t.rst.degraded = true := by
  have serves : (s.draw.2).up n = true := up
  refine ⟨clockFault n d i s, rfl, ?_⟩
  dsimp only
  rw [clockFault_loses up lossy, sliceLost_sl _ serves, sliceLost_degraded _ serves]
  exact ⟨rfl, rfl⟩

theorem State.linkFails_of_up {p : Nat} (up : (s.peer p).link = 2) :
    s.linkFails p = s.modPeer p fun x => { x with link := 1, downAt := some s.tbc, discarding := false } := by
  simp [State.linkFails, up]

theorem exec_clockFault_peer (up : s.up n = true) {i : Nat} (fitted : i < peerPorts s.cfg) (own : peerPortSlice s.cfg i = n)
    (open_ : (s.peer i).link = 2) : exec (.clockFault n .ppp i) s =
      .next (s.modPeer i fun x => { x with link := 1, downAt := some s.tbc, discarding := false }).dirSettle := by
  show Host.Outcome.next (clockFault n .ppp i s).dirSettle = _
  have fails : clockFault n .ppp i s = s.linkFails i := by simp [clockFault, up, fitted, own]
  rw [fails, State.linkFails_of_up open_]

theorem hostPorts_le (c : Cfg) : hostPorts c ≤ 4 := by unfold hostPorts; split <;> omega

/-- Without its clock a host port takes down its links that are up. -/
theorem clockFault_hostPort (up : s.up n = true) {i : Nat} (fitted : i < hostPorts s.cfg) (own : hostPortSlice s.cfg i = n) :
    Settles (.clockFault n .hpp i) s fun t =>
      ∀ l, l / 2 = i → linkFitted s.cfg l = true → (s.port l).link = 2 → (t.port l).link = 3 := by
  have host : i ≠ 4 := by have := hostPorts_le s.cfg; omega
  have links : clockFault n .hpp i s = ([2 * i, 2 * i + 1].filter (linkFitted s.cfg)).foldl (fun s l => s.linkLost l) s := by
    simp [clockFault, up, host, fitted, own]
  refine ⟨clockFault n .hpp i s, rfl, fun l port there open_ => ?_⟩
  rw [links]
  have half : l = 2 * i ∨ l = 2 * i + 1 := by omega
  exact State.foldl_linkLost_up (List.mem_filter.2 ⟨by simpa using half, there⟩) open_

/-! ### One-sided resets (16 R545-R547) -/

/-- A crossing of a slice that serves is reset. -/
theorem not_crossingIgnored (up : s.up n = true) {g : Nat} (crossing : g < 16) : ¬ (!s.up n || decide (16 ≤ g)) = true := by
  simp [up]; omega

theorem crossingFlush_gives (up : s.up n = true) {g : Nat} (crossing : g < 16) :
    Settles (.crossingFlush n g) s fun t => (t.ck n).flushes = (s.ck n).flushes + 1 ∧ (t.ck n).lastGroup = g ∧
      (t.ck n).lastEscalated = false ∧ g ∉ (t.ck n).busyGroups ∧ (g = 1 → (t.ck n).latest = []) ∧ t = { s with clk := t.clk } := by
  refine ⟨crossingFlush n g s, rfl, ?_⟩
  rw [crossingFlush, if_neg (not_crossingIgnored up crossing)]
  refine ⟨?_, ?_, ?_, ?_, ?_, rfl⟩ <;> simp +contextual

/-- The crossing of a slice has escalated. -/
def State.escalated (s : State) (n g : Nat) : State :=
  s.modCk n fun c => { c with escalations := c.escalations + 1, lastGroup := g, lastEscalated := true }

theorem State.escalated_ck (g : Nat) : (s.escalated n g).ck n =
    { s.ck n with escalations := (s.ck n).escalations + 1, lastGroup := g, lastEscalated := true } := State.ck_modCk s n _

/-- The escalation of a crossing goes on with the side that failed to acknowledge. -/
theorem crossingEscalation_side (up : s.up n = true) {g : Nat} (crossing : g < 16) :
    crossingEscalation n g .engine s = sliceReset n 5 (s.escalated n g) ∧
    (∀ c, c.slice = n → crossingEscalation n g (.controller c) s = controllerFreeze c 2 none (s.escalated n g)) ∧
    (∀ p, p < peerPorts s.cfg → peerPortSlice s.cfg p = n → crossingEscalation n g (.peerLink p) s = (s.escalated n g).linkFails p) := by
  refine ⟨?_, fun c own => ?_, fun p fitted own => ?_⟩ <;> rw [crossingEscalation, if_neg (not_crossingIgnored up crossing)]
  · rfl
  · exact if_pos own
  · exact if_pos (by simp [fitted, own])

theorem State.ck_modSl (f : SliceRst → SliceRst) (k : Nat) : (s.modSl n f).ck k = s.ck k := rfl

/-- The fence of a slice that serves, with no handover, no self-test and no change of its clock under way. -/
theorem sliceReset_fences (serves : (s.sl n).state = 1) (handover : s.fw.handover = none) (bist : s.bistRun = none)
    (still : (s.ck n).pending = false) (seldom : ((s.sl n).history.filter fun t => s.tbc < t + 10000 * ms).length < 2) :
    sliceReset n 5 s = s.modSl n fun r => { r with
      state := 2, lastCause := 5, resets := r.resets + 1, fenceAt := s.tbc, drainLimit := s.rst.drainUs,
      history := s.tbc :: (s.sl n).history.filter fun t => s.tbc < t + 10000 * ms } := by
  have hit : s.handoverHit = s := by simp [State.handoverHit, handover]
  have interrupt : s.bistInterrupt n = s := by simp [State.bistInterrupt, bist]
  have calm (f : SliceRst → SliceRst) : ¬ ((s.modSl n f).ck n).pending = true := by
    simp [State.ck_modSl, still]
  unfold sliceReset
  dsimp only
  rw [if_neg (by simp [serves]), if_neg (by omega), hit, interrupt, if_neg (calm _)]

theorem crossingEscalation_engine (up : s.up n = true) {g : Nat} (crossing : g < 16) (serves : (s.sl n).state = 1)
    (handover : s.fw.handover = none) (bist : s.bistRun = none) (still : (s.ck n).pending = false)
    (seldom : ((s.sl n).history.filter fun t => s.tbc < t + 10000 * ms).length < 2) :
    Settles (.crossingEscalation n g .engine) s fun t => (t.ck n).escalations = (s.ck n).escalations + 1 ∧ (t.ck n).lastGroup = g ∧
      (t.ck n).lastEscalated = true ∧ (t.sl n).state = 2 ∧ (t.sl n).lastCause = 5 ∧ t.pool = s.pool := by
  have still' : ((s.escalated n g).ck n).pending = false := by rw [State.escalated_ck]; exact still
  refine ⟨crossingEscalation n g .engine s, rfl, ?_⟩
  rw [(crossingEscalation_side up crossing).1, sliceReset_fences (s := s.escalated n g) serves handover bist still' seldom]
  dsimp only
  rw [State.sl_modSl, State.ck_modSl, State.escalated_ck]
  exact ⟨rfl, rfl, rfl, rfl, rfl, rfl⟩

/-! ### A controller that freezes (10 R335) -/

theorem State.freezeCtl_still (c : Ctl) (cause : Nat) (addr : Option Nat) : (s.freezeCtl c cause addr).still = s.still := by
  unfold State.freezeCtl State.signalError
  split <;> simp

/-- A controller in service freezes with its cause. -/
theorem State.freezeCtl_chan {c : Ctl} (cause : Nat) (addr : Option Nat) (serves : s.chanState c = 2) :
    ((s.freezeCtl c cause addr).chan c).override = some 3 ∧ ((s.freezeCtl c cause addr).chan c).freezeCause = cause := by
  have signalled (t : State) (p : Bytes) : ((t.record 2 0x000D p).signalError).chan c = t.chan c := by
    simp [State.chan, State.signalError]
  have changed (t : State) (f : Chan → Chan) : (t.modChan c f).chan c = f (t.chan c) :=
    tabGet_tabMod_same ({} : Chan) t.drc.chans (ctlKey c) f
  unfold State.freezeCtl
  rw [if_neg (by simp [serves])]
  dsimp only
  rw [signalled, changed]
  exact ⟨rfl, rfl⟩

theorem State.ctlFitted_congr {t : State} (still : t.still = s.still) (c : Ctl) : t.ctlFitted c = s.ctlFitted c := by
  have rst : t.rst = s.rst := show t.still.rst = s.still.rst by rw [still]
  have cfg : t.cfg = s.cfg := show t.still.cfg = s.still.cfg by rw [still]
  simp only [State.ctlFitted, State.up, State.sl, rst, cfg]

theorem State.freezeCtl_chanState {c : Ctl} (cause : Nat) (addr : Option Nat) (serves : s.chanState c = 2) :
    (s.freezeCtl c cause addr).chanState c = 3 := by
  have fitted : s.ctlFitted c = true := by
    cases fits : s.ctlFitted c with
    | true => rfl
    | false => simp [State.chanState, fits] at serves
  unfold State.chanState
  rw [State.ctlFitted_congr (State.freezeCtl_still c cause addr), fitted, (State.freezeCtl_chan cause addr serves).1]
  rfl

theorem crossingEscalation_controller (up : s.up n = true) {g : Nat} (crossing : g < 16) {c : Ctl} (own : c.slice = n)
    (serves : s.chanState c = 2) : Settles (.crossingEscalation n g (.controller c)) s fun t =>
      (t.ck n).escalations = (s.ck n).escalations + 1 ∧ t.chanState c = 3 ∧ (t.chan c).freezeCause = 2 := by
  have freezes : controllerFreeze c 2 none (s.escalated n g) = (s.escalated n g).freezeCtl c 2 none := by
    simp [controllerFreeze, frozenBy]
  have serves' : (s.escalated n g).chanState c = 2 := serves
  have clk : ((s.escalated n g).freezeCtl c 2 none).still.clk = (s.escalated n g).still.clk := by rw [State.freezeCtl_still]
  refine ⟨crossingEscalation n g (.controller c) s, rfl, ?_⟩
  rw [(crossingEscalation_side up crossing).2.1 c own, freezes]
  refine ⟨?_, State.freezeCtl_chanState 2 none serves', (State.freezeCtl_chan 2 none serves').2⟩
  rw [State.ck, show ((s.escalated n g).freezeCtl c 2 none).clk = (s.escalated n g).clk from clk]
  exact congrArg ClkSlice.escalations (State.escalated_ck g)

theorem crossingEscalation_peerLink (up : s.up n = true) {g : Nat} (crossing : g < 16) {p : Nat} (fitted : p < peerPorts s.cfg)
    (own : peerPortSlice s.cfg p = n) (open_ : (s.peer p).link = 2) : Settles (.crossingEscalation n g (.peerLink p)) s fun t =>
      (t.peer p).link = 1 ∧ (t.ck n).escalations = (s.ck n).escalations + 1 := by
  refine ⟨crossingEscalation n g (.peerLink p) s, rfl, ?_⟩
  rw [(crossingEscalation_side up crossing).2.2 p fitted own, State.linkFails_of_up (s := s.escalated n g) open_]
  exact ⟨by simp [State.peer, State.modPeer], congrArg ClkSlice.escalations (State.escalated_ck g)⟩

/-! ### UCIe (15 R522, 11 R381) -/

theorem exec_ucieLaneRepair (up : s.up n = true) (spare : (s.sl n).spareLanes ≠ 0) : exec (.ucieLaneRepair n) s =
    .next (s.modSl n fun r => { r with laneRepairs := r.laneRepairs + 1, spareLanes := r.spareLanes - 1 }) := by
  show Host.Outcome.next (laneRepair n s) = _
  simp [laneRepair, up, spare]

/-- An edge of a slice is no longer up. -/
def State.edgeOff (s : State) (n e : Nat) : State := s.modSl n fun r => { r with edgesUp := setBit r.edgesUp e false }

theorem State.edgeOff_sl (e : Nat) : (s.edgeOff n e).sl n = { s.sl n with edgesUp := setBit (s.sl n).edgesUp e false } :=
  State.sl_modSl s n _

theorem State.sl_modSl_other {k : Nat} (f : SliceRst → SliceRst) (other : n ≠ k) : (s.modSl n f).sl k = s.sl k :=
  tabGet_tabMod_other _ _ _ _ _ _ other

theorem State.edgeOff_up (up : s.up n = true) (e : Nat) : (s.edgeOff n e).up n = true := by
  rw [State.up, State.edgeOff_sl]
  exact up

theorem State.edgeEnd_of_up {e : Nat} (up : s.up n = true) (edge : bit (s.sl n).edgesUp e = true) : s.edgeEnd n e =
    if (s.sl n).edgesUp = 2 ^ e then sliceLost n 6 (s.edgeOff n e)
    else (s.edgeOff n e).modSl n fun r => { r with reroutes := r.reroutes + 1 } := by
  unfold State.edgeEnd
  rw [if_neg (by simp [up, edge])]
  change (if ((s.edgeOff n e).sl n).edgesUp = 0 then sliceLost n 6 (s.edgeOff n e)
    else (s.edgeOff n e).modSl n fun r => { r with reroutes := r.reroutes + 1 }) = _
  rw [State.edgeOff_sl]
  simp only [setBit_false_eq_zero edge]

/-- An end of an edge writes the record of its own slice alone. -/
theorem State.edgeEnd_sl_other {k : Nat} (e : Nat) (other : n ≠ k) : (s.edgeEnd n e).sl k = s.sl k := by
  have off : (s.edgeOff n e).sl k = s.sl k := State.sl_modSl_other _ other
  by_cases h : s.up n = true ∧ bit (s.sl n).edgesUp e = true
  · rw [State.edgeEnd_of_up h.1 h.2]
    split
    · rw [sliceLost_sl_other 6 (State.edgeOff_up h.1 e) other, off]
    · rw [State.sl_modSl_other _ other, off]
  · have nothing : s.edgeEnd n e = s := by
      have ignored : (!s.up n || !bit (s.sl n).edgesUp e) = true := by
        rw [← Bool.not_and, Bool.not_eq_true', ← Bool.not_eq_true, Bool.and_eq_true]
        exact h
      unfold State.edgeEnd
      rw [if_pos ignored]
    rw [nothing]

/-- With other edges the slice reroutes over them. -/
theorem State.edgeEnd_reroutes {e : Nat} (up : s.up n = true) (edge : bit (s.sl n).edgesUp e = true) (more : (s.sl n).edgesUp ≠ 2 ^ e) :
    (s.edgeEnd n e).sl n =
      { s.sl n with edgesUp := setBit (s.sl n).edgesUp e false, reroutes := (s.sl n).reroutes + 1 } ∧ (s.edgeEnd n e).rst.inService = s.rst.inService := by
  rw [State.edgeEnd_of_up up edge, if_neg more]
  exact ⟨by rw [State.sl_modSl, State.edgeOff_sl], rfl⟩

/-- Without its last edge the slice is lost with cause 6. -/
theorem State.edgeEnd_loses {e : Nat} (up : s.up n = true) (last : (s.sl n).edgesUp = 2 ^ e) :
    (s.edgeEnd n e).sl n = lostRec 6 { s.sl n with edgesUp := setBit (s.sl n).edgesUp e false } := by
  rw [State.edgeEnd_of_up up (by simp [last, bit_two_pow]), if_pos last, sliceLost_sl 6 (State.edgeOff_up up e), State.edgeOff_sl]

theorem State.edgeEnd_edge {e : Nat} (up : s.up n = true) (edge : bit (s.sl n).edgesUp e = true) :
    bit ((s.edgeEnd n e).sl n).edgesUp e = false := by
  by_cases last : (s.sl n).edgesUp = 2 ^ e
  · rw [State.edgeEnd_loses up last]; exact bit_setBit_false _ _
  · rw [(State.edgeEnd_reroutes up edge last).1]; exact bit_setBit_false _ _

/-- A slice that serves no longer has no edge to lose. -/
theorem State.edgeEnd_of_down (down : s.up n = false) (e : Nat) : s.edgeEnd n e = s := by simp [State.edgeEnd, down]

theorem edgeDown_of_some {e : Nat} {x : Nat × Nat} (up : s.up n = true) (edge : bit (s.sl n).edgesUp e = true)
    (peer : edgePeer s.cfg n e = some x) : edgeDown n e s = (s.edgeEnd n e).edgeEnd x.1 x.2 := by
  simp [edgeDown, up, edge, peer]

theorem edgeDown_of_none {e : Nat} (up : s.up n = true) (edge : bit (s.sl n).edgesUp e = true) (peer : edgePeer s.cfg n e = none) :
    edgeDown n e s = s.edgeEnd n e := by
  simp [edgeDown, up, edge, peer]

/-- An edge that is down at a slice with other edges reroutes it, and its far end where that slice serves. -/
theorem ucieEdgeDown_reroutes {e : Nat} (up : s.up n = true) (edge : bit (s.sl n).edgesUp e = true) (more : (s.sl n).edgesUp ≠ 2 ^ e)
    (away : ∀ x, edgePeer s.cfg n e = some x → x.1 ≠ n) : Settles (.ucieEdgeDown n e) s fun t =>
      bit (t.sl n).edgesUp e = false ∧ (t.sl n).reroutes = (s.sl n).reroutes + 1 ∧ (t.sl n).state = (s.sl n).state ∧
      ∀ x, edgePeer s.cfg n e = some x → s.up x.1 = true → bit (s.sl x.1).edgesUp x.2 = true →
        bit (t.sl x.1).edgesUp x.2 = false ∧ ((s.sl x.1).edgesUp ≠ 2 ^ x.2 → (t.sl x.1).reroutes = (s.sl x.1).reroutes + 1) := by
  obtain ⟨near, inService⟩ := State.edgeEnd_reroutes up edge more
  refine ⟨edgeDown n e s, rfl, ?_⟩
  dsimp only
  cases peer : edgePeer s.cfg n e with
  | none =>
    rw [edgeDown_of_none up edge peer, near]
    exact ⟨bit_setBit_false _ _, rfl, rfl, by simp⟩
  | some x =>
    have other : x.1 ≠ n := away x peer
    rw [edgeDown_of_some up edge peer, State.edgeEnd_sl_other x.2 other, near]
    refine ⟨bit_setBit_false _ _, rfl, rfl, ?_⟩
    rintro y same up' edge'
    obtain rfl := Option.some.inj same
    have far : (s.edgeEnd n e).sl x.1 = s.sl x.1 := State.edgeEnd_sl_other e other.symm
    have serves : (s.edgeEnd n e).up x.1 = true := by rw [State.up, inService, far]; exact up'
    refine ⟨State.edgeEnd_edge serves (by rw [far]; exact edge'), fun more' => ?_⟩
    rw [(State.edgeEnd_reroutes serves (by rw [far]; exact edge') (by rw [far]; exact more')).1, far]

/-- A slice whose last edge is down is lost, whatever becomes of the far end. -/
theorem ucieEdgeDown_loses {e : Nat} (up : s.up n = true) (edge : bit (s.sl n).edgesUp e = true) (last : (s.sl n).edgesUp = 2 ^ e) :
    Settles (.ucieEdgeDown n e) s fun t => (t.sl n).state = 4 ∧ (t.sl n).lastCause = 6 := by
  have near := State.edgeEnd_loses up last
  have lost : ((s.edgeEnd n e).sl n).state = 4 ∧ ((s.edgeEnd n e).sl n).lastCause = 6 := by rw [near]; exact ⟨rfl, rfl⟩
  refine ⟨edgeDown n e s, rfl, ?_⟩
  dsimp only
  cases peer : edgePeer s.cfg n e with
  | none => rwa [edgeDown_of_none up edge peer]
  | some x =>
    rw [edgeDown_of_some up edge peer]
    by_cases other : x.1 = n
    · have down : (s.edgeEnd n e).up x.1 = false := by simp [State.up, other, lost]
      rw [State.edgeEnd_of_down down]
      exact lost
    · rw [State.edgeEnd_sl_other x.2 other]
      exact lost

end Sys2Proof.Machine

namespace Sys2Proof.Proofs
open Sys2Proof Sys2Proof.Machine Sys2Proof.Claims

/-- Settles O58, clause by clause: the clocks of a slice, the references, the faults, the crossings and the edges. What follows from a
lost link or slice leaves the records of slices, the clocks and the states of links as they are, so each clause reads what its own
command wrote. -/
theorem clocksChangeAndCrossingsFlush : Obligations.ClocksChangeAndCrossingsFlush := by
  unfold Obligations.ClocksChangeAndCrossingsFlush
  refine ⟨?invalid, ?freqSet, ?change, ?lost, ?switch, ?fault, ?crossing, ?edge⟩
  case invalid =>
    exact fun via inp s accepted absent => exec_freqSet_invalid accepted (.inr absent)
  case freqSet =>
    rintro via inp n st k s accepted mask small there step free up released rfl
    have gives := freqSet_gives accepted mask small there step free up released
    exact ⟨fun inRange slow => (gives inRange slow).1, fun inRange slow => (gives inRange slow).2.1,
      fun inRange slow => (gives inRange slow).2.2, fun fast => exec_freqSet_invalid accepted (.inl (step ▸ fast))⟩
  case change =>
    rintro n k s rfl
    exact ⟨exec_engFreqChange, fun v relock quiet idle op _ => engFreqChangeDone_applies relock quiet idle op,
      exec_freqChangeDeferEnd_running, fun v pending deferred waits down op _ => freqChangeDeferEnd_cancels pending deferred waits down op⟩
  case lost =>
    exact fun s started locked => ⟨fun p => refLost_gives started locked, exec_refLost_management started locked⟩
  case switch =>
    refine fun t0 s held => ⟨fun p small here first => exec_refSwitch held (refSource_hostPort small here first),
      fun absent tp => exec_refSwitch held ?_, fun absent tp mg => exec_refSwitch held ?_⟩
    · simp [refSource_noHostPort absent, tp]
    · simp [refSource_noHostPort absent, tp, mg]
  case fault =>
    exact fun n i s up => ⟨exec_clockFault_eng up i, fun d => clockFault_lost up i, exec_clockFault_peer up, clockFault_hostPort up⟩
  case crossing =>
    exact fun n g s up crossing => ⟨crossingFlush_gives up crossing, crossingEscalation_engine up crossing,
      fun c => crossingEscalation_controller up crossing, fun p => crossingEscalation_peerLink up crossing⟩
  case edge =>
    exact fun n s up => ⟨exec_ucieLaneRepair up,
      fun e _ edge => ⟨ucieEdgeDown_reroutes up edge, ucieEdgeDown_loses up edge⟩⟩

end Sys2Proof.Proofs
end
